-- ==== Sys2Proof/Word.lean ====
section
/-! DEFINITION. The words of the part: link and memory bytes, part time, the numbers of its things, a zone's current
(00_scope.md, "Conventions"). -/

namespace Sys2Proof

/-- One byte of the link, of the clip memory and of the seat strings. -/
abbrev Byte := BitVec 8

/-- A run of bytes in the order sent. -/
abbrev Bytes := List Byte

/-- Part time in milliseconds, 32 bits, wrapping (R1). -/
abbrev PartTime := BitVec 32

/-- A clip id, 0..1023. -/
abbrev ClipId := Fin 1024

/-- A language, 0..11. -/
abbrev Lang := Fin 12

/-- A reader of the Reader Bank: 0..11 are C0..C11, 12 is the PA reader, 13 the chime reader (R37). -/
abbrev ReaderId := Fin 14

/-- A seat, 0..95: its string times 24 plus its position on the string. -/
abbrev SeatId := Fin 96

/-- A seat string, 0..3. -/
abbrev StringId := Fin 4

/-- A lamp zone, 0..7. -/
abbrev ZoneId := Fin 8

/-- An announcement set, 0..63. -/
abbrev SetId := Fin 64

/-- The current of a lamp zone in mA, as the converter input of the zone delivers it (R150). -/
structure ZoneCurrent where
  zone : ZoneId
  mA : Nat
  deriving DecidableEq, Repr

end Sys2Proof
end

