-- ==== Sys2Proof/Syntax.lean ====
section
/-! DEFINITION. The commands of the part: one constructor per row of spec/opcode_table.json. A request
carries the tag and the body bytes of its frame (R179, R192). -/

namespace Sys2Proof

/-- The commands of the TD-96. -/
inductive Instr where
  -- Clip Store requests
  | clipOpen (tag : Byte) (body : Bytes)
  | clipFill (tag : Byte) (body : Bytes)
  | clipClose (tag : Byte) (body : Bytes)
  | clipDrop (tag : Byte) (body : Bytes)
  | clipDelete (tag : Byte) (body : Bytes)
  | clipQuery (tag : Byte) (body : Bytes)
  | storeQuery (tag : Byte) (body : Bytes)
  | storeCheck (tag : Byte) (body : Bytes)
  -- Commentary Scheduler requests
  | langSet (tag : Byte) (body : Bytes)
  | reelSet (tag : Byte) (body : Bytes)
  | reelClear (tag : Byte) (body : Bytes)
  | cue (tag : Byte) (body : Bytes)
  | streamQuery (tag : Byte) (body : Bytes)
  -- Announcement Controller requests
  | setDefine (tag : Byte) (body : Bytes)
  | setRemove (tag : Byte) (body : Bytes)
  | announce (tag : Byte) (body : Bytes)
  | announceCancel (tag : Byte) (body : Bytes)
  | queueQuery (tag : Byte) (body : Bytes)
  -- Seat String Controller requests
  | stringSet (tag : Byte) (body : Bytes)
  | seatSet (tag : Byte) (body : Bytes)
  | seatQuery (tag : Byte) (body : Bytes)
  | seatRelease (tag : Byte) (body : Bytes)
  -- Level Unit requests
  | speed (tag : Byte) (body : Bytes)
  | levelSet (tag : Byte) (body : Bytes)
  -- Supply Monitor requests
  | supplySet (tag : Byte) (body : Bytes)
  | supplyQuery (tag : Byte) (body : Bytes)
  | supplyPeakClear (tag : Byte) (body : Bytes)
  -- Lighting Controller requests
  | zoneSet (tag : Byte) (body : Bytes)
  | sceneSet (tag : Byte) (body : Bytes)
  | sceneSelect (tag : Byte) (body : Bytes)
  | lightcueSet (tag : Byte) (body : Bytes)
  | deckQuery (tag : Byte) (body : Bytes)
  -- Link Port requests
  | partIdent (tag : Byte) (body : Bytes)
  | partStatus (tag : Byte) (body : Bytes)
  | partReset (tag : Byte) (body : Bytes)
  | standby (tag : Byte) (body : Bytes)
  | wake (tag : Byte) (body : Bytes)
  -- reset and clip memory events
  | coldReset
  | coldResetEnd
  | startupPauseEnd
  | startupRefreshDone
  | modeSettingDone
  | refreshIntervalExpiry
  | arbiterGrant
  | refreshDone
  /-- The end of a block read of one reader. -/
  | readerReadCompletion (reader : ReaderId)
  | loaderWriteCompletion
  | closeWriteCompletion
  /-- The end of a checker transfer; after a read-back, whether the block read equals the block written. -/
  | checkerTransferCompletion (equal : Bool)
  | selfRefreshEntered
  | warmResetComplete
  | fillPageWaitEnd
  -- audio and announcement events
  | samplePeriod
  | announceEntryExpiry (set : SetId)
  | tailEnd
  -- seat string events
  | roundStart (string : StringId)
  /-- The bytes of a node's answer on a string (R195). -/
  | nodeAnswer (string : StringId) (bytes : Bytes)
  /-- Bytes on a string that are not a valid answer (R106). -/
  | invalidAnswer (string : StringId) (bytes : Bytes)
  | answerTimeout (string : StringId)
  | settleEnd (seat : SeatId)
  | coolDownEnd (seat : SeatId)
  -- level, supply and lighting events
  | speedStaleExpiry
  /-- A voltage sample, in mV as the converter input delivers it. -/
  | voltageSample (mV : Nat)
  /-- A deck current sample, in mA. -/
  | currentSample (mA : Nat)
  /-- The current of a zone, with the level at which its output was driven in the on-phase measured. -/
  | zoneSample (current : ZoneCurrent) (level : Nat)
  | fadeStep (zone : ZoneId)
  | flashHalfBoundary (zone : ZoneId)
  -- link events
  /-- A complete frame: kind, tag, body (whose length is the frame's length field) and check. -/
  | frameReceived (kind : Byte) (tag : Byte) (body : Bytes) (check : BitVec 16)
  /-- A frame whose length field has been taken. -/
  | frameLengthError (length : BitVec 16)
  | frameGapTimeout
  | transmitDone
  | syncByteReceived
  | frameStopBitError
  | releasePollsSent (string : StringId)
  deriving DecidableEq, Repr

end Sys2Proof
end

