-- ==== Sys2Proof/Decode.lean ====
section
/-! DEFINITION. The part reads no instruction words: spec/opcode_table.json gives no row any bits
(assumption 35). Link frames are judged in Machine/Ops.lean and Machine/LinkPort.lean. -/

namespace Sys2Proof

/-- The command that a word spells by the table's bits: the table gives no row any bits, so none. -/
def decodeTableWord (_nbits _w : Nat) : Option Instr := none

end Sys2Proof
end

