-- ==== Sys2Proof/Config.lean ====
section
/-! DEFINITION. What one implementation of the part fixes, and the values the spec leaves free. -/

namespace Sys2Proof.Config

/-- Pages of clip memory (00_scope.md, "Clip memory units"). -/
abbrev pages : Nat := 65536

/-- Bytes of a page. -/
abbrev pageBytes : Nat := 4096

/-- Bytes of a block; one grant of the arbiter moves one block. -/
abbrev blockBytes : Nat := 256

/-- Blocks of a page. -/
abbrev pageBlocks : Nat := 16

/-- Samples of a block. -/
abbrev blockSamples : Nat := 128

/-- Free value: the first check pattern of a page, as a 16-bit word for each page and word place. R12
says only that it is built from the page number and the word's place. Assumption 8. -/
opaque checkPattern : Nat → Nat → BitVec 16

/-- Free value: the silicon revision number that PART-IDENT reports (R185). Assumption 10. -/
opaque siliconRevision : Byte

end Sys2Proof.Config
end

