-- ==== Sys2Proof/Machine/State.lean ====
section
/-! DEFINITION. The state of the part as plain data, block by block, the machine's ways to stop, and
the state at reset. INVENTORY.md lists every field with its rule and its reset value. -/

namespace Sys2Proof.Machine

/-- Why the machine stops with a fault. -/
inductive Fault where
  /-- Raised by READER_READ_COMPLETION when the block read holds a byte of clip memory that nothing
  has written. Safe: the readers' rules (R27, R40) lead to written blocks only. Assumption 5. -/
  | unwrittenByte (address : Nat)
  deriving DecidableEq, Repr

/-- Why the machine refuses a command. -/
inductive Refusal where
  /-- Raised by an arm of `exec` for a command that has no meaning in the model yet. Safe: it stops. -/
  | notModelled (mnemonic : String)
  deriving DecidableEq, Repr

/-! ### Clip Memory Controller (01_clip_memory.md) -/

/-- The memory state (R2). -/
inductive MemoryState where
  | off | initialising | ready | selfRefresh
  deriving DecidableEq, Repr

/-- The start-up origin (R2). -/
inductive Origin where
  | cold | wake
  deriving DecidableEq, Repr

/-- The stage of the start-up sequence (R3): none outside INITIALISING. -/
inductive Stage where
  | none
  | pause
  /-- Refresh operations, with the number done. -/
  | refresh (done : Nat)
  | modeSetting
  deriving DecidableEq, Repr

/-- What the DRAM device is doing (R5, R6). -/
inductive Device where
  | idle
  | refreshing
  /-- A block transfer of a ring client; withdrawn when its completion is not to be delivered. -/
  | transfer (client : Fin 16) (page block : Nat) (withdrawn : Bool)
  deriving DecidableEq, Repr

/-- The memory record (R2) with the device and the arbiter's waiting requests (R5, R6). -/
structure MemCtl where
  state : MemoryState
  row : Nat
  owed : Nat
  ring : Fin 16
  origin : Origin
  stage : Stage
  device : Device
  waiting : Vector Bool 16
  deriving DecidableEq, Repr

/-- R2: the cold values of the memory record. -/
def MemCtl.cold : MemCtl :=
  { state := .off, row := 0, owed := 0, ring := 15, origin := .cold, stage := .none
    device := .idle, waiting := Vector.replicate 16 false }

/-! ### Clip Store (02_clips_and_the_page_map.md, 01_clip_memory.md) -/

/-- The state of a clip (R18). -/
inductive ClipState where
  | free | loading | ready | retiring
  deriving DecidableEq, Repr

/-- The retire cause of a clip (R18). -/
inductive RetireCause where
  | deleted | dropped
  deriving DecidableEq, Repr

/-- A clip record (R18). -/
structure Clip where
  state : ClipState
  declared : Option Nat
  threshold : Nat
  loaded : Nat
  pageCount : Nat
  firstPage : Option Nat
  lastPage : Option Nat
  marks : List Nat
  hold : Nat
  setRefs : Nat
  sent : Bool
  cause : Option RetireCause
  deriving DecidableEq, Repr

/-- R18: the record of a FREE clip. -/
def Clip.empty : Clip :=
  { state := .free, declared := none, threshold := 0, loaded := 0, pageCount := 0
    firstPage := none, lastPage := none, marks := [], hold := 0, setRefs := 0, sent := false
    cause := none }

/-- The state of a page (R19). -/
inductive PageState where
  | free | clip | check | withdrawn
  deriving DecidableEq, Repr

/-- A Page Map entry (R19). -/
structure PageEntry where
  state : PageState
  owner : Option ClipId
  index : Option Nat
  next : Option Nat
  deriving DecidableEq, Repr

/-- R19: the entry of a free page. -/
def PageEntry.empty : PageEntry := { state := .free, owner := none, index := none, next := none }

/-- A run of consecutive page numbers of the Free List (R20; assumption 31). -/
structure PageRun where
  start : Nat
  count : Nat
  deriving DecidableEq, Repr

/-- The result of a page of the check batch. -/
inductive PageResult where
  | untested | passed | failed
  deriving DecidableEq, Repr

/-- A page of the check batch with its result. -/
structure BatchPage where
  page : Nat
  result : PageResult
  deriving DecidableEq, Repr

/-- The check record, with the number of transfers made of the page under test (R10 to R12). -/
structure Check where
  running : Bool
  target : Nat
  tested : Nat
  withdrawn : Nat
  batch : List BatchPage
  made : Nat
  tag : Byte
  deriving DecidableEq, Repr

/-- The check record after a cold reset: IDLE, every count 0, the batch empty. No rule gives its request tag
(assumption 17). -/
def Check.cold : Check :=
  { running := false, target := 0, tested := 0, withdrawn := 0, batch := [], made := 0, tag := 0 }

/-- What the loader is doing for the request that the Clip Store has taken (R21, R24, R25, R28). -/
inductive Job where
  | none
  /-- A CLIP-FILL waits for a page with all its data. -/
  | fillWait (tag : Byte) (clip : ClipId) (data : Bytes)
  /-- A CLIP-FILL writes; `rest` are the bytes after those in the loader's buffer. -/
  | fillWrite (tag : Byte) (clip : ClipId) (rest : Bytes)
  /-- A CLIP-CLOSE makes its close write. -/
  | closeWrite (tag : Byte) (clip : ClipId)
  deriving DecidableEq, Repr

/-- Why the blocks are cleared: a warm reset or an entry to standby (R36). -/
inductive ResetCause where
  | warm | standby
  deriving DecidableEq, Repr

/-- The Clip Store. `clips` lists the records that are not `Clip.empty`, `pageMap` the entries that
are not `PageEntry.empty`, both by rising number. -/
structure Store where
  clips : List (Nat × Clip)
  pageMap : List (Nat × PageEntry)
  freeList : List PageRun
  withdrawnSet : List Nat
  check : Check
  job : Job
  buffer : Bytes
  clearing : Option ResetCause
  deriving DecidableEq, Repr

/-- The Clip Store after a cold reset (R16, R18, R19, R20). -/
def Store.cold : Store :=
  { clips := [], pageMap := [], freeList := [⟨0, Config.pages⟩], withdrawnSet := []
    check := Check.cold, job := .none, buffer := [], clearing := none }

/-! ### Reader Bank (03_channel_readers_and_the_audio_bus.md) -/

/-- A gain code: MUTE or a number 0..72 (00_scope.md, "Levels"). -/
inductive GainCode where
  | mute
  | code (n : Nat)
  deriving DecidableEq, Repr

/-- The state of a reader (R37). -/
inductive ReaderState where
  | idle | priming | running | starved
  deriving DecidableEq, Repr

/-- The owner of a reader (R37). -/
inductive Owner where
  | commentary | announcement | none
  deriving DecidableEq, Repr

/-- A reader record (R37). The buffer holds its blocks, oldest first; their number is the buffer fill. -/
structure Reader where
  state : ReaderState
  owner : Owner
  clip : Option ClipId
  position : Nat
  nextBlock : Nat
  page : Option Nat
  buffer : List Bytes
  outstanding : Bool
  wait : Bool
  stopPoint : Option Nat
  deriving DecidableEq, Repr

/-- R37: the values of an IDLE reader under an owner. -/
def Reader.idle (owner : Owner) : Reader :=
  { state := .idle, owner := owner, clip := none, position := 0, nextBlock := 0, page := none
    buffer := [], outstanding := false, wait := false, stopPoint := none }

/-- Why a START was refused (R37, R39). -/
inductive RefuseCause where
  | clipFree | clipRetiring | holdLimit
  deriving DecidableEq, Repr

/-- What a reader reports of its own end (R37). HANDED-OVER is taken within the take (R49). -/
inductive ReportKind where
  | completed | cut | abandoned
  | refused (cause : RefuseCause)
  deriving DecidableEq, Repr

/-- A report of a reader to the owner it had when it made the report. -/
structure Report where
  reader : ReaderId
  owner : Owner
  kind : ReportKind
  deriving DecidableEq, Repr

/-- An audio bus frame: the samples of slots 0..12 and the PA gain code (R51, R52, R196). -/
structure BusFrame where
  samples : List (BitVec 16)
  pa : GainCode
  deriving DecidableEq, Repr

/-- The Reader Bank and the audio bus. -/
structure Bank where
  readers : Vector Reader 14
  chimeRouting : Bool
  busOn : Bool
  frame : Option BusFrame
  reports : List Report
  deriving DecidableEq, Repr

/-- R37, R53: every reader IDLE, C0..C11 owned by COMMENTARY, the PA and chime readers by none. -/
def Bank.idleReaders : Vector Reader 14 :=
  ((Vector.replicate 14 (Reader.idle .commentary)).set 12 (Reader.idle .none)).set 13
    (Reader.idle .none)

/-- The Reader Bank after a cold reset (R37, R53, R54). -/
def Bank.cold : Bank :=
  { readers := Bank.idleReaders, chimeRouting := false, busOn := false, frame := none, reports := [] }

/-! ### Commentary Scheduler (04_languages_and_commentary.md) -/

/-- The state of a stream (R55). -/
inductive StreamState where
  | off | idle | playing | suspended | parked
  deriving DecidableEq, Repr

/-- A reel place's entry (R63). -/
structure ReelEntry where
  clip : ClipId
  jump : Bool
  deriving DecidableEq, Repr

/-- A play-list entry (R66). `cut` is the cut-pending flag with its stop mark; `started` says that the
entry's START has been given to the reader (R71). -/
structure Entry where
  cue : Byte
  clip : ClipId
  jump : Bool
  cut : Option Nat
  started : Bool
  deriving DecidableEq, Repr

/-- A resume record (R73). -/
structure Resume where
  clip : ClipId
  sample : Nat
  deriving DecidableEq, Repr

/-- A language record (R55) with its reel (R63); the reel lists its filled places by rising cue number. -/
structure Language where
  enabled : Bool
  tag : Bytes
  fallback : Option Lang
  trim : Int
  audience : Nat
  stream : StreamState
  current : Option Entry
  waiting : List Entry
  resume : Option Resume
  reel : List (Nat × ReelEntry)
  deriving DecidableEq, Repr

/-- R55: a language record after a cold reset. -/
def Language.cold (enabled : Bool) (tag : Bytes) : Language :=
  { enabled := enabled, tag := tag, fallback := none, trim := 0, audience := 0
    stream := if enabled then .parked else .off, current := none, waiting := [], resume := none
    reel := [] }

/-- The Language Table. `pa = none` is FOLLOW-DEFAULT. -/
structure LangTable where
  langs : Vector Language 12
  default : Lang
  pa : Option Lang
  hold : Bool
  deriving DecidableEq, Repr

/-- The Language Table after a cold reset (R55): tags "EN" and "L1" to "L11". -/
def LangTable.cold : LangTable :=
  { langs := #v[Language.cold true [0x45, 0x4E], Language.cold false [0x4C, 0x31],
      Language.cold false [0x4C, 0x32], Language.cold false [0x4C, 0x33],
      Language.cold false [0x4C, 0x34], Language.cold false [0x4C, 0x35],
      Language.cold false [0x4C, 0x36], Language.cold false [0x4C, 0x37],
      Language.cold false [0x4C, 0x38], Language.cold false [0x4C, 0x39],
      Language.cold false [0x4C, 0x31, 0x30], Language.cold false [0x4C, 0x31, 0x31]]
    default := 0, pa := none, hold := false }

/-! ### Announcement Controller (05_stop_and_safety_announcements.md) -/

/-- The class of a set (R78). -/
inductive SetClass where
  | safety | stop | service
  deriving DecidableEq, Repr

/-- A set record (R78). -/
structure AnnSet where
  defined : Bool
  cls : SetClass
  defaultClip : ClipId
  items : List (Lang × ClipId)
  paClip : Option ClipId
  chimeClip : Option ClipId
  lightCue : Option (Fin 16)
  repeats : Nat
  expiry : Nat
  lift : Nat
  tail : Nat
  deriving DecidableEq, Repr

/-- R78: an undefined set. -/
def AnnSet.cold : AnnSet :=
  { defined := false, cls := .service, defaultClip := 0, items := [], paClip := none
    chimeClip := none, lightCue := none, repeats := 1, expiry := 0, lift := 0, tail := 3 }

/-- An Announcement Queue entry (R81). -/
structure QEntry where
  set : SetId
  cls : SetClass
  arrival : PartTime
  deadline : Option PartTime
  tag : Byte
  deriving DecidableEq, Repr

/-- The phase of a playing announcement (R85). -/
inductive Phase where
  | chime | speech | tail
  deriving DecidableEq, Repr

/-- The Playing Record (R85). `channels` are the languages speaking, ascending. -/
structure Playing where
  entry : QEntry
  phase : Phase
  repetition : Nat
  channels : List Lang
  paSpeaking : Bool
  chimeSpeaking : Bool
  tailEnd : Option PartTime
  deriving DecidableEq, Repr

/-- The events of ANNOUNCE notices and of the last ending record (R99). -/
inductive AnnEvent where
  | started | done | cut | dropped
  deriving DecidableEq, Repr

/-- The reasons of ANNOUNCE notices and of the last ending record (R99). -/
inductive AnnReason where
  | displaced | expired | cancelled | standby | reset
  deriving DecidableEq, Repr

/-- The last ending record (R99). -/
structure LastEnding where
  set : SetId
  event : AnnEvent
  reason : Option AnnReason
  time : PartTime
  deriving DecidableEq, Repr

/-- The Announcement Controller. `safetyFault` is the zone report of R98 as last told. -/
structure Announcer where
  sets : Vector AnnSet 64
  queue : List QEntry
  playing : Option Playing
  last : Option LastEnding
  safetyFault : Bool
  deckAlert : Bool
  deriving DecidableEq, Repr

/-- The Announcement Controller after a cold reset (R78, R101). -/
def Announcer.cold : Announcer :=
  { sets := Vector.replicate 64 AnnSet.cold, queue := [], playing := none, last := none
    safetyFault := false, deckAlert := false }

/-! ### Seat String Controller (06_seat_strings.md, 07_headset_sockets.md) -/

/-- The LED mode of a poll (R105). -/
inductive Led where
  | off | steady | slow | fast
  deriving DecidableEq, Repr

/-- A poll on a seat string (R105, R195). -/
structure Poll where
  position : Nat
  power : Bool
  led : Led
  slot : Lang
  gain : GainCode
  deriving DecidableEq, Repr

/-- A string record (R102). `scanning` is the state SCANNING; `releasing` are the positions whose
release polls are going out (R111); `lastPoll` is the last poll of an exchange sent on the line. -/
structure StringRec where
  scanning : Bool
  population : Nat
  pendingPopulation : Option Nat
  roundPosition : Option Nat
  roundStart : PartTime
  exchange : Bool
  releasing : List Nat
  lastPoll : Option Poll
  deriving DecidableEq, Repr

/-- R102: a string record after a cold reset. -/
def StringRec.cold : StringRec :=
  { scanning := false, population := 24, pendingPopulation := none, roundPosition := none
    roundStart := 0, exchange := false, releasing := [], lastPoll := none }

/-- The node state of a seat (R103). -/
inductive NodeState where
  | unconfigured | seeking | online | lost
  deriving DecidableEq, Repr

/-- The press counters of a node, as baselines (R103) or as answered (R106). -/
structure Counters where
  lang : BitVec 4
  up : BitVec 4
  down : BitVec 4
  deriving DecidableEq, Repr

/-- The socket state of a seat (R119). -/
inductive SocketState where
  | unpowered | settling | empty | attached | faulted | lockedOut
  deriving DecidableEq, Repr

/-- An indication of the socket current (R125). -/
inductive Indication where
  | empty | headset | leak
  deriving DecidableEq, Repr

/-- The reason of a socket fault (R119). -/
inductive FaultReason where
  | overcurrent | leak
  deriving DecidableEq, Repr

/-- A socket's fault record (R119). -/
structure FaultRecord where
  reason : FaultReason
  time : PartTime
  sample : Nat
  average : Nat
  deriving DecidableEq, Repr

/-- The socket part of a seat record (R119). -/
structure Socket where
  state : SocketState
  ackOn : Bool
  settleEnd : Option PartTime
  classifying : Bool
  average : Option Nat
  peak : Nat
  lastSample : Nat
  run : Option (Indication × Nat)
  coolEnd : Option PartTime
  fault : Option FaultRecord
  history : List PartTime
  deriving DecidableEq, Repr

/-- R119: a socket part after a cold reset. -/
def Socket.cold : Socket :=
  { state := .unpowered, ackOn := false, settleEnd := none, classifying := false, average := none
    peak := 0, lastSample := 0, run := none, coolEnd := none, fault := none, history := [] }

/-- A seat record: node part (R103) and socket part (R119). -/
structure Seat where
  node : NodeState
  missCount : Nat
  baselines : Option Counters
  language : Lang
  volume : Nat
  pending : GainCode
  acknowledged : GainCode
  carried : Option (Bool × GainCode)
  socket : Socket
  deriving DecidableEq, Repr

/-- A seat record after a cold reset (R103, R119). -/
def Seat.cold : Seat :=
  { node := .seeking, missCount := 0, baselines := none, language := 0, volume := 8
    pending := .mute, acknowledged := .mute, carried := none, socket := Socket.cold }

/-! ### Level Unit (08_listening_level.md) -/

/-- The Level Unit (R136). -/
structure LevelUnit where
  speed : Nat
  stale : Bool
  staleEnd : Option PartTime
  cap : Int
  safetyFloor : Int
  paBase : Int
  paCap : Int
  cls : Option SetClass
  phase : Option Phase
  lift : Nat
  shed : Nat
  paCode : GainCode
  deriving DecidableEq, Repr

/-- R136: the cold values. -/
def LevelUnit.cold : LevelUnit :=
  { speed := 0, stale := true, staleEnd := none, cap := 0, safetyFloor := -20, paBase := -12
    paCap := 0, cls := none, phase := none, lift := 0, shed := 0, paCode := .mute }

/-! ### Supply Monitor (09_deck_supply_monitor.md) -/

/-- The judgement of the supply (R148): the voltage state and the shed state. -/
inductive Shed where
  | normal | low | critical
  deriving DecidableEq, Repr

/-- A stored zone sample with the level at which it was taken (R150). -/
structure ZoneSample where
  mA : Nat
  level : Nat
  deriving DecidableEq, Repr

/-- The Supply Monitor (R148). `currentLow` is the current state LOW; `intervalLength` is the length
of the interval in progress (R149). `conversions` holds for each zone whose zone conversion has been begun and has
given no sample yet the start of its interval: the zone of the interval in progress, and that of the interval before
while its on-phase may outlast it (R150; assumption 18). -/
structure Supply where
  scan : Nat
  shift : Nat
  vLow : Nat
  vCrit : Nat
  budget : Nat
  running : Bool
  intervalStart : PartTime
  intervalLength : Nat
  zoneIndex : ZoneId
  lastVoltage : Option Nat
  lastCurrent : Option Nat
  voltageAverage : Option Nat
  currentAverage : Option Nat
  peak : Nat
  voltageState : Shed
  currentLow : Bool
  shed : Shed
  zoneSamples : Vector (Option ZoneSample) 8
  conversions : Vector (Option PartTime) 8
  deriving DecidableEq, Repr

/-- R148: the cold values. -/
def Supply.cold : Supply :=
  { scan := 20, shift := 3, vLow := 23000, vCrit := 21500, budget := 30000, running := false
    intervalStart := 0, intervalLength := 20, zoneIndex := 0, lastVoltage := none
    lastCurrent := none, voltageAverage := none, currentAverage := none, peak := 0
    voltageState := .normal, currentLow := false, shed := .normal
    zoneSamples := Vector.replicate 8 none, conversions := Vector.replicate 8 none }

/-! ### Lighting Controller (10_upper_deck_lighting.md) -/

/-- The fault state of a zone (R160). -/
inductive ZoneFault where
  | ok | openFault | shortFault
  deriving DecidableEq, Repr

/-- A zone record (R160). `safety` is the kind SAFETY, `keep` the OPEN preset KEEP; `halves` counts
the flash half-boundaries taken since the active cue began (R168; assumption 19). `leftAt` lists by rising
level each level of 1 or more that the output has left, with the part time at which it left it last (R150, R166;
assumption 18). -/
structure Zone where
  enabled : Bool
  safety : Bool
  minimum : Nat
  nominal : Nat
  keep : Bool
  target : Nat
  level : Nat
  stepDue : Option PartTime
  fault : ZoneFault
  average : Option Nat
  averageLevel : Option Nat
  openCount : Nat
  halves : Nat
  leftAt : List (Nat × PartTime)
  deriving DecidableEq, Repr

/-- R160: the cold values. -/
def Zone.cold : Zone :=
  { enabled := false, safety := false, minimum := 20, nominal := 2000, keep := false, target := 0
    level := 0, stepDue := none, fault := .ok, average := none, averageLevel := none
    openCount := 0, halves := 0, leftAt := [] }

/-- A scene (R161): eight levels and a fade time in tenths of a second. -/
structure Scene where
  levels : Vector Nat 8
  fade : Nat
  deriving DecidableEq, Repr

/-- R161: a scene after a cold reset. -/
def Scene.cold : Scene := { levels := Vector.replicate 8 0, fade := 10 }

/-- An item of a light cue (R162). -/
inductive CueItem where
  | none
  | level (x : Nat)
  | flash (x : Nat) (half : Nat)
  deriving DecidableEq, Repr

/-- The Lighting Controller. `shed` is the shed state last told (R163). -/
structure Light where
  zones : Vector Zone 8
  scenes : Vector Scene 8
  cues : Vector (Vector CueItem 8) 16
  active : Fin 8
  activeCue : Option (Fin 16 × PartTime)
  shed : Shed
  deriving DecidableEq, Repr

/-- The Lighting Controller after a cold reset (R160 to R162). -/
def Light.cold : Light :=
  { zones := Vector.replicate 8 Zone.cold, scenes := Vector.replicate 8 Scene.cold
    cues := Vector.replicate 16 (Vector.replicate 8 .none), active := 0, activeCue := none
    shed := .normal }

/-! ### Link Port (11_the_link_port.md) -/

/-- The reply status codes, in their order (00_scope.md, "Reply status codes"). -/
inductive Status where
  | ok | clamped | merged | full | busy | badLength | badKind | badValue | badTag | notFound
  | wrongState | wrongOffset | referenced | notReady | inStandby | aborted
  deriving DecidableEq, Repr

/-- The 37 request kinds, in the order in which R180 lists them. -/
inductive Kind where
  | clipOpen | clipFill | clipClose | clipDrop | clipDelete | clipQuery | storeQuery | storeCheck
  | langSet | reelSet | reelClear | cue | streamQuery
  | setDefine | setRemove | announce | announceCancel | queueQuery
  | stringSet | seatSet | seatQuery | seatRelease
  | speed | levelSet
  | supplySet | supplyQuery | supplyPeakClear
  | zoneSet | sceneSet | sceneSelect | lightcueSet | deckQuery
  | partIdent | partStatus | partReset | standby | wake
  deriving DecidableEq, Repr

/-- How far an accepted request has gone: held back by a warm reset (R187 step 1), waiting in its
block's intake, taken by its block, or answered with the reply not yet taken by the transmitter. -/
inductive Progress where
  | held | intake | taken | ready
  deriving DecidableEq, Repr

/-- An occupied request slot (R179). -/
structure Slot where
  kind : Kind
  tag : Byte
  body : Bytes
  progress : Progress
  deriving DecidableEq, Repr

/-- A waiting reply; `fromSlot` tells the ready reply of a slot from a reply of the refusal queue. -/
structure Reply where
  kind : Byte
  tag : Byte
  body : Bytes
  fromSlot : Bool
  deriving DecidableEq, Repr

/-- The reasons of STREAM notices, in the order of R193. -/
inductive StreamReason where
  | parked | resumed | superseded | clipCut | skippedAbsent | skippedRetiring
  deriving DecidableEq, Repr

/-- The events of CLIP notices, in the order of R193. -/
inductive ClipEvent where
  | readyToPlay | faultAbandoned | freed
  deriving DecidableEq, Repr

/-- The content of a notice (R193). -/
inductive Notice where
  | seat (seat : SeatId) (state : SocketState) (language : Lang) (volume : Nat)
      (reason : Option FaultReason)
  | node (seat : SeatId) (state : NodeState)
  | stream (language : Lang) (state : StreamState) (reason : StreamReason)
  | announce (set : SetId) (event : AnnEvent) (reason : Option AnnReason)
  | clip (clip : ClipId) (event : ClipEvent)
  | storeMemory (old new : MemoryState)
  | storeCheck (batch failed tested withdrawn : Nat)
  | supply (old new : Shed) (voltage current : Option Nat)
  | zone (zone : ZoneId) (fault : ZoneFault)
  deriving DecidableEq, Repr

/-- A queued notice with its part time (R182). -/
structure QNotice where
  content : Notice
  time : PartTime
  deriving DecidableEq, Repr

/-- The receiver (R178). -/
inductive Receiver where
  | hunting | inFrame
  deriving DecidableEq, Repr

/-- The causes of a frame error, in the order of R178. -/
inductive ErrorCause where
  | length | gap | check | overrun
  deriving DecidableEq, Repr

/-- A frame in transmission (R192). -/
structure Frame where
  kind : Byte
  tag : Byte
  body : Bytes
  deriving DecidableEq, Repr

/-- The Link Port. `slots` are the occupied slots in the order of acceptance; `replies` are the ready
replies of slots and the refusal queue in the order in which they became ready. -/
structure Link where
  receiver : Receiver
  slots : List Slot
  replies : List Reply
  notices : List QNotice
  noticeLost : Bool
  linkError : Bool
  errorCause : Option ErrorCause
  transmitting : Option Frame
  entering : Bool
  resetting : Bool
  deriving DecidableEq, Repr

/-- R190: the cold values. -/
def Link.cold : Link :=
  { receiver := .hunting, slots := [], replies := [], notices := [], noticeLost := false
    linkError := false, errorCause := none, transmitting := none, entering := false
    resetting := false }

/-! ### The part and the machine -/

/-- The part: its ten blocks and the part time. -/
structure Part where
  time : PartTime
  mem : MemCtl
  store : Store
  bank : Bank
  lang : LangTable
  ann : Announcer
  strings : Vector StringRec 4
  seats : Vector Seat 96
  level : LevelUnit
  supply : Supply
  light : Light
  link : Link
  deriving DecidableEq, Repr

/-- The part in its cold state: every block at its cold values (R2, R190), part time 0 (assumption 4). -/
def Part.cold : Part :=
  { time := 0, mem := MemCtl.cold, store := Store.cold, bank := Bank.cold, lang := LangTable.cold
    ann := Announcer.cold, strings := Vector.replicate 4 StringRec.cold
    seats := Vector.replicate 96 Seat.cold, level := LevelUnit.cold, supply := Supply.cold
    light := Light.cold, link := Link.cold }

/-- The machine: the bytes of clip memory that have been written, by rising address, the part, and the
queue of waiting commands. -/
structure State where
  dram : List Host.Cell
  part : Part
  pending : List Instr
  deriving DecidableEq, Repr

/-- The machine right after reset: the cold reset pin asserted, every block at its cold values,
nothing written in clip memory, no command waiting. -/
def State.reset : State := { dram := [], part := Part.cold, pending := [] }

end Sys2Proof.Machine
end

