-- ==== Sys2Proof/Machine/Ops.lean ====
section
/-! DEFINITION. The named operations of the model: fixed arrays, sparse tables, clip memory bytes, the
Free List's runs, part time, the encoding of message fields (R191, R192), notices (R182), and the Link
Port's slots, replies and transmitter (R178 to R183). -/

namespace Sys2Proof.Machine

/-! ### Fixed arrays -/

/-- The record at an index. -/
def vget {α : Type} {n : Nat} (v : Vector α n) (i : Fin n) : α := v[i.val]'i.isLt

/-- The array with the record at an index replaced. -/
def vset {α : Type} {n : Nat} (v : Vector α n) (i : Fin n) (x : α) : Vector α n :=
  v.set i.val x i.isLt

/-- The array with every record replaced by a function of its index and itself. -/
def vmap {α : Type} {n : Nat} (f : Fin n → α → α) (v : Vector α n) : Vector α n :=
  Vector.ofFn fun i => f i (vget v i)

/-! ### Sparse tables: lists of numbered records by rising number -/

/-- The record listed under a number. -/
def tfind {α : Type} : List (Nat × α) → Nat → Option α
  | [], _ => none
  | (k, x) :: t, n => if n = k then some x else tfind t n

/-- The record of a number, `d` where none is listed. -/
def tget {α : Type} (d : α) (t : List (Nat × α)) (n : Nat) : α := (tfind t n).getD d

/-- The table with a record listed under a number. -/
def tput {α : Type} : List (Nat × α) → Nat → α → List (Nat × α)
  | [], n, x => [(n, x)]
  | (k, y) :: t, n, x =>
    if n < k then (n, x) :: (k, y) :: t
    else if n = k then (n, x) :: t
    else (k, y) :: tput t n x

/-- The table with nothing listed under a number. -/
def tdel {α : Type} : List (Nat × α) → Nat → List (Nat × α)
  | [], _ => []
  | (k, y) :: t, n => if n = k then tdel t n else (k, y) :: tdel t n

/-- The table with a number's record set, not listed when it is the record `d` of unlisted numbers. -/
def tset {α : Type} [DecidableEq α] (d : α) (t : List (Nat × α)) (n : Nat) (x : α) :
    List (Nat × α) :=
  if x = d then tdel t n else tput t n x

/-- The numbers listed rise strictly. -/
def tableSorted {α : Type} : List (Nat × α) → Bool
  | [] => true
  | [_] => true
  | (k, _) :: (k', y) :: t => decide (k < k') && tableSorted ((k', y) :: t)

/-! ### Clip memory -/

/-- The canonical form of clip memory: addresses strictly rising, all within the 256 MiB. No entry can
equal what an unlisted address reads as, since an unlisted address has no value (assumption 5). -/
def Memory.wf (m : List Host.Cell) : Bool :=
  tableSorted m && m.all fun c => decide (c.1 < Config.pages * Config.pageBytes)

/-- The byte at an address: none where nothing has been written. -/
def Memory.read (m : List Host.Cell) (address : Nat) : Option Byte := tfind m address

/-- Clip memory after the bytes are written from an address on; bytes beyond the device's last address
do not exist and are not written. -/
def Memory.write : List Host.Cell → Nat → Bytes → List Host.Cell
  | m, _, [] => m
  | m, a, b :: bs =>
    Memory.write (if a < Config.pages * Config.pageBytes then tput m a b else m) (a + 1) bs

/-- The `n` bytes from an address on, or the first address that nothing has written. -/
def Memory.readBytes (m : List Host.Cell) : Nat → Nat → Except Nat Bytes
  | _, 0 => .ok []
  | a, n + 1 =>
    match Memory.read m a with
    | none => .error a
    | some b =>
      match Memory.readBytes m (a + 1) n with
      | .error e => .error e
      | .ok bs => .ok (b :: bs)

/-- The address of a block of a page (00_scope.md, "Clip memory units"). -/
def blockAddress (page block : Nat) : Nat := page * Config.pageBytes + block * Config.blockBytes

/-! ### The Free List's runs (R20) -/

/-- The number of pages on the list. -/
def runsLength : List PageRun → Nat
  | [] => 0
  | r :: rs => r.count + runsLength rs

/-- The pages of the list in order: what the runs stand for. -/
def runsPages : List PageRun → List Nat
  | [] => []
  | r :: rs => List.range' r.start r.count ++ runsPages rs

/-- The head page and the list without it. -/
def runsPop : List PageRun → Option (Nat × List PageRun)
  | [] => none
  | r :: rs =>
    match r.count with
    | 0 => runsPop rs
    | 1 => some (r.start, rs)
    | n + 2 => some (r.start, ⟨r.start + 1, n + 1⟩ :: rs)

/-- The list with a page joined at its tail. -/
def runsPush : List PageRun → Nat → List PageRun
  | [], p => [⟨p, 1⟩]
  | [r], p => if r.start + r.count = p then [⟨r.start, r.count + 1⟩] else [r, ⟨p, 1⟩]
  | r :: r' :: rs, p => r :: runsPush (r' :: rs) p

/-- A page put into an ascending list of pages that holds each page at most once (R16). -/
def insertPage : List Nat → Nat → List Nat
  | [], p => [p]
  | q :: qs, p => if p < q then p :: q :: qs else if p = q then q :: qs else q :: insertPage qs p

/-! ### Part time (R1) -/

/-- R1: part time `a` is at or after part time `b`. -/
def atOrAfter (a b : PartTime) : Bool := decide ((a - b).toNat < 2147483648)

/-- Part time `t` lies between `start` and a later `now`, both included. -/
def within (start now t : PartTime) : Bool := decide ((t - start).toNat ≤ (now - start).toNat)

/-- The part time `ms` milliseconds after `t`. -/
def later (t : PartTime) (ms : Nat) : PartTime := t + BitVec.ofNat 32 ms

/-- The milliseconds from `now` to an end, 0 when the end has been reached. -/
def remaining (now d : PartTime) : Nat := if atOrAfter now d then 0 else (d - now).toNat

/-- Part time reaches a point: it stands at the point, or where it already was at or after it
(assumption 3). -/
def Part.reach (p : Part) (d : PartTime) : Part :=
  if atOrAfter p.time d then p else { p with time := d }

/-! ### Field encoding (R191) -/

/-- An unsigned field of one byte. -/
def e8 (n : Nat) : Bytes := [BitVec.ofNat 8 n]

/-- An unsigned field of two bytes, low byte first. -/
def e16 (n : Nat) : Bytes := [BitVec.ofNat 8 n, BitVec.ofNat 8 (n / 256)]

/-- An unsigned field of four bytes, low byte first. -/
def e32 (n : Nat) : Bytes :=
  [BitVec.ofNat 8 n, BitVec.ofNat 8 (n / 256), BitVec.ofNat 8 (n / 65536), BitVec.ofNat 8 (n / 16777216)]

/-- A signed field of one byte, two's complement. -/
def s8 (i : Int) : Bytes := [BitVec.ofInt 8 i]

/-- A flag field: 1 set, 0 clear (assumption 13). -/
def eFlag (b : Bool) : Bytes := [if b then 1 else 0]

/-- A one-byte field that may be absent: the sentinel is all ones. -/
def o8 : Option Nat → Bytes
  | none => [0xFF]
  | some n => e8 n

/-- A two-byte field that may be absent. -/
def o16 : Option Nat → Bytes
  | none => [0xFF, 0xFF]
  | some n => e16 n

/-- A four-byte field that may be absent. -/
def o32 : Option Nat → Bytes
  | none => [0xFF, 0xFF, 0xFF, 0xFF]
  | some n => e32 n

/-- A part time field. -/
def eTime (t : PartTime) : Bytes := e32 t.toNat

/-- A part time that may be absent: preceded by a presence byte. After a presence byte of 0 four bytes 0xFF stand in
its place (assumption 16). -/
def oTime : Option PartTime → Bytes
  | none => [0, 0xFF, 0xFF, 0xFF, 0xFF]
  | some t => 1 :: eTime t

/-- A field of `n` bytes whose value the request does not supply: its sentinel (R192). -/
def eAbsent (n : Nat) : Bytes := List.replicate n 0xFF

/-- A text field: its length, then its bytes (assumption 14). -/
def eText (t : Bytes) : Bytes := e8 t.length ++ t

/-- A text field whose value a reply does not have. R191 gives a text no sentinel; the model sends the length byte 0
and no characters (assumption 60). -/
def eNoText : Bytes := eText []

/-- A gain code field: 0xFF for MUTE. -/
def GainCode.byte : GainCode → Byte
  | .mute => 0xFF
  | .code n => BitVec.ofNat 8 n

/-- The status byte (R191: OK 0 to ABORTED 15). -/
def Status.byte : Status → Byte
  | .ok => 0 | .clamped => 1 | .merged => 2 | .full => 3 | .busy => 4 | .badLength => 5
  | .badKind => 6 | .badValue => 7 | .badTag => 8 | .notFound => 9 | .wrongState => 10
  | .wrongOffset => 11 | .referenced => 12 | .notReady => 13 | .inStandby => 14 | .aborted => 15

/-- The request kinds in the order of R180; their numbers are 1 to 37 (R192). -/
def Kind.all : List Kind :=
  [.clipOpen, .clipFill, .clipClose, .clipDrop, .clipDelete, .clipQuery, .storeQuery, .storeCheck,
    .langSet, .reelSet, .reelClear, .cue, .streamQuery,
    .setDefine, .setRemove, .announce, .announceCancel, .queueQuery,
    .stringSet, .seatSet, .seatQuery, .seatRelease,
    .speed, .levelSet,
    .supplySet, .supplyQuery, .supplyPeakClear,
    .zoneSet, .sceneSet, .sceneSelect, .lightcueSet, .deckQuery,
    .partIdent, .partStatus, .partReset, .standby, .wake]

/-- The kind byte of a request (R192). -/
def Kind.byte (k : Kind) : Byte := BitVec.ofNat 8 (Kind.all.idxOf k + 1)

/-- The request kind of a kind byte, none for 0 and 38 to 255 (R192). -/
def Kind.ofByte (b : Byte) : Option Kind := if b.toNat = 0 then none else Kind.all[b.toNat - 1]?

/-- The blocks that take requests (R180). -/
inductive Block where
  | clipStore | commentary | announcement | seatString | levelUnit | supply | lighting | linkPort
  deriving DecidableEq, Repr

/-- The block that owns a request kind (R180). -/
def Kind.owner : Kind → Block
  | .clipOpen | .clipFill | .clipClose | .clipDrop | .clipDelete | .clipQuery | .storeQuery
  | .storeCheck => .clipStore
  | .langSet | .reelSet | .reelClear | .cue | .streamQuery => .commentary
  | .setDefine | .setRemove | .announce | .announceCancel | .queueQuery => .announcement
  | .stringSet | .seatSet | .seatQuery | .seatRelease => .seatString
  | .speed | .levelSet => .levelUnit
  | .supplySet | .supplyQuery | .supplyPeakClear => .supply
  | .zoneSet | .sceneSet | .sceneSelect | .lightcueSet | .deckQuery => .lighting
  | .partIdent | .partStatus | .partReset | .standby | .wake => .linkPort

/-- One byte taken into the check (R192): polynomial 0x1021, most significant bit first. -/
def checkByte (register : BitVec 16) (b : Byte) : BitVec 16 :=
  (List.range 8).foldl
    (fun c _ => if c.getMsbD 0 then (c <<< 1) ^^^ 0x1021#16 else c <<< 1)
    (register ^^^ ((b.zeroExtend 16) <<< 8))

/-- The check over bytes in the order sent (R192): initial value 0xFFFF. -/
def checkOf (bytes : Bytes) : BitVec 16 := bytes.foldl checkByte 0xFFFF#16

/-- The bytes of a frame that the check covers: length, kind, tag and body (R192). -/
def frameCovered (kind tag : Byte) (body : Bytes) : Bytes :=
  e16 body.length ++ kind :: tag :: body

/-- The check of a frame. -/
def frameCheck (kind tag : Byte) (body : Bytes) : BitVec 16 := checkOf (frameCovered kind tag body)

/-- A whole frame on the link (R192): sync, length, kind, tag, body, check. -/
def Frame.bytes (f : Frame) : Bytes :=
  0x5A :: frameCovered f.kind f.tag f.body ++ e16 (frameCheck f.kind f.tag f.body).toNat

/-! ### Notices (R182, R183, R193) -/

/-- The kind byte of a notice: 128 to 135 (R192). -/
def Notice.kind : Notice → Byte
  | .seat .. => 128 | .node .. => 129 | .stream .. => 130 | .announce .. => 131 | .clip .. => 132
  | .storeMemory .. => 133 | .storeCheck .. => 133 | .supply .. => 134 | .zone .. => 135

def SocketState.code : SocketState → Nat
  | .unpowered => 0 | .settling => 1 | .empty => 2 | .attached => 3 | .faulted => 4 | .lockedOut => 5

def FaultReason.code : FaultReason → Nat
  | .overcurrent => 0 | .leak => 1

def NodeState.code : NodeState → Nat
  | .unconfigured => 0 | .seeking => 1 | .online => 2 | .lost => 3

def StreamState.code : StreamState → Nat
  | .off => 0 | .idle => 1 | .playing => 2 | .suspended => 3 | .parked => 4

def StreamReason.code : StreamReason → Nat
  | .parked => 0 | .resumed => 1 | .superseded => 2 | .clipCut => 3 | .skippedAbsent => 4
  | .skippedRetiring => 5

def AnnEvent.code : AnnEvent → Nat
  | .started => 0 | .done => 1 | .cut => 2 | .dropped => 3

def AnnReason.code : AnnReason → Nat
  | .displaced => 0 | .expired => 1 | .cancelled => 2 | .standby => 3 | .reset => 4

def ClipEvent.code : ClipEvent → Nat
  | .readyToPlay => 0 | .faultAbandoned => 1 | .freed => 2

def MemoryState.code : MemoryState → Nat
  | .off => 0 | .initialising => 1 | .ready => 2 | .selfRefresh => 3

def Shed.code : Shed → Nat
  | .normal => 0 | .low => 1 | .critical => 2

def ZoneFault.code : ZoneFault → Nat
  | .ok => 0 | .openFault => 1 | .shortFault => 2

/-- The content bytes of a notice (R193). -/
def Notice.content : Notice → Bytes
  | .seat i state language volume reason =>
    e8 i.val ++ e8 state.code ++ e8 language.val ++ e8 volume ++ o8 (reason.map FaultReason.code)
  | .node i state => e8 i.val ++ e8 state.code
  | .stream language state reason => e8 language.val ++ e8 state.code ++ e8 reason.code
  | .announce set event reason => e8 set.val ++ e8 event.code ++ o8 (reason.map AnnReason.code)
  | .clip c event => e16 c.val ++ e8 event.code
  | .storeMemory old new => e8 0 ++ e8 old.code ++ e8 new.code ++ e32 0 ++ e32 0
  | .storeCheck batch failed tested withdrawn =>
    e8 1 ++ e8 batch ++ e8 failed ++ e32 tested ++ e32 withdrawn
  | .supply old new voltage current => e8 old.code ++ e8 new.code ++ o16 voltage ++ o16 current
  | .zone z fault => e8 z.val ++ e8 fault.code

/-- The body of a notice frame: part time, flags with NOTICE-LOST lowest, content (R193). -/
def QNotice.body (n : QNotice) (lost : Bool) : Bytes :=
  eTime n.time ++ eFlag lost ++ n.content.content

/-- R182: two notices that merge: SEAT or NODE for the same seat, ZONE for the same zone. -/
def Notice.merges : Notice → Notice → Bool
  | .seat a _ _ _ _, .seat b _ _ _ _ => decide (a = b)
  | .node a _, .node b _ => decide (a = b)
  | .zone a _, .zone b _ => decide (a = b)
  | _, _ => false

/-- R182: a notice merged into the queued notice of its seat or zone, which keeps its place. -/
def mergeNotice (n : QNotice) : List QNotice → Option (List QNotice)
  | [] => none
  | q :: qs =>
    if n.content.merges q.content then some (n :: qs) else (mergeNotice n qs).map (q :: ·)

/-- R182: a notice is merged, appended or dropped with NOTICE-LOST set. -/
def Link.enter (l : Link) (n : QNotice) : Link :=
  match mergeNotice n l.notices with
  | some ns => { l with notices := ns }
  | none =>
    if l.notices.length < 32 then { l with notices := l.notices ++ [n] }
    else { l with noticeLost := true }

/-- A block raises a notice at the present part time. During a warm reset none is raised (R187 step 4). -/
def Part.raise (c : Notice) (p : Part) : Part :=
  if p.link.resetting then p else { p with link := p.link.enter ⟨c, p.time⟩ }

/-! ### Slots, replies and the transmitter (R178 to R184) -/

/-- The part state (R184). -/
inductive PartState where
  | starting | running | standby | waking
  deriving DecidableEq, Repr

def PartState.code : PartState → Nat
  | .starting => 0 | .running => 1 | .standby => 2 | .waking => 3

/-- R184: the part state follows the memory state. -/
def Part.state (p : Part) : PartState :=
  match p.mem.state, p.mem.origin with
  | .off, _ => .starting
  | .initialising, .cold => .starting
  | .initialising, .wake => .waking
  | .ready, _ => .running
  | .selfRefresh, _ => .standby

/-- Whether the blocks run: the part is RUNNING and standby is not being entered. -/
def Part.active (p : Part) : Bool := decide (p.state = .running) && !p.link.entering

/-- R178: a frame is discarded as a frame error. -/
def Link.frameError (l : Link) (c : ErrorCause) : Link :=
  { l with
    receiver := .hunting
    linkError := true
    errorCause := if l.linkError then l.errorCause else some c }

/-- The replies in the refusal queue. -/
def Link.refusals (l : Link) : List Reply := l.replies.filter fun r => !r.fromSlot

/-- R179: a refusal, with a body of the status alone, waits in the refusal queue; with 8 waiting, the
frame is discarded as a frame error with cause OVERRUN. -/
def Link.refuse (l : Link) (kind tag : Byte) (s : Status) : Link :=
  if l.refusals.length < 8 then
    { l with replies := l.replies ++ [⟨kind, tag, [s.byte], false⟩] }
  else l.frameError .overrun

/-- R184: the answer to a kind that the part state does not admit. -/
def admission (st : PartState) (entering : Bool) (k : Kind) : Option Status :=
  match st with
  | .starting | .waking => if k = .partIdent ∨ k = .partStatus then none else some .notReady
  | .running =>
    if entering then
      if k = .partIdent ∨ k = .partStatus ∨ k = .partReset ∨ k = .wake then none else some .inStandby
    else none
  | .standby =>
    if k = .partIdent ∨ k = .partStatus ∨ k = .partReset ∨ k = .wake then none else some .inStandby

/-- R179: a well-formed frame is accepted into a free slot or refused, and the receiver returns to
HUNTING (R178). A request accepted while the Link
Port passes none to the blocks is held in its slot (R187 step 1). -/
def Part.accept (kind tag : Byte) (body : Bytes) (p : Part) : Part :=
  let l := { p.link with receiver := .hunting }
  if 4 ≤ l.slots.length then { p with link := l.refuse kind tag .full }
  else if tag = 0 ∨ (l.slots.any fun s => decide (s.tag = tag)) then
    { p with link := l.refuse kind tag .badTag }
  else
    match Kind.ofByte kind with
    | none => { p with link := l.refuse kind tag .badKind }
    | some k =>
      match admission p.state l.entering k with
      | some s => { p with link := l.refuse kind tag s }
      | none =>
        let progress := if l.resetting ∧ k.owner ≠ .linkPort then Progress.held else .intake
        { p with link := { l with slots := l.slots ++ [⟨k, tag, body, progress⟩] } }

/-- The slots with the progress of the request of a tag changed. -/
def setProgress (tag : Byte) (g : Progress) (slots : List Slot) : List Slot :=
  slots.map fun s => if s.tag = tag then { s with progress := g } else s

/-- R180: a reply becomes ready. Its slot stays occupied until the transmitter takes the reply. -/
def Link.answer (l : Link) (k : Kind) (tag : Byte) (body : Bytes) : Link :=
  { l with
    slots := setProgress tag .ready l.slots
    replies := l.replies ++ [⟨k.byte, tag, body, true⟩] }

/-- The block that owns a request hands its reply to the Link Port: status, then the reply's fields. -/
def Part.answer (k : Kind) (tag : Byte) (s : Status) (fields : Bytes) (p : Part) : Part :=
  { p with link := p.link.answer k tag (s.byte :: fields) }

/-- R181: the transmitter, when idle, takes the reply that became ready first, or else the notice at the
head of the queue, which carries NOTICE-LOST and clears it (R183). -/
def Link.pump (l : Link) : Link :=
  match l.transmitting with
  | some _ => l
  | none =>
    match l.replies with
    | r :: rs =>
      { l with
        transmitting := some ⟨r.kind, r.tag, r.body⟩
        replies := rs
        slots := if r.fromSlot then l.slots.filter (fun s => decide (s.tag ≠ r.tag)) else l.slots }
    | [] =>
      match l.notices with
      | n :: ns =>
        { l with
          transmitting := some ⟨n.content.kind, 0, n.body l.noticeLost⟩
          notices := ns
          noticeLost := false }
      | [] => l

/-- Whether the request of a slot keeps its block from taking the next one: taken and not answered. A
STORE-CHECK runs beside the Clip Store's intake (R21). -/
def Slot.blocks (b : Block) (s : Slot) : Bool :=
  decide (s.kind.owner = b) && decide (s.progress = .taken) && decide (s.kind ≠ .storeCheck)

/-- R21, R180: a request is next at its block: it waits in the intake ahead of the block's other requests,
and the block has answered the one before. The Link Port's own kinds too are taken one at a time, a PART-STATUS
that arrives while standby is being entered among them: it waits behind the taken STANDBY, which is answered as the
entry ends, so the report that standby is being entered (R184, R186) is never given as set (assumption 58). -/
def Link.next (l : Link) (k : Kind) (tag : Byte) (body : Bytes) : Bool :=
  !(l.slots.any (Slot.blocks k.owner)) &&
    match l.slots.find? fun s => decide (s.kind.owner = k.owner) && decide (s.progress = .intake) with
    | some s => decide (s = ⟨k, tag, body, .intake⟩)
    | none => false

/-- A request is in a slot and has not been answered. -/
def Link.pendingRequest (l : Link) (k : Kind) (tag : Byte) (body : Bytes) : Bool :=
  l.slots.any fun s =>
    decide (s.kind = k) && decide (s.tag = tag) && decide (s.body = body) &&
      decide (s.progress ≠ .ready)

/-- The step of a request: its block takes it whole when it is next at the block. A request that stands in
no slot first arrives as a well-formed frame (assumption 2). Nothing arrives while a cold reset is
asserted (R190). -/
def Part.request (k : Kind) (tag : Byte) (body : Bytes) (take : Part → Part) (p : Part) : Part :=
  if p.mem.state = .off then p
  else
    let q := if p.link.pendingRequest k tag body then p else p.accept k.byte tag body
    if q.link.next k tag body then
      take { q with link := { q.link with slots := setProgress tag .taken q.link.slots } }
    else q

/-! ### Records of the part -/

def Part.reader (p : Part) (r : ReaderId) : Reader := vget p.bank.readers r

def Part.setReader (p : Part) (r : ReaderId) (x : Reader) : Part :=
  { p with bank := { p.bank with readers := vset p.bank.readers r x } }

def Part.clip (p : Part) (c : ClipId) : Clip := tget Clip.empty p.store.clips c.val

def Part.setClip (p : Part) (c : ClipId) (x : Clip) : Part :=
  { p with store := { p.store with clips := tset Clip.empty p.store.clips c.val x } }

def Part.pageEntry (p : Part) (n : Nat) : PageEntry := tget PageEntry.empty p.store.pageMap n

def Part.setPage (p : Part) (n : Nat) (x : PageEntry) : Part :=
  { p with store := { p.store with pageMap := tset PageEntry.empty p.store.pageMap n x } }

def Part.language (p : Part) (l : Lang) : Language := vget p.lang.langs l

def Part.setLanguage (p : Part) (l : Lang) (x : Language) : Part :=
  { p with lang := { p.lang with langs := vset p.lang.langs l x } }

def Part.seat (p : Part) (i : SeatId) : Seat := vget p.seats i

def Part.setSeat (p : Part) (i : SeatId) (x : Seat) : Part := { p with seats := vset p.seats i x }

def Part.string (p : Part) (i : StringId) : StringRec := vget p.strings i

def Part.setString (p : Part) (i : StringId) (x : StringRec) : Part :=
  { p with strings := vset p.strings i x }

def Part.zone (p : Part) (z : ZoneId) : Zone := vget p.light.zones z

def Part.setZone (p : Part) (z : ZoneId) (x : Zone) : Part :=
  { p with light := { p.light with zones := vset p.light.zones z x } }

def Part.annSet (p : Part) (i : SetId) : AnnSet := vget p.ann.sets i

end Sys2Proof.Machine
end

