-- ==== Sys2Proof/Machine/Flags.lean ====
section
/-! DEFINITION. The derived conditions and computed values of the rules: clip quantities, averages,
gain codes, poll fields, judgements, the effective level of a zone and DECK-ALERT's conditions. -/

namespace Sys2Proof.Machine

/-! ### Clips (R18, R27, R37) -/

/-- R18: the fully written blocks: whole blocks while LOADING, all blocks once the clip is closed. R18 gives
none of a clip RETIRING with cause DROPPED; its partial last block is counted (assumption 41). -/
def Clip.writtenBlocks (c : Clip) : Nat :=
  match c.state with
  | .free | .loading => c.loaded / Config.blockBytes
  | .ready | .retiring =>
    (c.loaded + (Config.blockBytes - 1)) / Config.blockBytes

/-- R18: a clip is playable when READY, or LOADING with its fully written blocks at its threshold. -/
def Clip.playable (c : Clip) : Bool :=
  match c.state with
  | .ready => true
  | .loading => decide (c.threshold ≤ c.writtenBlocks)
  | .free | .retiring => false

/-- R37: the number of samples of a READY or RETIRING clip, one above its last sample. A LOADING clip has
no last sample. -/
def Clip.samples (c : Clip) : Option Nat :=
  match c.state with
  | .ready | .retiring => some (c.loaded / 2)
  | .free | .loading => none

/-- The position stands past the last sample of a clip that has one. -/
def Clip.pastEnd (c : Clip) (position : Nat) : Bool :=
  match c.samples with
  | some n => decide (n ≤ position)
  | none => false

/-- R73: the greatest phrase mark at or below a position, or 0. -/
def markAtOrBelow (marks : List Nat) (position : Nat) : Nat :=
  marks.foldl (fun m k => if k ≤ position then max m k else m) 0

/-- R69: the first phrase mark at or after a position. -/
def markAtOrAfter (marks : List Nat) (position : Nat) : Option Nat :=
  marks.find? fun k => decide (position ≤ k)

/-! ### Averages (R122, R151, R170) -/

/-- The old average plus the floor of the sample minus the old average, divided by `d`; the sample when
the average is absent. -/
def average (old : Option Nat) (sample d : Nat) : Nat :=
  match old with
  | none => sample
  | some a => ((a : Int) + ((sample : Int) - (a : Int)) / (d : Int)).toNat

/-! ### Levels (R136 to R146) -/

/-- R136: the noise term Gn. -/
def noiseTerm (speed : Nat) : Nat := min (speed / 4) 18

/-- R136: the safety condition. -/
def LevelUnit.safetyCondition (l : LevelUnit) : Bool :=
  decide (l.cls = some .safety) && (decide (l.phase = some .chime) || decide (l.phase = some .speech))

/-- R142: the base of a seat; none is MUTE. -/
def seatBase (l : LevelUnit) (volume : Nat) : Option Int :=
  if volume = 0 then (if l.safetyCondition then some l.safetyFloor else none)
  else if l.safetyCondition then some (max (4 * (volume : Int) - 60) l.safetyFloor)
  else some (4 * (volume : Int) - 60)

/-- R143, R146: a sum of levels held to a cap, less the shed reduction, held at -60, as a code. -/
def gainCode (sum cap : Int) (shed : Nat) : GainCode :=
  .code (max (min sum cap - (shed : Int)) (-60) + 60).toNat

/-- R142, R143: the code of an ATTACHED seat. -/
def seatCode (l : LevelUnit) (volume : Nat) (trim : Int) : GainCode :=
  match seatBase l volume with
  | none => .mute
  | some base => gainCode (base + trim + (noiseTerm l.speed : Int) + (l.lift : Int)) l.cap l.shed

/-- R146: the PA code. -/
def LevelUnit.paCodeNow (l : LevelUnit) : GainCode :=
  match l.phase with
  | none => .mute
  | some _ => gainCode (l.paBase + (noiseTerm l.speed : Int) + (l.lift : Int)) l.paCap l.shed

/-- R140: the shed reduction of a shed state. -/
def Shed.reduction : Shed → Nat
  | .normal => 0 | .low => 6 | .critical => 12

/-! ### Poll fields (R105, R117, R120) -/

/-- R105, R120: the socket power of the next poll. -/
def Seat.powerCommand (s : Seat) (shed : Shed) : Bool :=
  match s.node with
  | .online =>
    match s.socket.state with
    | .unpowered => decide (shed ≠ .critical)
    | .settling | .empty | .attached => true
    | .faulted | .lockedOut => false
  | .unconfigured | .seeking | .lost => false

/-- R105, R117: the LED mode of the next poll. -/
def Seat.ledMode (s : Seat) : Led :=
  match s.node with
  | .online =>
    match s.socket.state with
    | .attached => if s.volume = 0 then .off else .steady
    | .faulted => .slow
    | .lockedOut => .fast
    | .unpowered | .settling | .empty => .off
  | .unconfigured | .seeking | .lost => .off

/-- R105: the poll built for a seat. -/
def Seat.poll (s : Seat) (position : Nat) (shed : Shed) : Poll :=
  { position := position
    power := s.powerCommand shed
    led := s.ledMode
    slot := s.language
    gain := if s.node = .online then s.pending else .mute }

/-- R60: the seat counts in the audience of its language. -/
def Seat.counted (s : Seat) : Bool := decide (s.socket.state = .attached) && decide (s.node = .online)

/-! ### Socket current (R125) -/

/-- R125: the indication of an average. -/
def indicationOf (average : Nat) : Indication :=
  if average < 60 then .empty else if average ≤ 2400 then .headset else .leak

/-! ### Supply (R153 to R155) -/

/-- R153: the new voltage state; the first row that applies decides. -/
def judgeVoltage (state : Shed) (vLow vCrit average : Nat) : Shed :=
  match state with
  | .normal => if average < vCrit then .critical else if average < vLow then .low else .normal
  | .low =>
    if average < vCrit then .critical else if vLow + 500 ≤ average then .normal else .low
  | .critical =>
    if vLow + 500 ≤ average then .normal else if vCrit + 500 ≤ average then .low else .critical

/-- R154: whether the new current state is LOW. -/
def judgeCurrent (low : Bool) (budget average : Nat) : Bool :=
  if low then !decide (average + 1000 ≤ budget) else decide (budget < average)

/-- R155: the worse of the voltage state and the current state. -/
def worse (voltage : Shed) (currentLow : Bool) : Shed :=
  match voltage with
  | .critical => .critical
  | .low => .low
  | .normal => if currentLow then .low else .normal

/-! ### Lighting (R163, R169, R170) -/

/-- R163: the ceiling of GENERAL zones. -/
def Shed.ceiling : Shed → Nat
  | .normal => 100 | .low => 60 | .critical => 30

/-- R163 steps 1 and 2: the base under the active cue. -/
def Light.base (l : Light) (z : ZoneId) : Nat :=
  let base := vget (vget l.scenes l.active).levels z
  match l.activeCue with
  | none => base
  | some (c, _) =>
    match vget (vget l.cues c) z with
    | .none => base
    | .level x => max base x
    | .flash x _ => if (vget l.zones z).halves % 2 = 0 then x else 0

/-- R163 steps 3 to 5: a zone's effective level from the result of step 2. -/
def Zone.effective (zone : Zone) (shed : Shed) (base : Nat) : Nat :=
  if zone.enabled then
    match zone.fault with
    | .shortFault => 0
    | .openFault =>
      if zone.keep then (if zone.safety then max base zone.minimum else min base shed.ceiling) else 0
    | .ok => if zone.safety then max base zone.minimum else min base shed.ceiling
  else 0

/-- R163: the effective level of a zone. -/
def Light.effective (l : Light) (z : ZoneId) : Nat := (vget l.zones z).effective l.shed (l.base z)

/-- R165: the step interval in milliseconds: the active scene's fade time in tenths of a second. -/
def Light.stepInterval (l : Light) : Nat := (vget l.scenes l.active).fade

/-- R98: a SAFETY zone is in fault OPEN or SHORT. -/
def Light.safetyFault (l : Light) : Bool :=
  (List.finRange 8).any fun z => (vget l.zones z).safety && decide ((vget l.zones z).fault ≠ .ok)

/-- R150: a disabled zone and a zone in SHORT have no output. -/
def Zone.canLight (x : Zone) : Bool := x.enabled && decide (x.fault ≠ .shortFault)

/-- R166: the level at which a zone's output is driven: off while the part is not RUNNING or is entering
standby, and for a zone that is disabled or in SHORT (R150). -/
def Part.zoneOutput (p : Part) (z : ZoneId) : Nat :=
  if p.active && (p.zone z).canLight then (p.zone z).level else 0

/-- R98: the first condition of DECK-ALERT. -/
def Announcer.safetyPlaying (a : Announcer) : Bool :=
  match a.playing with
  | some r => decide (r.entry.cls = .safety)
  | none => false

end Sys2Proof.Machine
end

