-- ==== Sys2Proof/Machine/Levels.lean ====
section
/-! DEFINITION. Shared operations of the Level Unit: recomputing codes (R144, R146) and what its
neighbours tell it (R140). -/

namespace Sys2Proof.Machine

/-- R144: a seat's pending code from the inputs as they stand. -/
def Seat.recompute (l : LevelUnit) (trim : Int) (s : Seat) : Seat :=
  { s with
    pending := if s.socket.state = .attached then seatCode l s.volume trim else .mute }

/-- R144: one seat's pending code is recomputed. -/
def Part.recomputeSeat (i : SeatId) (p : Part) : Part :=
  p.setSeat i ((p.seat i).recompute p.level (p.language (p.seat i).language).trim)

/-- R144: every seat's pending code is recomputed. -/
def Part.recomputeSeats (p : Part) : Part :=
  { p with seats := vmap (fun _ s => s.recompute p.level (p.language s.language).trim) p.seats }

/-- R58, R141: the pending codes of the seats of one language are recomputed. -/
def Part.recomputeLanguage (l : Lang) (p : Part) : Part :=
  { p with
    seats := vmap
      (fun _ s => if s.language = l then s.recompute p.level (p.language l).trim else s) p.seats }

/-- R146: the PA code is recomputed. -/
def Part.recomputePa (p : Part) : Part :=
  { p with level := { p.level with paCode := p.level.paCodeNow } }

/-- R140: the announcement's class, phase and lift as told by the Announcement Controller; the seat codes
follow a change of the lift or the safety condition, the PA code one of the phase or the lift. -/
def Part.tellLevel (cls : Option SetClass) (phase : Option Phase) (lift : Nat) (p : Part) : Part :=
  let old := p.level
  let q := { p with level := { old with cls := cls, phase := phase, lift := lift } }
  let q :=
    if old.lift ≠ lift ∨ old.safetyCondition ≠ q.level.safetyCondition then q.recomputeSeats else q
  if old.phase ≠ phase ∨ old.lift ≠ lift then q.recomputePa else q

/-- R140: the shed state as told by the Supply Monitor. -/
def Part.tellLevelShed (s : Shed) (p : Part) : Part :=
  (Part.recomputeSeats { p with level := { p.level with shed := s.reduction } }).recomputePa

end Sys2Proof.Machine
end

