-- ==== Sys2Proof/Machine/Lights.lean ====
section
/-! DEFINITION. Shared operations of the Lighting Controller: targets and fades (R164, R165), light cues
(R167, R168) and fault changes (R171). -/

namespace Sys2Proof.Machine

/-- How a level follows its target (R164). -/
inductive Follow where
  | atOnce | fading
  deriving DecidableEq, Repr

/-- A zone's output is driven at a level from now on. The level it leaves, if the output was on, is kept with
the time of the change, for a sample whose on-phase the change ended (R150, R166; assumption 18). -/
def Zone.drive (z : Zone) (now : PartTime) (level : Nat) : Zone :=
  { z with
    level := level
    leftAt := if z.level = level ∨ z.level = 0 then z.leftAt else tput z.leftAt z.level now }

/-- R165: the level from which a zone follows a target: a SAFETY zone that stands below its minimum with a
target of at least 1 is first raised to it. -/
def Zone.raised (z : Zone) (target : Nat) : Nat :=
  if z.safety = true ∧ z.level < z.minimum ∧ 1 ≤ target then z.minimum else z.level

/-- R165: a fade starts toward a target. -/
def Zone.startFade (z : Zone) (now : PartTime) (interval target : Nat) : Zone :=
  let level := z.raised target
  { z.drive now (if interval = 0 then target else level) with
    target := target
    stepDue := if level = target ∨ interval = 0 then none else some (later now interval) }

/-- R164: a recomputed target and the way the level follows. A target the zone already has changes neither
the level nor a fade in progress, but for the raise of R165 (assumption 27). -/
def Zone.retarget (z : Zone) (now : PartTime) (interval : Nat) (how : Follow) (target : Nat) : Zone :=
  if target = z.target then
    let level := z.raised target
    { z.drive now level with stepDue := if level = target then none else z.stepDue }
  else
    match how with
    | .atOnce => { z.drive now target with target := target, stepDue := none }
    | .fading => z.startFade now interval target

/-- A zone goes dark at once: disabled (R172 step 3), or with a fault that gives the target 0 (R171 step 2,
R166; assumption 38). -/
def Zone.dark (x : Zone) (now : PartTime) : Zone := { x.drive now 0 with target := 0, stepDue := none }

/-- One zone's target is recomputed. -/
def Light.retargetZone (l : Light) (now : PartTime) (how : Follow) (z : ZoneId) : Light :=
  { l with
    zones := vset l.zones z
      ((vget l.zones z).retarget now l.stepInterval how (l.effective z)) }

/-- Every zone's target is recomputed. -/
def Light.retargetAll (l : Light) (now : PartTime) (how : Follow) : Light :=
  { l with zones := vmap (fun z x => x.retarget now l.stepInterval how (l.effective z)) l.zones }

/-- R164: every GENERAL zone's target is recomputed after a change of the shed state. -/
def Light.tellShed (l : Light) (now : PartTime) (s : Shed) : Light :=
  let l := { l with shed := s }
  { l with
    zones := vmap
      (fun z x => if x.safety then x else x.retarget now l.stepInterval .fading (l.effective z))
      l.zones }

/-- R167: a light cue begins; its flashes start in an on-half. -/
def Light.beginCue (l : Light) (now : PartTime) (c : Fin 16) : Light :=
  Light.retargetAll
    { l with activeCue := some (c, now), zones := vmap (fun _ x => { x with halves := 0 }) l.zones }
    now .atOnce

/-- R167: the active cue ends; pending half-boundaries are discarded. An end while no cue is active
changes nothing. -/
def Light.endCue (l : Light) (now : PartTime) : Light :=
  match l.activeCue with
  | none => l
  | some _ =>
    Light.retargetAll
      { l with activeCue := none, zones := vmap (fun _ x => { x with halves := 0 }) l.zones }
      now .fading

/-- R177: every zone comes up from its level toward its target, as at RUNNING. -/
def Light.comeUp (l : Light) (now : PartTime) : Light :=
  { l with zones := vmap (fun z x => x.startFade now l.stepInterval (l.effective z)) l.zones }

/-- R177: the run-time state cleared by a warm reset and by an entry to standby. -/
def Light.cleared (l : Light) : Light :=
  let l := { l with
    active := 0
    activeCue := none
    shed := .normal
    zones := vmap
      (fun _ x => { x with
        fault := .ok, average := none, averageLevel := none, openCount := 0, level := 0
        stepDue := none, halves := 0, leftAt := [] })
      l.zones }
  { l with zones := vmap (fun z x => { x with target := l.effective z }) l.zones }

def Part.beginCue (c : Fin 16) (p : Part) : Part := { p with light := p.light.beginCue p.time c }

def Part.endCue (p : Part) : Part := { p with light := p.light.endCue p.time }

end Sys2Proof.Machine
end

