-- ==== Sys2Proof/Machine/Holds.lean ====
section
/-! DEFINITION. Shared operations of the clip memory: the arbiter's requests (R5), page chains (R19), the
freeing of clips (R33) and holds (R32). -/

namespace Sys2Proof.Machine

/-! ### The arbiter's requests (R5) -/

/-- A ring client places its request; one placed while the memory is not READY is not taken. -/
def Part.placeRequest (client : Fin 16) (p : Part) : Part :=
  if p.mem.state = .ready then
    { p with mem := { p.mem with waiting := vset p.mem.waiting client true } }
  else p

/-- R5: a client withdraws its request. One in transfer runs to its end without a completion. -/
def Part.withdraw (client : Fin 16) (p : Part) : Part :=
  { p with mem := { p.mem with
      waiting := vset p.mem.waiting client false
      device := match p.mem.device with
        | .transfer c page block w => .transfer c page block (w || decide (c = client))
        | d => d } }

/-- Every ring client withdraws its request (R7, R8). -/
def Part.withdrawAll (p : Part) : Part :=
  { p with mem := { p.mem with
      waiting := Vector.replicate 16 false
      device := match p.mem.device with
        | .transfer c page block _ => .transfer c page block true
        | d => d } }

/-- A block transfer is in progress in the device. -/
def Device.busy : Device → Bool
  | .transfer _ _ _ _ => true
  | _ => false

/-! ### Pages (R19, R20, R24, R33) -/

/-- The pages met by following the next-page fields, `n` at most. -/
def chainPages (pageMap : List (Nat × PageEntry)) : Nat → Option Nat → List Nat
  | 0, _ => []
  | _ + 1, none => []
  | n + 1, some g => g :: chainPages pageMap n (tget PageEntry.empty pageMap g).next

/-- The page of an index of a chain, walked from its first page (R39); none when not yet chained. -/
def pageAt (pageMap : List (Nat × PageEntry)) : Nat → Option Nat → Option Nat
  | 0, g => g
  | _ + 1, none => none
  | n + 1, some g => pageAt pageMap n (tget PageEntry.empty pageMap g).next

/-- A page returns to the Free List tail and its entry becomes FREE. -/
def Part.freePage (n : Nat) (p : Part) : Part :=
  let q := p.setPage n PageEntry.empty
  { q with store := { q.store with freeList := runsPush q.store.freeList n } }

/-- R33: a clip's pages return to the Free List tail in chain order and its record returns to FREE. -/
def Part.clearClip (c : ClipId) (p : Part) : Part :=
  let x := p.clip c
  ((chainPages p.store.pageMap x.pageCount x.firstPage).foldl (fun q n => q.freePage n) p).setClip c
    Clip.empty

/-- R33: freeing a clip; CLIP FREED is raised when it was RETIRING. -/
def Part.freeClip (c : ClipId) (p : Part) : Part :=
  let q := p.clearClip c
  if (p.clip c).state = .retiring then q.raise (.clip c .freed) else q

/-- R24: the page at the Free List head is chained to a clip as its last page; nothing changes when the
list is empty. -/
def Part.allocPage (c : ClipId) (p : Part) : Part :=
  match runsPop p.store.freeList with
  | none => p
  | some (n, rest) =>
    let x := p.clip c
    let q := { p with store := { p.store with freeList := rest } }
    let q := q.setPage n ⟨.clip, some c, some x.pageCount, none⟩
    let q := match x.lastPage with
      | none => q
      | some g => q.setPage g { q.pageEntry g with next := some n }
    q.setClip c { x with
      firstPage := (match x.firstPage with | none => some n | some g => some g)
      lastPage := some n
      pageCount := x.pageCount + 1 }

/-! ### Holds (R32) -/

/-- R32: a take is granted when the clip is LOADING or READY with fewer than 15 holds. -/
def Clip.takeRefused (c : Clip) : Option RefuseCause :=
  match c.state with
  | .free => some .clipFree
  | .retiring => some .clipRetiring
  | .loading | .ready => if c.hold < 15 then none else some .holdLimit

/-- R32: a hold is added. -/
def Part.addHold (c : ClipId) (p : Part) : Part :=
  p.setClip c { p.clip c with hold := (p.clip c).hold + 1 }

/-- R32: a hold is released; a RETIRING clip whose count reaches 0 is freed. -/
def Part.releaseHold (c : ClipId) (p : Part) : Part :=
  let x := p.clip c
  let q := p.setClip c { x with hold := x.hold - 1 }
  if x.state = .retiring ∧ x.hold ≤ 1 then q.freeClip c else q

end Sys2Proof.Machine
end

