-- ==== Sys2Proof/Machine/Readers.lean ====
section
/-! DEFINITION. Shared operations of the Reader Bank: fetching (R40 to R42), starting and stopping (R38,
R39, R46, R47), the reports of the Clip Store to readers (R26, R27, R44, R45, R48), and the output of a
sample period (R43 to R46). -/

namespace Sys2Proof.Machine

/-- The ring client of a reader: its own number (R37). -/
def ringOf (r : ReaderId) : Fin 16 := ⟨r.val, by omega⟩

/-- The channel reader of a language. -/
def chan (l : Lang) : ReaderId := ⟨l.val, by omega⟩

/-- R42: the buffer holds 4 blocks, or the block that contains the clip's last sample. -/
def Reader.primed (x : Reader) (c : Clip) : Bool :=
  decide (4 ≤ x.buffer.length) ||
    match c.samples with
    | some n => decide ((n - 1) / Config.blockSamples < x.nextBlock) &&
        decide (x.nextBlock ≤ (n - 1) / Config.blockSamples + x.buffer.length)
    | none => false

/-- R42: a PRIMING reader becomes RUNNING when it is primed. -/
def Part.primeReader (r : ReaderId) (p : Part) : Part :=
  let x := p.reader r
  match x.clip with
  | none => p
  | some c =>
    if x.state = .priming ∧ x.primed (p.clip c) = true then p.setReader r { x with state := .running }
    else p

/-- R40: a reader places a read request for its next block when it may. -/
def Part.fetch (r : ReaderId) (p : Part) : Part :=
  let x := p.reader r
  match x.clip with
  | none => p
  | some c =>
    if x.state ≠ .idle ∧ x.wait = false ∧ x.outstanding = false ∧ x.buffer.length ≤ 6 ∧
        x.nextBlock < (p.clip c).writtenBlocks ∧ p.mem.state = .ready then
      let page := match x.page with
        | some g => some g
        | none => pageAt p.store.pageMap (x.nextBlock / Config.pageBlocks) (p.clip c).firstPage
      match page with
      | none => p
      | some g =>
        (p.setReader r { x with page := some g, outstanding := true }).placeRequest (ringOf r)
    else p

/-- A reader goes IDLE under its owner and withdraws its read; its hold is not touched. -/
def Part.clearReader (r : ReaderId) (p : Part) : Part :=
  (p.withdraw (ringOf r)).setReader r (Reader.idle (p.reader r).owner)

/-- R47: STOP with release. -/
def Part.stopRelease (r : ReaderId) (p : Part) : Part :=
  match (p.reader r).clip with
  | none => p
  | some c => (p.clearReader r).releaseHold c

/-- A report to the reader's present owner. -/
def Part.report (r : ReaderId) (k : ReportKind) (p : Part) : Part :=
  { p with bank := { p.bank with reports := p.bank.reports ++ [⟨r, (p.reader r).owner, k⟩] } }

/-- A reader ends on its own: IDLE, its hold released, then its report (R44, R46, R48). -/
def Part.endReader (r : ReaderId) (k : ReportKind) (p : Part) : Part :=
  (p.stopRelease r).report r k

/-- R46: SET-STOP; given to an IDLE reader it changes nothing (R38). -/
def Part.setStop (r : ReaderId) (point : Nat) (p : Part) : Part :=
  if (p.reader r).state = .idle then p
  else p.setReader r { p.reader r with stopPoint := some point }

/-- How a START obtains its hold (R39). -/
inductive HoldKind where
  | take | transfer
  deriving DecidableEq, Repr

/-- R32, R39: the hold of a START refused. A transfer is refused when the clip is RETIRING with cause
DROPPED. -/
def Clip.startRefused (c : Clip) (h : HoldKind) : Option RefuseCause :=
  match h with
  | .take => c.takeRefused
  | .transfer =>
    if c.state = .retiring ∧ c.cause = some .dropped then some .clipRetiring else none

/-- R39: the reader holds its clip and primes. -/
def Part.beginReader (r : ReaderId) (c : ClipId) (sample : Nat) (p : Part) : Part :=
  let x := p.clip c
  let next := sample / Config.blockSamples
  let q := p.setReader r
    { Reader.idle (p.reader r).owner with
      state := .priming
      clip := some c
      position := sample
      nextBlock := next
      page := pageAt p.store.pageMap (next / Config.pageBlocks) x.firstPage }
  if x.pastEnd sample then q.endReader r .completed
  else if x.state = .loading ∧ x.playable = false then
    q.setReader r { q.reader r with wait := true }
  else q.fetch r

/-- R38, R39: START. A reader that is not IDLE is first stopped with release. Outside RUNNING the START is
refused and the reader stays IDLE (R53; assumption 26). -/
def Part.startReader (r : ReaderId) (c : ClipId) (sample : Nat) (h : HoldKind) (p : Part) : Part :=
  if p.active = false then p
  else
    let p := p.stopRelease r
    match (p.clip c).startRefused h with
    | some cause =>
      (match h with
        | .take => p
        | .transfer => p.releaseHold c).report r (.refused cause)
    | none =>
      (match h with
        | .take => p.addHold c
        | .transfer => p).beginReader r c sample

/-! ### Reports of the Clip Store (R26, R27, R28, R30) -/

/-- The clip has become playable or has more fully written blocks. A current page that is absent is found
again (R41). -/
def Part.readerGrown (c : ClipId) (r : ReaderId) (p : Part) : Part :=
  let x := p.reader r
  if x.clip = some c then
    let k := p.clip c
    let x := { x with
      page := (match x.page with
        | some g => some g
        | none => pageAt p.store.pageMap (x.nextBlock / Config.pageBlocks) k.firstPage)
      wait := x.wait && !k.playable
      state := if x.state = .starved ∧ x.nextBlock < k.writtenBlocks then .running else x.state }
    (p.setReader r x).fetch r
  else p

/-- The clip has closed: a reader past its last sample ends, the others read on (R28, R42, R44, R45). -/
def Part.readerClosed (c : ClipId) (r : ReaderId) (p : Part) : Part :=
  if (p.reader r).clip = some c then
    if (p.clip c).pastEnd (p.reader r).position then p.endReader r .completed
    else (p.readerGrown c r).primeReader r
  else p

/-- R48: the clip is abandoned. -/
def Part.readerAbandoned (c : ClipId) (r : ReaderId) (p : Part) : Part :=
  if (p.reader r).clip = some c then p.endReader r .abandoned else p

/-- Every reader told in turn, in ascending reader number (assumption 40). -/
def Part.eachReader (f : ReaderId → Part → Part) (p : Part) : Part :=
  (List.finRange 14).foldl (fun q r => f r q) p

/-! ### Completion and output -/

/-- R41, R42: a reader's read completes with its 256 bytes. -/
def Part.readDone (r : ReaderId) (data : Bytes) (p : Part) : Part :=
  let x := p.reader r
  let page := if x.nextBlock % Config.pageBlocks = Config.pageBlocks - 1 then
      x.page.bind fun g => (p.pageEntry g).next
    else x.page
  let x := { x with
    buffer := x.buffer ++ [data]
    outstanding := false
    nextBlock := x.nextBlock + 1
    page := page }
  ((p.setReader r x).primeReader r).fetch r

/-- The sample at a place of a block, low byte first (00_scope.md, "Audio"). -/
def sampleOf (block : Bytes) (place : Nat) : BitVec 16 :=
  BitVec.ofNat 16 ((block.getD (2 * place) 0).toNat + 256 * (block.getD (2 * place + 1) 0).toNat)

/-- R46: the stop point ends the reader before it outputs; a last sample below the stop point lets the
reader complete instead. -/
def Reader.cutDue (x : Reader) (c : Clip) : Bool :=
  match x.stopPoint with
  | none => false
  | some s => decide (s ≤ x.position) && !(c.pastEnd s)

/-- R43, R45: a RUNNING reader outputs the buffered sample at its position; the block it passes leaves the
buffer, and the reader starves at the last fully written block of a LOADING clip. -/
def Part.outputSample (r : ReaderId) (p : Part) : BitVec 16 × Part :=
  let x := p.reader r
  match x.clip, x.buffer with
  | some c, block :: rest =>
    let sample := sampleOf block (x.position % Config.blockSamples)
    let left := (x.position + 1) % Config.blockSamples = 0
    let x := { x with position := x.position + 1, buffer := if left then rest else block :: rest }
    let k := p.clip c
    let starved := k.state = .loading ∧ x.buffer = [] ∧ x.nextBlock = k.writtenBlocks
    if starved then (sample, p.setReader r { x with state := .starved })
    else (sample, (p.setReader r x).fetch r)
  | _, _ => (0, p)

/-- R43 to R46: one sample period of a reader: the stop point, the clip's end, then the output. A reader
that outputs nothing gives silence. -/
def Part.samplePeriod (r : ReaderId) (p : Part) : BitVec 16 × Part :=
  let x := p.reader r
  match x.clip with
  | none => (0, p)
  | some c =>
    if x.cutDue (p.clip c) then (0, p.endReader r .cut)
    else if x.state = .running then
      if (p.clip c).pastEnd x.position then (0, p.endReader r .completed)
      else p.outputSample r
    else (0, p)

/-- The sample periods of a list of readers, in order. -/
def Part.samplePeriods : List ReaderId → Part → List (BitVec 16) × Part
  | [], p => ([], p)
  | r :: rs, p =>
    let (s, q) := p.samplePeriod r
    let (ss, q) := Part.samplePeriods rs q
    (s :: ss, q)

/-- R51, R52: the frame built from the 14 readers' samples. -/
def Part.busFrame (samples : List (BitVec 16)) (p : Part) : BusFrame :=
  let slots := (List.finRange 12).map fun l =>
    if p.bank.chimeRouting then samples.getD 13 0
    else if (p.language l).enabled then samples.getD l.val 0 else 0
  { samples := slots ++ [if p.bank.chimeRouting then samples.getD 13 0 else samples.getD 12 0]
    pa := p.level.paCode }

end Sys2Proof.Machine
end

