-- ==== Sys2Proof/Machine/Streams.lean ====
section
/-! DEFINITION. Shared operations of the Commentary Scheduler: starting and advancing entries (R70 to
R72), parking and unparking (R61, R62), the audience (R60), cues (R68, R69), suspension and resume (R73,
R75). -/

namespace Sys2Proof.Machine

/-- A STREAM notice with the stream's state as it stands (assumption 22). -/
def Part.streamNotice (l : Lang) (r : StreamReason) (p : Part) : Part :=
  p.raise (.stream l (p.language l).stream r)

/-- The Commentary Scheduler owns the language's channel reader. -/
def Part.ownsReader (p : Part) (l : Lang) : Bool :=
  decide ((p.reader (chan l)).owner = .commentary)

/-- R61, R59: the scheduler stops the channel reader with release when it owns it. -/
def Part.stopChannel (l : Lang) (p : Part) : Part :=
  if p.ownsReader l then p.stopRelease (chan l) else p

/-- A resume record that is present is dropped and its hold released. -/
def Part.dropResume (l : Lang) (p : Part) : Part :=
  match (p.language l).resume with
  | none => p
  | some r => (p.setLanguage l { p.language l with resume := none }).releaseHold r.clip

/-- R70: the CURRENT entry of a PLAYING stream is started when the scheduler owns the reader. -/
def Part.startEntry (l : Lang) (p : Part) : Part :=
  match (p.language l).current with
  | none => p
  | some e =>
    if p.ownsReader l then
      (p.setLanguage l { p.language l with current := some { e with started := true } }).startReader
        (chan l) e.clip 0 .take
    else p

/-- R72: the oldest WAITING entry of a stream becomes CURRENT, PLAYING and started; with none waiting the
stream becomes IDLE. -/
def Part.playNext (l : Lang) (p : Part) : Part :=
  let x := p.language l
  match x.waiting with
  | [] => p.setLanguage l { x with stream := .idle, current := none }
  | e :: rest =>
    (p.setLanguage l { x with stream := .playing, current := some e, waiting := rest }).startEntry l

/-- R61: a stream is parked. Only its newest WAITING entry is kept. -/
def Part.park (l : Lang) (p : Part) : Part :=
  let q := (p.stopChannel l).dropResume l
  let x := q.language l
  (q.setLanguage l { x with
    stream := .parked
    current := none
    waiting := x.waiting.drop (x.waiting.length - 1) }).streamNotice l .parked

/-- R62: a PARKED stream leaves PARKED. The notice is raised with the state so taken, before any report
of the reader's start (assumption 11). -/
def Part.unpark (l : Lang) (p : Part) : Part :=
  let x := p.language l
  match x.waiting with
  | [] => (p.setLanguage l { x with stream := .idle }).streamNotice l .resumed
  | _ :: _ =>
    if p.lang.hold then (p.setLanguage l { x with stream := .suspended }).streamNotice l .resumed
    else (p.playNext l).streamNotice l .resumed

/-- R60: join. -/
def Part.join (l : Lang) (p : Part) : Part :=
  let x := p.language l
  let q := p.setLanguage l { x with audience := x.audience + 1 }
  if x.audience = 0 ∧ x.stream = .parked then q.unpark l else q

/-- R60: leave. -/
def Part.leave (l : Lang) (p : Part) : Part :=
  let x := p.language l
  let q := p.setLanguage l { x with audience := x.audience - 1 }
  if x.audience ≤ 1 ∧ (x.stream = .idle ∨ x.stream = .playing ∨ x.stream = .suspended) then q.park l
  else q

/-- R60: move: the fall is applied before the rise. A move to the same language is not reported. -/
def Part.move (l m : Lang) (p : Part) : Part := if l = m then p else (p.leave l).join m

/-! ### Reader reports (R71) -/

/-- R71: a report of a channel reader to the Commentary Scheduler. It acts only on a CURRENT entry started
on the reader. -/
def Part.commentaryReport (l : Lang) (k : ReportKind) (p : Part) : Part :=
  let x := p.language l
  match x.current with
  | none => p
  | some e =>
    if e.started then
      let q := p.setLanguage l { x with current := none }
      let q := match k with
        | .completed | .cut | .abandoned => q
        | .refused .clipRetiring => q.streamNotice l .skippedRetiring
        | .refused .clipFree | .refused .holdLimit => q.streamNotice l .skippedAbsent
      if x.stream = .playing then q.playNext l else q
    else p

/-! ### Cues (R68, R69) -/

/-- R69: the CURRENT entry is ended by a jump: what becomes of the stream, and whether the entry was
removed at once. The stop point of a cut-pending entry stands while its reader is PRIMING too (assumption 42). -/
def Part.endCurrent (l : Lang) (p : Part) : Part × Bool :=
  let x := p.language l
  let r := p.reader (chan l)
  match x.current with
  | none => (p, false)
  | some e =>
    let removed := fun (q : Part) =>
      ((q.setLanguage l { q.language l with current := none }).streamNotice l .clipCut, true)
    if x.stream = .suspended then removed p
    else if r.state = .idle ∨ r.owner ≠ .commentary then removed p
    else if e.cut.isSome then (p, false)
    else if r.state = .priming then removed (p.stopRelease (chan l))
    else
      match markAtOrAfter (p.clip e.clip).marks r.position with
      | some m =>
        (((p.setStop (chan l) m).setLanguage l
          { x with current := some { e with cut := some m } }).streamNotice l .clipCut, false)
      | none => removed (p.stopRelease (chan l))

/-- R68: an IDLE stream goes on after an entry has been placed. -/
def Part.goOn (l : Lang) (p : Part) : Part :=
  if p.lang.hold then p.setLanguage l { p.language l with stream := .suspended }
  else p.playNext l

/-- R69: a jump entry is placed. -/
def Part.placeJump (l : Lang) (e : Entry) (p : Part) : Part :=
  let p := (p.setLanguage l { p.language l with waiting := [] }).dropResume l
  let (p, removed) := p.endCurrent l
  let p := p.setLanguage l { p.language l with waiting := [e] }
  match (p.language l).stream with
  | .idle => p.goOn l
  | .playing => if removed then p.playNext l else p
  | _ => p

/-- R68: the oldest WAITING entry is removed when 4 wait. -/
def Part.appendEntry (l : Lang) (e : Entry) (p : Part) : Part :=
  let x := p.language l
  let q := p.setLanguage l { x with
    waiting := if 3 ≤ x.waiting.length then x.waiting.drop 1 ++ [e] else x.waiting ++ [e] }
  if 3 ≤ x.waiting.length then q.streamNotice l .superseded else q

/-- R68: an entry made from the reel goes into the play list of an affected language. -/
def Part.placeEntry (n : Byte) (l : Lang) (p : Part) : Part :=
  let x := p.language l
  match tfind x.reel n.toNat with
  | none => p
  | some r =>
    let e : Entry := ⟨n, r.clip, r.jump, none, false⟩
    if x.stream = .parked then p.setLanguage l { x with waiting := [e] }
    else if r.jump then p.placeJump l e
    else
      let q := if x.waiting.any (fun w => decide (w.cue = n)) then p else p.appendEntry l e
      if x.stream = .idle then q.goOn l else q

/-- R67: a language is affected by a cue: enabled, with an entry in its reel. -/
def Language.affected (x : Language) (n : Byte) : Bool := x.enabled && (tfind x.reel n.toNat).isSome

/-! ### Suspension and resume (R49, R73, R75) -/

/-- R49, R73: a channel reader changes owner at the take. One that is not IDLE is handed over: its hold
goes to the language's resume record. -/
def Part.handOver (l : Lang) (p : Part) : Part :=
  let x := p.reader (chan l)
  let q := match x.clip with
    | none => p
    | some c =>
      (p.clearReader (chan l)).setLanguage l { p.language l with
        resume := some ⟨c, markAtOrBelow (p.clip c).marks x.position⟩ }
  q.setReader (chan l) { q.reader (chan l) with owner := .announcement }

/-- R73: the suspend signal at one language. -/
def Part.suspendStream (l : Lang) (p : Part) : Part :=
  let x := p.language l
  if x.stream = .playing then
    match x.resume, x.current with
    | none, some e =>
      if e.started then p.setLanguage l { x with stream := .suspended }
      else
        let q := p.setLanguage l { x with
          stream := .suspended, current := none, waiting := (e :: x.waiting).take 3 }
        if 3 < (e :: x.waiting).length then q.streamNotice l .superseded else q
    | _, _ => p.setLanguage l { x with stream := .suspended }
  else p

/-- A function of each language in ascending order: stated for the resume signal (R75), chosen for the suspend signal
and the hand-back (R73, R50; assumption 56). -/
def Part.eachLanguage (f : Lang → Part → Part) (p : Part) : Part :=
  (List.finRange 12).foldl (fun q l => f l q) p

/-- The owner of a reader written. -/
def Part.setOwner (r : ReaderId) (o : Owner) (p : Part) : Part :=
  p.setReader r { p.reader r with owner := o }

/-- R49, R73: the Announcement Controller takes the readers; the streams are suspended. Readers already
owned by ANNOUNCEMENT change no owner, and no report or signal is given (R86). -/
def Part.takeReaders (p : Part) : Part :=
  if (p.reader 0).owner = .announcement then
    (p.setOwner 12 .announcement).setOwner 13 .announcement
  else
    let q := p.eachLanguage fun l q => q.handOver l
    let q := (q.setOwner 12 .announcement).setOwner 13 .announcement
    let q := { q with lang := { q.lang with hold := true } }
    q.eachLanguage fun l q => q.suspendStream l

/-- R50: the channel readers go back to COMMENTARY; one that is not IDLE is stopped with release. -/
def Part.handBack (p : Part) : Part :=
  p.eachLanguage fun l q => (q.stopRelease (chan l)).setOwner (chan l) .commentary

/-- R75: one SUSPENDED stream is taken up. -/
def Part.takeUp (l : Lang) (p : Part) : Part :=
  let x := p.language l
  if x.stream = .suspended then
    match x.resume with
    | some r =>
      let e := x.current.map fun e => { e with started := true }
      let q := p.setLanguage l { x with stream := .playing, current := e, resume := none }
      let q := q.startReader (chan l) r.clip r.sample .transfer
      let q := match e.bind Entry.cut with
        | some m => q.setStop (chan l) m
        | none => q
      q.streamNotice l .resumed
    | none => (p.playNext l).streamNotice l .resumed
  else p

/-- R75: the resume signal. -/
def Part.resumeSignal (p : Part) : Part :=
  Part.eachLanguage (fun l q => q.takeUp l) { p with lang := { p.lang with hold := false } }

end Sys2Proof.Machine
end

