-- ==== Sys2Proof/Machine/Announcing.lean ====
section
/-! DEFINITION. Shared operations of the Announcement Controller: DECK-ALERT (R98), the start rule and the
phases (R86 to R92), the cut and its reinsertion (R93, R94), the cancel (R96); and the taking of reader
reports by their owners (R71, R87, R89; assumption 11). -/

namespace Sys2Proof.Machine

/-- R98: DECK-ALERT is judged again from its two conditions. -/
def Part.judgeAlert (p : Part) : Part :=
  { p with ann := { p.ann with deckAlert := p.ann.safetyPlaying || p.ann.safetyFault } }

/-- R98: the zone report of the Lighting Controller reaches the Announcement Controller. -/
def Part.tellSafety (p : Part) : Part :=
  Part.judgeAlert { p with ann := { p.ann with safetyFault := p.light.safetyFault } }

/-- The Playing Record written. -/
def Part.setPlaying (r : Option Playing) (p : Part) : Part :=
  { p with ann := { p.ann with playing := r } }

/-- The Announcement Queue written. -/
def Part.setQueue (q : List QEntry) (p : Part) : Part := { p with ann := { p.ann with queue := q } }

/-- R99: an ANNOUNCE notice; DONE, CUT and DROPPED also write the last ending record. -/
def Part.annNotice (set : SetId) (event : AnnEvent) (reason : Option AnnReason) (p : Part) : Part :=
  let p := p.raise (.announce set event reason)
  match event with
  | .started => p
  | .done | .cut | .dropped =>
    { p with ann := { p.ann with last := some ⟨set, event, reason, p.time⟩ } }

/-- R97: the lift told in a phase. -/
def liftIn (s : AnnSet) : Phase → Nat
  | .chime | .speech => s.lift
  | .tail => 0

/-- R97: the Level Unit is told of the Playing Record as it stands. -/
def Part.tellPlaying (p : Part) : Part :=
  match p.ann.playing with
  | none => p.tellLevel none none 0
  | some r => p.tellLevel (some r.entry.cls) (some r.phase) (liftIn (p.annSet r.entry.set) r.phase)

/-! ### Repetitions (R87 to R89) -/

/-- The clip of a language item of a set. -/
def AnnSet.itemFor (s : AnnSet) (l : Lang) : Option ClipId :=
  (s.items.find? fun x => decide (x.1 = l)).map Prod.snd

/-- R88: the clip of a set for a language. -/
def AnnSet.chooseClip (s : AnnSet) (fallback : Option Lang) (l : Lang) : ClipId :=
  match s.itemFor l with
  | some c => c
  | none =>
    match fallback.bind s.itemFor with
    | some c => c
    | none => s.defaultClip

/-- The PA language, FOLLOW-DEFAULT resolved to the default language. -/
def LangTable.paLanguage (t : LangTable) : Lang := t.pa.getD t.default

/-- R88: the PA clip of a set. -/
def Part.choosePaClip (s : AnnSet) (p : Part) : ClipId :=
  match s.paClip with
  | some c => c
  | none => s.chooseClip (p.language p.lang.paLanguage).fallback p.lang.paLanguage

/-- The enabled languages, ascending. -/
def Part.enabledLanguages (p : Part) : List Lang :=
  (List.finRange 12).filter fun l => (p.language l).enabled

/-- R89: a repetition starts: each enabled language's channel reader, by rising language, and then the PA reader
on their clips (assumption 40). -/
def Part.startRepetition (p : Part) : Part :=
  match p.ann.playing with
  | none => p
  | some r =>
    let s := p.annSet r.entry.set
    let on := p.enabledLanguages
    let q := p.setPlaying (some { r with channels := on, paSpeaking := true })
    let q := on.foldl
      (fun q l => q.startReader (chan l) (s.chooseClip (p.language l).fallback l) 0 .take) q
    q.startReader 12 (p.choosePaClip s) 0 .take

/-- R87: chime routing written. -/
def Part.setRouting (b : Bool) (p : Part) : Part := { p with bank := { p.bank with chimeRouting := b } }

/-! ### Starts and ends (R86, R91, R92) -/

/-- R50: the PA and chime readers have no owner. -/
def Part.dropPaOwners (p : Part) : Part := (p.setOwner 12 .none).setOwner 13 .none

/-- R91, R92: the announcement in TAIL ends: its light cue, the PA and chime readers' owner, DONE, the
Playing Record. -/
def Part.closeTail (r : Playing) (p : Part) : Part :=
  ((p.endCue.dropPaOwners).annNotice r.entry.set .done none).setPlaying none

/-- R86: the head entry starts. -/
def Part.startHead (e : QEntry) (rest : List QEntry) (p : Part) : Part :=
  let s := p.annSet e.set
  -- R92: a tail is cut short
  let p := match p.ann.playing with
    | some r => p.closeTail r
    | none => p
  let phase := if s.chimeClip.isSome then Phase.chime else .speech
  let p := (p.setQueue rest).setPlaying
    (some ⟨e, phase, 1, [], false, s.chimeClip.isSome, none⟩)
  let p := (p.annNotice e.set .started none).takeReaders
  let p := match s.chimeClip with
    | some c => (p.setRouting true).startReader 13 c 0 .take
    | none => p.startRepetition
  let p := p.tellPlaying
  let p := match s.lightCue with
    | some c => p.beginCue c
    | none => p
  p.judgeAlert

/-- R86: the head entry is offered the start. -/
def Part.offerStart (p : Part) : Part :=
  match p.ann.queue with
  | [] => p
  | e :: rest =>
    if p.active then
      match p.ann.playing with
      | none => p.startHead e rest
      | some r => if r.phase = .tail ∧ e.cls = .safety then p.startHead e rest else p
    else p

/-- R91: the tail ends. -/
def Part.endTail (r : Playing) (p : Part) : Part :=
  (((p.closeTail r).tellPlaying).offerStart).judgeAlert

/-- R91: TAIL begins. A tail of 0 s ends at its start. -/
def Part.beginTail (r : Playing) (p : Part) : Part :=
  let tail := (p.annSet r.entry.set).tail
  let r := { r with
    phase := .tail, channels := [], paSpeaking := false, chimeSpeaking := false
    tailEnd := some (later p.time (1000 * tail)) }
  let p := ((p.handBack).resumeSignal).setPlaying (some r)
  let p := p.tellPlaying.judgeAlert
  if tail = 0 then p.endTail r else p.offerStart

/-- R89: the repetition ends when every part of it is removed; the next starts, or TAIL begins. -/
def Part.endRepetition (p : Part) : Part :=
  match p.ann.playing with
  | none => p
  | some r =>
    if r.phase = .speech ∧ r.channels = [] ∧ r.paSpeaking = false then
      if r.repetition < (p.annSet r.entry.set).repeats then
        (p.setPlaying (some { r with repetition := r.repetition + 1 })).startRepetition
      else p.beginTail r
    else p

/-- R87, R89: a report of a reader to the Announcement Controller. -/
def Part.announcementReport (reader : ReaderId) (p : Part) : Part :=
  match p.ann.playing with
  | none => p
  | some r =>
    match r.phase with
    | .chime =>
      if reader = 13 then
        ((((p.setRouting false).setPlaying
          (some { r with phase := .speech, chimeSpeaking := false })).tellPlaying).startRepetition)
      else p
    | .speech =>
      if reader = 12 then (p.setPlaying (some { r with paSpeaking := false })).endRepetition
      else
        (p.setPlaying
          (some { r with channels := r.channels.filter fun l => decide (chan l ≠ reader) })).endRepetition
    | .tail => p

/-- R90: a language has been disabled. -/
def Part.languageDisabled (l : Lang) (p : Part) : Part :=
  match p.ann.playing with
  | none => p
  | some r =>
    if r.phase = .speech ∧ l ∈ r.channels then
      ((p.stopRelease (chan l)).setPlaying
        (some { r with channels := r.channels.filter fun m => decide (m ≠ l) })).endRepetition
    else p

/-! ### Reader reports -/

/-- A report goes to the owner that the reader had when it made it. -/
def Part.takeReport (x : Report) (p : Part) : Part :=
  match x.owner with
  | .commentary => if h : x.reader.val < 12 then p.commentaryReport ⟨x.reader.val, h⟩ x.kind else p
  | .announcement => p.announcementReport x.reader
  | .none => p

/-- The waiting reports are taken in the order in which they were made (assumption 11). The bound is never
met: each report uses up a play-list entry or a part of a repetition of one of at most 9 announcements. At
the bound no report is left (assumption 36). -/
def Part.drain : Nat → Part → Part
  | 0, p => { p with bank := { p.bank with reports := [] } }
  | n + 1, p =>
    match p.bank.reports with
    | [] => p
    | x :: rest => Part.drain n (Part.takeReport x { p with bank := { p.bank with reports := rest } })

/-- The end of a command: the waiting reports are taken and an idle transmitter takes the next frame
(R181; assumption 28). -/
def Part.finish (p : Part) : Part :=
  let p := p.drain 1024
  { p with link := p.link.pump }

/-- A command that acts on the part alone. -/
def State.onPart (s : State) (f : Part → Part) : State := { s with part := (f s.part).finish }

/-! ### Queue rules (R81 to R84, R93, R94) -/

/-- The queue without the last entry that satisfies a test, and that entry. -/
def dropNewest (test : QEntry → Bool) : List QEntry → Option (QEntry × List QEntry)
  | [] => none
  | e :: rest =>
    match dropNewest test rest with
    | some (x, r) => some (x, e :: r)
    | none => if test e then some (e, rest) else none

/-- R83: the entry that makes room for an arriving class. -/
def makeRoom (cls : SetClass) (q : List QEntry) : Option (QEntry × List QEntry) :=
  match cls with
  | .safety => dropNewest (fun e => decide (e.cls ≠ .safety)) q
  | .stop => dropNewest (fun e => decide (e.cls = .service)) q
  | .service => none

/-- An entry put behind the safety group: an arriving SAFETY entry (R82), a reinserted entry (R94). -/
def behindSafety (e : QEntry) (q : List QEntry) : List QEntry :=
  q.takeWhile (fun x => decide (x.cls = .safety)) ++
    e :: q.dropWhile fun x => decide (x.cls = .safety)

/-- R82: an arriving entry is placed. -/
def placeArrival (e : QEntry) (q : List QEntry) : List QEntry :=
  match e.cls with
  | .safety => behindSafety e q
  | .stop | .service => q ++ [e]

/-- R94: a cut announcement's entry is reinserted, or dropped. -/
def Part.reinsert (e : QEntry) (p : Part) : Part :=
  let expired := match e.deadline with
    | some d => atOrAfter p.time d
    | none => false
  if expired then p.annNotice e.set .dropped (some .expired)
  else if p.ann.queue.length < 8 then p.setQueue (behindSafety e p.ann.queue)
  else
    match makeRoom .stop p.ann.queue with
    | some (x, rest) =>
      (p.annNotice x.set .dropped (some .displaced)).setQueue (behindSafety e rest)
    | none => p.annNotice e.set .dropped (some .displaced)

/-- R50: every reader owned by ANNOUNCEMENT that is not IDLE is stopped with release. -/
def Part.stopAnnouncementReaders (p : Part) : Part :=
  p.eachReader fun r q =>
    if (q.reader r).owner = .announcement then q.stopRelease r else q

/-- R93 steps 1 to 3: the announcement in progress is cut and reinserted. -/
def Part.cutPlaying (r : Playing) (p : Part) : Part :=
  let p := p.stopAnnouncementReaders.setRouting false
  let p := ((p.annNotice r.entry.set .cut none).endCue).setPlaying none
  p.reinsert r.entry

/-- R96: the playing announcement is cancelled. -/
def Part.cancelPlaying (r : Playing) (p : Part) : Part :=
  let p := match r.phase with
    | .chime | .speech =>
      (((p.stopAnnouncementReaders.setRouting false).handBack).dropPaOwners).resumeSignal
    | .tail => p.dropPaOwners
  let p := ((p.endCue).annNotice r.entry.set .dropped (some .cancelled)).setPlaying none
  (p.tellPlaying.judgeAlert).offerStart

end Sys2Proof.Machine
end

