-- ==== Sys2Proof/Machine/Operands.lean ====
section
/-! DEFINITION. The operand forms: how each request's body bytes are read into its fields (R191, R194),
and how a seat node's answer is read and checked (R106, R195). A reading of none is a body length that is
wrong for the request. -/

namespace Sys2Proof.Machine

/-! ### Fields -/

/-- The one-byte unsigned field at an offset. -/
def b8 (body : Bytes) (i : Nat) : Nat := (body.getD i 0).toNat

/-- The two-byte unsigned field at an offset, low byte first. -/
def b16 (body : Bytes) (i : Nat) : Nat := b8 body i + 256 * b8 body (i + 1)

/-- The four-byte unsigned field at an offset, low byte first. -/
def b32 (body : Bytes) (i : Nat) : Nat := b16 body i + 65536 * b16 body (i + 2)

/-- The one-byte signed field at an offset, two's complement. -/
def bs8 (body : Bytes) (i : Nat) : Int := (body.getD i 0).toInt

/-- An identifier in its range, none when out of range. -/
def ident (n : Nat) (x : Nat) : Option (Fin n) := if h : x < n then some ⟨x, h⟩ else none

/-- A field with the sentinel `s` for NONE: `none` when the field holds neither the sentinel nor an
identifier in range. -/
def identOrNone (n s x : Nat) : Option (Option (Fin n)) :=
  if x = s then some none else (ident n x).map some

/-- An enumerated field of two names: true for the second. -/
def oneOfTwo (x : Nat) : Option Bool :=
  match x with
  | 0 => some false
  | 1 => some true
  | _ => none

/-- The first two-byte field of a body long enough to hold it. -/
def named16 (body : Bytes) : Option Nat := if 2 ≤ body.length then some (b16 body 0) else none

/-- The first byte of a body long enough to hold it. -/
def named8 (body : Bytes) : Option Nat := if 1 ≤ body.length then some (b8 body 0) else none

/-- `count` fields of `size` bytes from an offset on, each read by `f`. -/
def items {α : Type} (f : Nat → α) (offset size count : Nat) : List α :=
  (List.range count).map fun i => f (offset + size * i)

/-- A number clamped to a range. -/
def clampNat (low high x : Nat) : Nat := max low (min high x)

/-- A signed number clamped to a range. -/
def clampInt (low high x : Int) : Int := max low (min high x)

/-- OK, or CLAMPED when something was clamped. -/
def clampStatus (clamped : Bool) : Status := if clamped then .clamped else .ok

/-! ### Clip Store -/

/-- CLIP-OPEN (R22): clip id (2), declared length (4), threshold (2), mark count (1), marks (4 each). -/
structure OpenReq where
  clip : Nat
  declared : Nat
  threshold : Nat
  marks : List Nat
  deriving DecidableEq, Repr

def readOpen (body : Bytes) : Option OpenReq :=
  let n := b8 body 8
  if 9 ≤ body.length ∧ n ≤ 16 ∧ body.length = 9 + 4 * n then
    some ⟨b16 body 0, b32 body 2, b16 body 6, items (b32 body) 9 4 n⟩
  else none

/-- CLIP-FILL (R23, R194): clip id (2), offset (4), data. -/
structure FillReq where
  clip : Nat
  offset : Nat
  data : Bytes
  deriving DecidableEq, Repr

/-- The data length test of R23: even, 2 to 1,024. -/
def readFill (body : Bytes) : Option FillReq :=
  let data := body.drop 6
  if data.length % 2 = 0 ∧ 2 ≤ data.length ∧ data.length ≤ 1024 then
    some ⟨b16 body 0, b32 body 2, data⟩
  else none

/-- A body of one clip id (R28, R29, R31, R35), or of one page number (R17). -/
def readWord (body : Bytes) : Option Nat := if body.length = 2 then some (b16 body 0) else none

/-- A body of one byte. -/
def readByte (body : Bytes) : Option Nat := if body.length = 1 then some (b8 body 0) else none

/-! ### Commentary Scheduler -/

/-- LANG-SET (R57): language, enable setting, tag length, tag, fallback, trim, default setting, PA setting. -/
structure LangReq where
  lang : Nat
  enable : Nat
  tag : Bytes
  fallback : Nat
  trim : Int
  default : Nat
  pa : Nat
  deriving DecidableEq, Repr

def readLang (body : Bytes) : Option LangReq :=
  let n := b8 body 2
  if 3 ≤ body.length ∧ 1 ≤ n ∧ n ≤ 8 ∧ body.length = 7 + n then
    some ⟨b8 body 0, b8 body 1, (body.drop 3).take n, b8 body (3 + n), bs8 body (4 + n),
      b8 body (5 + n), b8 body (6 + n)⟩
  else none

/-- An item of REEL-SET (R64): cue number, clip id or NONE (2), jump flag. -/
structure ReelItem where
  cue : Nat
  clip : Nat
  jump : Nat
  deriving DecidableEq, Repr

/-- REEL-SET (R64): language, then 1 to 256 items. -/
structure ReelReq where
  lang : Nat
  items : List ReelItem
  deriving DecidableEq, Repr

def readReel (body : Bytes) : Option ReelReq :=
  let n := (body.length - 1) / 4
  if body.length = 1 + 4 * n ∧ 1 ≤ n ∧ n ≤ 256 then
    some ⟨b8 body 0, items (fun i => ⟨b8 body i, b16 body (i + 1), b8 body (i + 3)⟩) 1 4 n⟩
  else none

/-! ### Announcement Controller -/

/-- SET-DEFINE (R79, R194). -/
structure SetReq where
  set : Nat
  cls : Nat
  defaultClip : Nat
  paClip : Nat
  chimeClip : Nat
  lightCue : Nat
  repeats : Nat
  expiry : Nat
  lift : Int
  tail : Nat
  items : List (Nat × Nat)
  deriving DecidableEq, Repr

def readSet (body : Bytes) : Option SetReq :=
  let n := b8 body 14
  if 15 ≤ body.length ∧ n ≤ 12 ∧ body.length = 15 + 3 * n then
    some ⟨b8 body 0, b8 body 1, b16 body 2, b16 body 4, b16 body 6, b8 body 8, b8 body 9,
      b16 body 10, bs8 body 12, b8 body 13, items (fun i => (b8 body i, b16 body (i + 1))) 15 3 n⟩
  else none

/-- The class of an enumerated byte (R78). -/
def classOf (x : Nat) : Option SetClass :=
  match x with
  | 0 => some .safety
  | 1 => some .stop
  | 2 => some .service
  | _ => none

/-! ### The other requests -/

/-- A body of exactly `n` bytes. -/
def readExact (n : Nat) (body : Bytes) : Option Bytes := if body.length = n then some body else none

/-- A signed field or KEEP, whose sentinel is -128 (R139, R191). -/
def keepInt (body : Bytes) (i : Nat) : Option Int := if bs8 body i = -128 then none else some (bs8 body i)

/-- An unsigned two-byte field or KEEP (R156, R191). -/
def keep16 (body : Bytes) (i : Nat) : Option Nat := if b16 body i = 65535 then none else some (b16 body i)

/-- An unsigned one-byte field or KEEP (R156, R191). -/
def keep8 (body : Bytes) (i : Nat) : Option Nat := if b8 body i = 255 then none else some (b8 body i)

/-- An item of LIGHTCUE-SET (R175): kind, level, half-period (2), stored as R175 clamps it, with whether
it was clamped; none for a kind not named. Every item has 4 bytes, of which its kind may use fewer; the kind NONE
is its place 0 in the list, and 0xFF is a kind not named (assumption 46). -/
def readCueItem (body : Bytes) (i : Nat) : Option (CueItem × Bool) :=
  let x := b8 body (i + 1)
  let half := b16 body (i + 2)
  let x' := min 100 x
  let half' := clampNat 250 2000 (half / 50 * 50)
  match b8 body i with
  | 0 => some (.none, false)
  | 1 => some (.level x', decide (x' ≠ x))
  | 2 => some (.flash x' half', decide (x' ≠ x) || decide (half' ≠ half))
  | _ => none

/-! ### Seat node answers (R106, R195) -/

/-- What a valid answer carries (R106). -/
structure Answer where
  counters : Counters
  sample : Nat
  deriving DecidableEq, Repr

/-- R106, R195: an answer is valid when its 7 bytes pass the check and carry the polled position. The
high four bits of byte 1 and the top two bits of the sample are ignored. -/
def readAnswer (position : Nat) (bytes : Bytes) : Option Answer :=
  if bytes.length = 7 ∧ checkOf (bytes.take 5) = BitVec.ofNat 16 (b16 bytes 5) ∧
      b8 bytes 0 = position then
    some ⟨⟨BitVec.ofNat 4 (b8 bytes 1), BitVec.ofNat 4 (b8 bytes 2),
      BitVec.ofNat 4 (b8 bytes 2 / 16)⟩, b16 bytes 3 % 16384⟩
  else none

/-- The bytes of a node's answer (R195). -/
def answerBytes (position : Nat) (a : Answer) : Bytes :=
  let covered := e8 position ++ e8 a.counters.lang.toNat ++
    e8 (a.counters.up.toNat + 16 * a.counters.down.toNat) ++ e16 a.sample
  covered ++ e16 (checkOf covered).toNat

/-- The LED mode's number in a poll (R195). -/
def Led.code : Led → Nat
  | .off => 0 | .steady => 1 | .slow => 2 | .fast => 3

/-- The bytes of a poll (R195). -/
def Poll.bytes (q : Poll) : Bytes :=
  let covered := e8 q.position ++ e8 ((if q.power then 1 else 0) + 2 * q.led.code) ++
    e8 q.slot.val ++ [q.gain.byte]
  covered ++ e16 (checkOf covered).toNat

/-- The bytes of a release poll (R111, R195): command 0 and gain code 0xFF. -/
def releasePollBytes (position : Nat) (slot : Lang) : Bytes :=
  (Poll.mk position false .off slot .mute).bytes

/-- The 27 bytes of an audio bus frame (R196). -/
def BusFrame.bytes (f : BusFrame) : Bytes :=
  (f.samples.flatMap fun s => e16 s.toNat) ++ [f.pa.byte]

end Sys2Proof.Machine
end

