-- ==== Sys2Proof/Machine/Announcements.lean ====
section
/-! DEFINITION. The meanings of the Announcement Controller's requests and events
(05_stop_and_safety_announcements.md). -/

namespace Sys2Proof.Machine

/-- The set that a body's first byte names. -/
def namedSet (body : Bytes) : Option SetId := (named8 body).bind (ident 64)

/-- A set's position in the queue, 0 for the head. -/
def queuePlace (i : SetId) (q : List QEntry) : Option Nat :=
  q.findIdx? fun e => decide (e.set = i)

/-- A set is in the Playing Record. -/
def Announcer.plays (a : Announcer) (i : SetId) : Bool :=
  match a.playing with
  | some r => decide (r.entry.set = i)
  | none => false

/-- A set is queued. -/
def Announcer.queued (a : Announcer) (i : SetId) : Bool := (queuePlace i a.queue).isSome

/-! ### SET-DEFINE and SET-REMOVE (R79, R80, R34) -/

/-- R78: the named clips of a set, in the set's order. -/
def AnnSet.namedClips (s : AnnSet) : List ClipId :=
  s.defaultClip :: s.items.map Prod.snd ++ s.paClip.toList ++ s.chimeClip.toList

/-- The clips whose references a set holds: none while it is undefined. -/
def AnnSet.references (s : AnnSet) : List ClipId := if s.defined then s.namedClips else []

/-- A language item in range. -/
def readItem (x : Nat × Nat) : Option (Lang × ClipId) :=
  match ident 12 x.1, ident 1024 x.2 with
  | some l, some c => some (l, c)
  | _, _ => none

/-- The language items, none when one is out of range. -/
def readItems : List (Nat × Nat) → Option (List (Lang × ClipId))
  | [] => some []
  | x :: rest =>
    match readItem x, readItems rest with
    | some i, some is => some (i :: is)
    | _, _ => none

/-- No language is given in two items. -/
def languagesDistinct : List (Lang × ClipId) → Bool
  | [] => true
  | x :: rest => !(rest.any fun y => decide (y.1 = x.1)) && languagesDistinct rest

/-- R79: the tail as stored: 255 selects the usual tail of 3 s. -/
def storedTail (x : Nat) : Nat := if x = 255 then 3 else min 10 x

/-- R79: whether a value of the request is clamped. -/
def SetReq.clamped (q : SetReq) : Bool :=
  decide (clampNat 1 3 q.repeats ≠ q.repeats) || decide (600 < q.expiry) ||
    decide (clampInt 0 12 q.lift ≠ q.lift) || (decide (10 < q.tail) && decide (q.tail ≠ 255))

/-- R79: the set record that the request writes; none for a BAD-VALUE. -/
def SetReq.record (q : SetReq) : Option (SetId × AnnSet) :=
  match ident 64 q.set, classOf q.cls, ident 1024 q.defaultClip, identOrNone 1024 0xFFFF q.paClip,
      identOrNone 1024 0xFFFF q.chimeClip, identOrNone 16 0xFF q.lightCue, readItems q.items with
  | some i, some cls, some d, some pa, some chime, some cue, some items =>
    if languagesDistinct items then
      some (i,
        { defined := true, cls := cls, defaultClip := d, items := items, paClip := pa
          chimeClip := chime, lightCue := cue, repeats := clampNat 1 3 q.repeats
          expiry := min 600 q.expiry, lift := (clampInt 0 12 q.lift).toNat
          tail := storedTail q.tail })
    else none
  | _, _, _, _, _, _, _ => none

/-- R34, R79: the set-reference count of a clip after the old contents' references are removed and the
new contents' are added. -/
def refsAfter (x : Clip) (c : ClipId) (old new : List ClipId) : Nat :=
  x.setRefs - old.count c + new.count c

/-- R34: a removal or an addition of one reference to each clip of a list. -/
def Part.addRefs (cs : List ClipId) (p : Part) : Part :=
  cs.foldl (fun q c => q.setClip c { q.clip c with setRefs := (q.clip c).setRefs + 1 }) p

def Part.dropRefs (cs : List ClipId) (p : Part) : Part :=
  cs.foldl (fun q c => q.setClip c { q.clip c with setRefs := (q.clip c).setRefs - 1 }) p

/-- R79: the outcome of SET-DEFINE: the record to write, or the refusal with the clip it names. -/
def Part.defineStatus (body : Bytes) (p : Part) :
    Except (Status × Option ClipId) (SetReq × SetId × AnnSet) :=
  match readSet body with
  | none => .error (.badLength, none)
  | some q =>
    match q.record with
    | none => .error (.badValue, none)
    | some (i, s) =>
      if p.ann.queued i || p.ann.plays i then .error (.wrongState, none)
      else
        match s.namedClips.find? fun c => decide ((p.clip c).state ≠ .ready) with
        | some c => .error (.wrongState, some c)
        | none =>
          let old := (p.annSet i).references
          match s.namedClips.find? fun c =>
              decide (64 < refsAfter (p.clip c) c old s.namedClips) with
          | some c => .error (.full, some c)
          | none => .ok (q, i, s)

/-- A set record written. -/
def Part.setAnnSet (i : SetId) (s : AnnSet) (p : Part) : Part :=
  { p with ann := { p.ann with sets := vset p.ann.sets i s } }

def Part.takeSetDefine (tag : Byte) (body : Bytes) (p : Part) : Part :=
  let fields := fun (c : Option ClipId) => o8 (named8 body) ++ o16 (c.map Fin.val)
  match p.defineStatus body with
  | .error (s, c) => p.answer .setDefine tag s (fields c)
  | .ok (q, i, s) =>
    let p := (p.dropRefs (p.annSet i).references).addRefs s.namedClips
    (p.setAnnSet i s).answer .setDefine tag (clampStatus q.clamped) (fields none)

/-- SET_DEFINE (R79). -/
def execSetDefine (tag : Byte) (body : Bytes) (s : State) : Host.Outcome State Fault Refusal :=
  .next (s.onPart (Part.request .setDefine tag body (Part.takeSetDefine tag body)))

/-- R80: the outcome of a request that names one set, before what the set holds is looked at. -/
def readSetId (body : Bytes) : Except Status SetId :=
  match readByte body with
  | none => .error .badLength
  | some n =>
    match ident 64 n with
    | none => .error .badValue
    | some i => .ok i

def Part.takeSetRemove (tag : Byte) (body : Bytes) (p : Part) : Part :=
  match readSetId body with
  | .error s => p.answer .setRemove tag s []
  | .ok i =>
    let s := p.annSet i
    if s.defined = false then p.answer .setRemove tag .notFound []
    else if p.ann.queued i || p.ann.plays i then p.answer .setRemove tag .wrongState []
    else ((p.dropRefs s.namedClips).setAnnSet i AnnSet.cold).answer .setRemove tag .ok []

/-- SET_REMOVE (R80). -/
def execSetRemove (tag : Byte) (body : Bytes) (s : State) : Host.Outcome State Fault Refusal :=
  .next (s.onPart (Part.request .setRemove tag body (Part.takeSetRemove tag body)))

/-! ### ANNOUNCE (R82, R83, R93) -/

/-- R191: the place of a set in an ANNOUNCE reply: STARTED, its queue position, or the sentinel. -/
def Announcer.place (a : Announcer) (i : SetId) : Byte :=
  if a.plays i then 0xFE
  else
    match queuePlace i a.queue with
    | some n => BitVec.ofNat 8 n
    | none => 0xFF

/-- R81: the entry of an ANNOUNCE taken now. -/
def Part.newEntry (i : SetId) (tag : Byte) (p : Part) : QEntry :=
  let s := p.annSet i
  { set := i, cls := s.cls, arrival := p.time
    deadline := if s.expiry = 0 then none else some (later p.time (1000 * s.expiry)), tag := tag }

/-- R82, R83: the entry is placed, room being made in a full queue; the set displaced, if any. None when
the request is refused FULL. -/
def Part.placeAnnouncement (e : QEntry) (p : Part) : Option (Part × Option SetId) :=
  if p.ann.queue.length < 8 then some (p.setQueue (placeArrival e p.ann.queue), none)
  else
    match makeRoom e.cls p.ann.queue with
    | none => none
    | some (x, rest) =>
      some ((p.annNotice x.set .dropped (some .displaced)).setQueue (placeArrival e rest), some x.set)

/-- R93: an announcement that an arriving SAFETY entry cuts: STOP or SERVICE, in CHIME or SPEECH. -/
def Playing.cutBy (r : Playing) (cls : SetClass) : Bool :=
  decide (cls = .safety) && decide (r.entry.cls ≠ .safety) && decide (r.phase ≠ .tail)

/-- R82 step 4, R93: the placed entry is offered the start, cutting the announcement in progress when it
may. -/
def Part.offerPlaced (e : QEntry) (p : Part) : Part :=
  match p.ann.playing with
  | some r => if r.cutBy e.cls then (p.cutPlaying r).offerStart else p.offerStart
  | none => p.offerStart

def Part.takeAnnounce (tag : Byte) (body : Bytes) (p : Part) : Part :=
  let reply := fun (s : Status) (place : Byte) (displaced : Option SetId) (p : Part) =>
    p.answer .announce tag s (o8 (named8 body) ++ [place] ++ o8 (displaced.map Fin.val))
  match readSetId body with
  | .error s => reply s 0xFF none p
  | .ok i =>
    if (p.annSet i).defined = false then reply .notFound 0xFF none p
    else if p.ann.queued i || p.ann.plays i then reply .merged (p.ann.place i) none p
    else
      let e := p.newEntry i tag
      match p.placeAnnouncement e with
      | none => reply .full 0xFF none p
      | some (q, displaced) =>
        let q := q.offerPlaced e
        reply .ok (q.ann.place i) displaced q

/-- ANNOUNCE (R82, R83, R86, R93, R94). -/
def execAnnounce (tag : Byte) (body : Bytes) (s : State) : Host.Outcome State Fault Refusal :=
  .next (s.onPart (Part.request .announce tag body (Part.takeAnnounce tag body)))

/-! ### ANNOUNCE-CANCEL (R95, R96) -/

/-- R191: the phase in an ANNOUNCE-CANCEL reply. -/
def Phase.byte : Phase → Byte
  | .chime => 0xF0 | .speech => 0xF1 | .tail => 0xF2

/-- A set's entry leaves the queue; a new head is offered the start (R84, R95). -/
def Part.removeEntry (i : SetId) (reason : AnnReason) (p : Part) : Part :=
  let wasHead := decide (queuePlace i p.ann.queue = some 0)
  let p := p.setQueue (p.ann.queue.filter fun e => decide (e.set ≠ i))
  let p := p.annNotice i .dropped (some reason)
  if wasHead then p.offerStart else p

def Part.takeAnnounceCancel (tag : Byte) (body : Bytes) (p : Part) : Part :=
  let reply := fun (s : Status) (place : Byte) (p : Part) =>
    p.answer .announceCancel tag s (o8 (named8 body) ++ [place])
  match readSetId body with
  | .error s => reply s 0xFF p
  | .ok i =>
    match queuePlace i p.ann.queue with
    | some n => reply .ok (BitVec.ofNat 8 n) (p.removeEntry i .cancelled)
    | none =>
      match p.ann.playing with
      | some r =>
        if r.entry.set = i then reply .ok r.phase.byte (p.cancelPlaying r)
        else reply .notFound 0xFF p
      | none => reply .notFound 0xFF p

/-- ANNOUNCE_CANCEL (R95, R96). -/
def execAnnounceCancel (tag : Byte) (body : Bytes) (s : State) : Host.Outcome State Fault Refusal :=
  .next (s.onPart (Part.request .announceCancel tag body (Part.takeAnnounceCancel tag body)))

/-! ### QUEUE-QUERY (R100) -/

def SetClass.code : SetClass → Nat
  | .safety => 0 | .stop => 1 | .service => 2

def Phase.code : Phase → Nat
  | .chime => 0 | .speech => 1 | .tail => 2

/-- A set of languages as bits, language 0 lowest (assumption 16). -/
def languageMask (ls : List Lang) : Nat := ls.foldl (fun n l => n + 2 ^ l.val) 0

/-- R100: the Playing Record, or empty: 11 bytes 0xFF, the two flags among them (assumption 55). -/
def Part.playingFields (p : Part) : Bytes :=
  match p.ann.playing with
  | none => eAbsent 11
  | some r =>
    e8 r.entry.set.val ++ e8 r.entry.cls.code ++ e8 r.phase.code ++ e8 r.repetition ++
      e8 (p.annSet r.entry.set).repeats ++ e16 (languageMask r.channels) ++ eFlag r.paSpeaking ++
      eFlag r.chimeSpeaking ++ o16 (r.tailEnd.map (remaining p.time))

/-- R100: a queue entry. -/
def QEntry.fields (e : QEntry) : Bytes :=
  e8 e.set.val ++ e8 e.cls.code ++ eTime e.arrival ++ oTime e.deadline ++ [e.tag]

/-- R100: the last ending record, or absent (assumption 55). -/
def lastFields : Option LastEnding → Bytes
  | none => eAbsent 3 ++ oTime none
  | some x =>
    e8 x.set.val ++ e8 x.event.code ++ o8 (x.reason.map AnnReason.code) ++ oTime (some x.time)

/-- R100: a set record with whether it is queued or playing. -/
def Part.setFields (i : SetId) (p : Part) : Bytes :=
  let s := p.annSet i
  eFlag s.defined ++ e8 s.cls.code ++ e16 s.defaultClip.val ++ e8 s.items.length ++
    (s.items.flatMap fun x => e8 x.1.val ++ e16 x.2.val) ++ o16 (s.paClip.map Fin.val) ++
    o16 (s.chimeClip.map Fin.val) ++ o8 (s.lightCue.map Fin.val) ++ e8 s.repeats ++ e16 s.expiry ++
    s8 s.lift ++ e8 s.tail ++ eFlag (p.ann.queued i) ++ eFlag (p.ann.plays i)

/-- R100: what the reply carries, with the named set's record when one is named. DECK-ALERT is a flag
(assumption 50). -/
def Part.queueFields (i : Option SetId) (p : Part) : Bytes :=
  eFlag p.ann.deckAlert ++ eFlag p.ann.safetyPlaying ++ eFlag p.ann.safetyFault ++
    p.playingFields ++ e8 p.ann.queue.length ++ p.ann.queue.flatMap QEntry.fields ++
    lastFields p.ann.last ++
    match i with
    | some i => p.setFields i
    | none => []

/-- R100 refused: sentinels and an empty queue. A refused query names no set, so the set's record, which the reply
carries only when a set is named, is left out and not sent at sentinels (assumption 59). -/
def absentQueueFields : Bytes := eAbsent 14 ++ e8 0 ++ eAbsent 3 ++ oTime none

def Part.takeQueueQuery (tag : Byte) (body : Bytes) (p : Part) : Part :=
  match readByte body with
  | none => p.answer .queueQuery tag .badLength absentQueueFields
  | some n =>
    match identOrNone 64 0xFF n with
    | none => p.answer .queueQuery tag .badValue absentQueueFields
    | some i => p.answer .queueQuery tag .ok (p.queueFields i)

/-- QUEUE_QUERY (R100). -/
def execQueueQuery (tag : Byte) (body : Bytes) (s : State) : Host.Outcome State Fault Refusal :=
  .next (s.onPart (Part.request .queueQuery tag body (Part.takeQueueQuery tag body)))

/-! ### Events (R84, R91) -/

/-- R84: part time reaches the deadline of a set's queued entry. -/
def Part.entryExpiry (i : SetId) (p : Part) : Part :=
  match (p.ann.queue.find? fun e => decide (e.set = i)).bind QEntry.deadline with
  | none => p
  | some d => (p.reach d).removeEntry i .expired

/-- ANNOUNCE_ENTRY_EXPIRY (R84). -/
def execAnnounceEntryExpiry (set : SetId) (s : State) : Host.Outcome State Fault Refusal :=
  .next (s.onPart (Part.entryExpiry set))

/-- R91: part time reaches the tail end. -/
def Part.tailEnds (p : Part) : Part :=
  match p.ann.playing with
  | none => p
  | some r =>
    match r.phase, r.tailEnd with
    | .tail, some d => (p.reach d).endTail r
    | _, _ => p

/-- TAIL_END (R91). -/
def execTailEnd (s : State) : Host.Outcome State Fault Refusal := .next (s.onPart Part.tailEnds)

end Sys2Proof.Machine
end

