-- ==== Sys2Proof/Machine/Judging.lean ====
section
/-! DEFINITION. Shared operations of the Supply Monitor and of lamp judgement: the converter's intervals
(R149), averages and judgements (R151 to R155), and the fault states of zones (R169 to R171). -/

namespace Sys2Proof.Machine

/-! ### The converter and the averages -/

/-- R149, R150: a new interval begins now, with zone index 0 and the conversion of that zone alone. -/
def Supply.start (s : Supply) (now : PartTime) : Supply :=
  { s with
    running := true, intervalStart := now, intervalLength := s.scan, zoneIndex := 0
    conversions := vmap (fun z _ => if z = 0 then some now else none) s.conversions }

/-- R159: the run-time state cleared by a warm reset and by an entry to standby. No rule gives the interval
start and the zone index a value at the entry to standby: with the interval length they hold what the abandoned
interval left, until the converter starts when the part enters RUNNING (assumption 57). Zone conversions under way
are abandoned, and give no sample (R149; assumption 18). -/
def Supply.cleared (s : Supply) : Supply :=
  { s with
    lastVoltage := none, lastCurrent := none, voltageAverage := none, currentAverage := none
    peak := 0, voltageState := .normal, currentLow := false, shed := .normal
    zoneSamples := Vector.replicate 8 none, conversions := Vector.replicate 8 none }

/-- R149: the half-way point of the interval in progress. -/
def Supply.halfWay (s : Supply) : PartTime := later s.intervalStart (s.intervalLength / 2)

/-- R149: the end of the interval in progress. -/
def Supply.intervalEnd (s : Supply) : PartTime := later s.intervalStart s.intervalLength

/-- R149, R151: a voltage sample, saturated, enters its average. -/
def Supply.takeVoltage (s : Supply) (mV : Nat) : Supply :=
  let v := min 40000 mV
  { s with lastVoltage := some v, voltageAverage := some (average s.voltageAverage v (2 ^ s.shift)) }

/-- R149, R151, R152: a deck current sample, saturated, enters its average and the peak. -/
def Supply.takeCurrent (s : Supply) (mA : Nat) : Supply :=
  let c := min 60000 mA
  { s with
    lastCurrent := some c
    currentAverage := some (average s.currentAverage c (2 ^ s.shift))
    peak := max s.peak c }

/-- R149: the zone of the interval that follows the one in progress. -/
def Supply.nextZone (s : Supply) : ZoneId := ⟨(s.zoneIndex.val + 1) % 8, by omega⟩

/-- R149, R150: the next interval begins as the one in progress ends, and with it the conversion of its zone. The
conversion of the interval that ends goes on while it has given no sample, for an on-phase that began within the
interval and outlasts it, unless the zone's output was off for the whole interval. An older one is over: an on-phase
ends with its PWM period of 5 ms, and an interval lasts 10 ms or more (R166; assumption 18). -/
def Supply.nextInterval (s : Supply) (lit : Bool) : Supply :=
  { s with
    intervalStart := s.intervalEnd, intervalLength := s.scan, zoneIndex := s.nextZone
    conversions := vmap
      (fun z c => if z = s.nextZone then some s.intervalEnd
        else if z = s.zoneIndex ∧ lit = true then c else none)
      s.conversions }

/-- R150: a zone conversion gives its sample, which is stored with its level. -/
def Supply.storeSample (s : Supply) (z : ZoneId) (x : ZoneSample) : Supply :=
  { s with zoneSamples := vset s.zoneSamples z (some x), conversions := vset s.conversions z none }

/-- R153: the voltage average is judged; none is made while it is unset. -/
def Supply.judgeVoltageNow (s : Supply) : Supply :=
  match s.voltageAverage with
  | none => s
  | some a => { s with voltageState := judgeVoltage s.voltageState s.vLow s.vCrit a }

/-- R154: the current average is judged; none is made while it is unset. -/
def Supply.judgeCurrentNow (s : Supply) : Supply :=
  match s.currentAverage with
  | none => s
  | some a => { s with currentLow := judgeCurrent s.currentLow s.budget a }

/-- R155: the shed state is found again; a change raises a SUPPLY notice and reaches the neighbours. -/
def Part.findShed (p : Part) : Part :=
  let new := worse p.supply.voltageState p.supply.currentLow
  let old := p.supply.shed
  if new = old then p
  else
    let p := { p with supply := { p.supply with shed := new } }
    let p := p.raise (.supply old new p.supply.voltageAverage p.supply.currentAverage)
    let p := p.tellLevelShed new
    { p with light := p.light.tellShed p.time new }

/-! ### Lamp judgement -/

/-- R171 step 2: a fault that turns the zone's output off: a SHORT, and an OPEN with preset OFF. -/
def Zone.faultDarkens (x : Zone) (f : ZoneFault) : Bool :=
  match f with
  | .shortFault => true
  | .openFault => !x.keep
  | .ok => false

/-- R171: a zone's fault state is set by judgement. An OPEN with preset KEEP leaves the target as it was, and
with it the level and a fade (R164). -/
def Part.setFault (z : ZoneId) (f : ZoneFault) (p : Part) : Part :=
  let p := p.setZone z { p.zone z with fault := f }
  let p := if (p.zone z).faultDarkens f then p.setZone z ((p.zone z).dark p.time)
    else { p with light := p.light.retargetZone p.time .fading z }
  let p := p.raise (.zone z f)
  if (p.zone z).safety then p.tellSafety else p

/-- R169: a sample above 250 % of nominal, without rounding. -/
def Zone.short (x : Zone) (mA : Nat) : Bool := decide (5 * x.nominal < 2 * mA)

/-- R170: the zone average after a sample at a level. -/
def Zone.nextAverage (x : Zone) (mA level : Nat) : Nat :=
  if x.averageLevel = some level then Machine.average x.average mA 2 else mA

/-- R170: the average is an OPEN judgement at a level. -/
def Zone.openJudged (x : Zone) (average level : Nat) : Bool :=
  decide (4 * average < x.nominal * level / 100)

/-- R169, R170: a zone sample is judged. -/
def Part.judgeZone (z : ZoneId) (mA level : Nat) (p : Part) : Part :=
  let x := p.zone z
  if x.enabled = false ∨ x.fault = .shortFault then p
  else if x.short mA then p.setFault z .shortFault
  else if level < 10 then p
  else
    let a := x.nextAverage mA level
    let count := if x.openJudged a level then min 2 (x.openCount + 1) else 0
    let p := p.setZone z { x with average := some a, averageLevel := some level, openCount := count }
    if count = 2 ∧ x.fault = .ok then p.setFault z .openFault else p

end Sys2Proof.Machine
end

