-- ==== Sys2Proof/Machine/Loading.lean ====
section
/-! DEFINITION. Shared operations of the Clip Store: the loader's writes (R25 to R28), the waiting fill
(R24), the memory check (R10 to R16) and the store's part of a reset (R36). -/

namespace Sys2Proof.Machine

/-- The loader's ring position (01_clip_memory.md, "The arbiter"). -/
def loaderClient : Fin 16 := 14

/-- The checker's ring position. -/
def checkerClient : Fin 16 := 15

/-- What the loader is doing written. -/
def Part.setJob (j : Job) (buffer : Bytes) (p : Part) : Part :=
  { p with store := { p.store with job := j, buffer := buffer } }

/-- The check record written. -/
def Part.setCheck (k : Check) (p : Part) : Part := { p with store := { p.store with check := k } }

/-! ### The loader -/

/-- The fields of a CLIP-FILL reply (R194): clip id and loaded length. -/
def Part.fillFields (c : ClipId) (p : Part) : Bytes := e16 c.val ++ e32 (p.clip c).loaded

/-- R25: the loader places the bytes that fall in the block of the loaded length in its buffer and asks
for the write; with no bytes left it answers the fill. -/
def Part.nextFillWrite (tag : Byte) (c : ClipId) (data : Bytes) (p : Part) : Part :=
  match data with
  | [] => (p.setJob .none []).answer .clipFill tag .ok (p.fillFields c)
  | _ :: _ =>
    let room := Config.blockBytes - (p.clip c).loaded % Config.blockBytes
    (p.setJob (.fillWrite tag c (data.drop room)) (data.take room)).placeRequest loaderClient

/-- R24: a fill needs a new page when its data would reach beyond the clip's chained pages. -/
def Clip.needsPage (x : Clip) (length : Nat) : Bool :=
  decide (Config.pageBytes * x.pageCount < x.loaded + length)

/-- R24, R25: a taken fill allocates its page, when it needs one, and begins its writes. -/
def Part.beginFill (tag : Byte) (c : ClipId) (data : Bytes) (p : Part) : Part :=
  let p := if (p.clip c).needsPage data.length then p.allocPage c else p
  p.nextFillWrite tag c data

/-- R26, R28: READY-TO-PLAY is raised once in a clip's life. -/
def Part.readyToPlay (c : ClipId) (p : Part) : Part :=
  let x := p.clip c
  if x.playable = true ∧ x.sent = false then
    (p.setClip c { x with sent := true }).raise (.clip c .readyToPlay)
  else p

/-- R25 to R27: a write of the loader to a LOADING clip has completed with a number of bytes. -/
def Part.loadedMore (c : ClipId) (n : Nat) (p : Part) : Part :=
  let x := p.clip c
  let q := p.setClip c { x with loaded := x.loaded + n }
  if x.writtenBlocks < (q.clip c).writtenBlocks then
    (q.readyToPlay c).eachReader fun r t => t.readerGrown c r
  else q

/-- R28 steps 2 to 6: the clip becomes READY and CLIP-CLOSE is answered. -/
def Part.finishClose (tag : Byte) (c : ClipId) (p : Part) : Part :=
  let x := p.clip c
  let marks := x.marks.filter fun m => decide (m < x.loaded / 2)
  let p := p.setClip c { x with marks := marks, state := .ready }
  let p := (p.readyToPlay c).eachReader fun r t => t.readerClosed c r
  (p.setJob .none []).answer .clipClose tag .ok (e32 x.loaded ++ e8 marks.length)

/-- R28 step 1: the close write's zero bytes. -/
def closeZeros (loaded : Nat) : Bytes :=
  List.replicate (Config.blockBytes - loaded % Config.blockBytes) 0

/-- The clip that the loader's write goes to. -/
def Job.clip : Job → Option ClipId
  | .fillWrite _ c _ => some c
  | .closeWrite _ c => some c
  | .none => Option.none
  | .fillWait _ _ _ => Option.none

/-! ### The memory check -/

/-- The fields of a STORE-CHECK reply (R10). -/
def Check.fields (k : Check) : Bytes := e32 k.target ++ e32 k.tested ++ e32 k.withdrawn

/-- The page under test: the first untested page of the batch (R12). -/
def Check.current (k : Check) : Option Nat :=
  (k.batch.find? fun b => decide (b.result = .untested)).map BatchPage.page

/-- The result of the page under test written. -/
def setResult (r : PageResult) : List BatchPage → List BatchPage
  | [] => []
  | b :: rest => if b.result = .untested then { b with result := r } :: rest
    else b :: setResult r rest

/-- The pages of a batch with a result, in batch order. -/
def Check.pagesWith (k : Check) (r : PageResult) : List Nat :=
  (k.batch.filter fun b => decide (b.result = r)).map BatchPage.page

/-- R13: the check ends with the reply OK. -/
def Part.endCheck (p : Part) : Part :=
  let k := p.store.check
  (p.setCheck { k with running := false }).answer .storeCheck k.tag .ok k.fields

/-- Pages taken from the Free List head, in list order. -/
def takePages : Nat → List PageRun → List Nat × List PageRun
  | 0, l => ([], l)
  | n + 1, l =>
    match runsPop l with
    | none => ([], l)
    | some (g, rest) =>
      let (gs, l') := takePages n rest
      (g :: gs, l')

/-- R11: a batch is formed, or the check ends when the Free List is empty. -/
def Part.formBatch (p : Part) : Part :=
  let k := p.store.check
  let free := runsLength p.store.freeList
  if free = 0 then p.endCheck
  else
    let (pages, rest) := takePages (min 16 (min free (k.target - k.tested))) p.store.freeList
    let p := { p with store := { p.store with freeList := rest } }
    let p := pages.foldl (fun q g => q.setPage g ⟨.check, none, none, none⟩) p
    (p.setCheck { k with batch := pages.map fun g => ⟨g, .untested⟩, made := 0 }).placeRequest
      checkerClient

/-- R13: the check ends when the tested count equals the target; otherwise the next batch is formed. -/
def Part.continueCheck (p : Part) : Part :=
  if p.store.check.target ≤ p.store.check.tested then p.endCheck else p.formBatch

/-- A page enters the Withdrawn Set (R13, R16). -/
def Part.withdrawPage (g : Nat) (p : Part) : Part :=
  let q := p.setPage g ⟨.withdrawn, none, none, none⟩
  { q with store := { q.store with withdrawnSet := insertPage q.store.withdrawnSet g } }

/-- A CLIP-FILL waits for a page. -/
def Job.waits : Job → Bool
  | .fillWait _ _ _ => true
  | _ => false

/-- R13: a batch ends. While a fill waits for a page, the next batch waits for it (assumption 20). -/
def Part.endBatch (p : Part) : Part :=
  let k := p.store.check
  let failed := k.pagesWith .failed
  let p := (k.pagesWith .passed).foldl (fun q g => q.freePage g) p
  let p := failed.foldl (fun q g => q.withdrawPage g) p
  let k' := { k with
    tested := k.tested + k.batch.length, withdrawn := k.withdrawn + failed.length
    batch := [], made := 0 }
  let p := p.setCheck k'
  let p := if failed = [] then p
    else p.raise (.storeCheck k.batch.length failed.length k'.tested k'.withdrawn)
  if p.store.job.waits then p else p.continueCheck

/-- R12: a page's transfers run 0..63: the first pattern written, read back, the second written, read
back, blocks 0 to 15 each. Whether transfer `made` is a write. -/
def checkWrites (made : Nat) : Bool := decide (made / 16 % 2 = 0)

/-- R12: a transfer of the checker has completed. -/
def Part.checkerDone (equal : Bool) (p : Part) : Part :=
  let k := p.store.check
  let k' :=
    if checkWrites k.made = false ∧ equal = false then
      { k with batch := setResult .failed k.batch, made := 0 }
    else if 63 ≤ k.made then { k with batch := setResult .passed k.batch, made := 0 }
    else { k with made := k.made + 1 }
  let p := p.setCheck k'
  match k'.current with
  | some _ => p.placeRequest checkerClient
  | none => p.endBatch

/-- R12: the 16-bit words of a check pattern over one block, low byte first. The second pattern is the
first with every bit inverted. -/
def patternBytes (page block : Nat) (second : Bool) : Bytes :=
  (List.range 128).flatMap fun w =>
    let x := Config.checkPattern page (128 * block + w)
    e16 (if second then ~~~x else x).toNat

/-- R15: a running check ends at a warm reset or an entry to standby. -/
def Part.abortCheck (s : Status) (p : Part) : Part :=
  let k := p.store.check
  if k.running then
    let failed := k.pagesWith .failed
    let returned := k.batch.filter fun b => decide (b.result ≠ .failed)
    let p := failed.foldl (fun q g => q.withdrawPage g) p
    let p := returned.foldl (fun q b => q.freePage b.page) p
    let k' := { k with
      running := false
      tested := k.tested + (failed.length + (k.pagesWith .passed).length)
      withdrawn := k.withdrawn + failed.length
      batch := []
      made := 0 }
    (p.setCheck k').answer .storeCheck k.tag s k'.fields
  else p

/-! ### Resets (R36) -/

/-- The status of the requests that a reset cuts off. -/
def ResetCause.status : ResetCause → Status
  | .warm => .aborted
  | .standby => .inStandby

/-- R36 steps 1 and 2: the loader stops and the hold counts of LOADING and READY clips become 0. -/
def Part.clearStore (p : Part) : Part :=
  { p with store := { p.store with
      job := .none
      buffer := []
      clips := p.store.clips.map fun c =>
        (c.1, match c.2.state with
          | .loading | .ready => { c.2 with hold := 0 }
          | .free | .retiring => c.2) } }

/-- R36 step 3: LOADING and RETIRING clips are freed by rising clip id, with no notice, and a running check
is ended. -/
def Part.finishClearing (p : Part) : Part :=
  match p.store.clearing with
  | none => p
  | some cause =>
    let q := p.store.clips.foldl
      (fun q c =>
        if h : c.1 < 1024 then
          if c.2.state = .loading ∨ c.2.state = .retiring then q.clearClip ⟨c.1, h⟩ else q
        else q) p
    let q := { q with store := { q.store with clearing := none } }
    q.abortCheck cause.status

end Sys2Proof.Machine
end

