-- ==== Sys2Proof/Machine/Seating.lean ====
section
/-! DEFINITION. Shared operations of the Seat String Controller: notices (R103, R131), rounds and exchanges
(R104, R105), populations (R110 to R112), acknowledgement (R109, R121), presses (R113 to R115), the socket
current (R122 to R127), node loss (R108, R129) and the resets (R118, R135). -/

namespace Sys2Proof.Machine

/-- The seat of a position on a string: string times 24 plus position. -/
def seatAt (i : StringId) (position : Nat) : Option SeatId :=
  if h : position < 24 then some ⟨24 * i.val + position, by omega⟩ else none

/-- The string of a seat. -/
def stringOf (i : SeatId) : StringId := ⟨i.val / 24, by omega⟩

/-- The position of a seat on its string. -/
def positionOf (i : SeatId) : Nat := i.val % 24

/-! ### Notices -/

/-- R131: the fault reason that a SEAT notice carries. -/
def Socket.noticeReason (k : Socket) : Option FaultReason :=
  match k.state with
  | .faulted | .lockedOut => k.fault.map FaultRecord.reason
  | .unpowered | .settling | .empty | .attached => none

/-- R131: a SEAT notice with the seat as it stands. -/
def Part.seatNotice (i : SeatId) (p : Part) : Part :=
  let s := p.seat i
  p.raise (.seat i s.socket.state s.language s.volume s.socket.noticeReason)

/-- R103: a NODE notice with the node state as it stands. -/
def Part.nodeNotice (i : SeatId) (p : Part) : Part := p.raise (.node i (p.seat i).node)

/-- The socket part of a seat written. -/
def Part.setSocket (i : SeatId) (k : Socket) (p : Part) : Part :=
  p.setSeat i { p.seat i with socket := k }

/-! ### Rounds and exchanges -/

/-- R105: the poll for the node at the round position is built and sent. While release polls go out the
exchange waits (R111). -/
def Part.beginExchange (i : StringId) (p : Part) : Part :=
  let x := p.string i
  match x.roundPosition.bind (seatAt i) with
  | none => p
  | some k =>
    if x.releasing = [] then
      let s := p.seat k
      let q := s.poll (positionOf k) p.supply.shed
      (p.setString i { x with exchange := true, lastPoll := some q }).setSeat k
        { s with carried := some (q.power, q.gain) }
    else p

/-- R104: a round begins. With population 0 it ends as it begins. -/
def Part.beginRound (i : StringId) (p : Part) : Part :=
  let x := p.string i
  if x.population = 0 then
    p.setString i { x with roundStart := p.time, roundPosition := none }
  else
    (p.setString i { x with roundStart := p.time, roundPosition := some 0 }).beginExchange i

/-- The part time at which the next round may begin (R104). -/
def StringRec.roundDue (x : StringRec) : PartTime := later x.roundStart 20

/-- R104: the round goes on at its position, or ends; a round that ends late is followed at once. -/
def Part.continueRound (i : StringId) (p : Part) : Part :=
  let x := p.string i
  match x.roundPosition with
  | none => p
  | some n =>
    if n < x.population then p.beginExchange i
    else
      let q := p.setString i { x with roundPosition := none }
      if atOrAfter p.time x.roundDue then q.beginRound i else q

/-! ### Node loss and populations -/

/-- R129: the socket part is told that its node is lost or unconfigured. A socket that was not UNPOWERED
raises its SEAT notice (assumption 23). -/
def Part.nodeDown (i : SeatId) (p : Part) : Part :=
  let s := p.seat i
  let k := s.socket
  if k.state = .lockedOut then p
  else
    let p := p.setSocket i { k with
      state := .unpowered, settleEnd := none, coolEnd := none, run := none, classifying := false }
    let p := if k.state = .attached then (p.leave s.language).recomputeSeat i else p
    if k.state = .unpowered then p else p.seatNotice i

/-- R111 steps 2 and 3: a seat is taken out of use. -/
def Part.unconfigure (i : SeatId) (p : Part) : Part :=
  let p := p.setSeat i { p.seat i with node := .unconfigured, missCount := 0, baselines := none }
  (p.nodeNotice i).nodeDown i

/-- R112: a seat is taken into use. -/
def Part.configure (i : SeatId) (p : Part) : Part :=
  (p.setSeat i { p.seat i with node := .seeking, missCount := 0, baselines := none }).nodeNotice i

/-- A function of the seats at positions `low` to `high - 1` of a string, ascending: stated for a lowered population
(R111), chosen for a raised one (R112; assumption 56). -/
def Part.eachPosition (i : StringId) (low high : Nat) (f : SeatId → Part → Part) (p : Part) : Part :=
  ((List.range' low (high - low)).filterMap (seatAt i)).foldl (fun q k => f k q) p

/-- R111, R112: a population is applied. The release polls of a lowered population begin to go out. -/
def Part.applyPopulation (i : StringId) (new : Nat) (p : Part) : Part :=
  let x := p.string i
  let old := x.population
  let p := p.setString i { x with
    population := new, pendingPopulation := none
    releasing := x.releasing ++ List.range' new (old - new) }
  if new < old then p.eachPosition i new old fun k q => q.unconfigure k
  else p.eachPosition i old new fun k q => q.configure k

/-- R110: the fields of STRING-SET's reply: the string, the population now in force, the number of seats
made UNCONFIGURED and the number made SEEKING. -/
def populationFields (i : StringId) (old new : Nat) : Bytes :=
  e8 i.val ++ e8 new ++ e8 (old - new) ++ e8 (new - old)

/-- The STRING-SET that waits for an exchange to end, of which the Seat String Controller has one at most. -/
def Link.waitingStringSet (l : Link) : Option Slot :=
  l.slots.find? fun s => decide (s.kind = .stringSet) && decide (s.progress = .taken)

/-- R110: a pending population is applied, and its STRING-SET is answered. -/
def Part.applyPending (i : StringId) (p : Part) : Part :=
  let x := p.string i
  match x.pendingPopulation with
  | none => p
  | some new =>
    let p := p.applyPopulation i new
    match p.link.waitingStringSet with
    | none => p
    | some s =>
      p.answer .stringSet s.tag (clampStatus (decide (24 < b8 s.body 1)))
        (populationFields i x.population new)

/-- R104: an exchange ends, after its answer or miss has been taken. -/
def Part.endExchange (i : StringId) (p : Part) : Part :=
  let x := p.string i
  let p := match x.roundPosition.bind (seatAt i) with
    | none => p
    | some k => p.setSeat k { p.seat k with carried := none }
  let p := Part.applyPending i (p.setString i { x with exchange := false })
  let x := p.string i
  Part.continueRound i (p.setString i { x with roundPosition := x.roundPosition.map (· + 1) })

/-! ### Acknowledgement and presses -/

/-- R121: the socket part of an acknowledgement. -/
def Part.acknowledgePower (i : SeatId) (power : Bool) (p : Part) : Part :=
  let k := (p.seat i).socket
  let k' := { k with ackOn := power }
  if power = true ∧ (k.state = .unpowered ∨
      (k.state = .settling ∧ k.settleEnd = none ∧ k.classifying = false)) then
    let q := p.setSocket i { k' with
      state := .settling, settleEnd := some (later p.time 400), classifying := false
      average := none, run := none, peak := 0 }
    if k.state = .settling then q else q.seatNotice i
  else p.setSocket i k'

/-- R109: the answer acknowledges the poll's gain code and socket power. -/
def Part.acknowledge (i : SeatId) (p : Part) : Part :=
  match (p.seat i).carried with
  | none => p
  | some (power, gain) =>
    (p.setSeat i { p.seat i with acknowledged := gain }).acknowledgePower i power

/-- The enabled language one step above a language, wrapping to the lowest (R114). -/
def Part.nextEnabled (p : Part) (l : Lang) : Lang :=
  let on := (List.finRange 12).filter fun m => (p.language m).enabled
  match on.find? fun m => decide (l < m) with
  | some m => m
  | none => on.headD l

/-- R114: `n` steps through the enabled languages. -/
def Part.stepLanguage (p : Part) : Nat → Lang → Lang
  | 0, l => l
  | n + 1, l => Part.stepLanguage p n (p.nextEnabled l)

/-- R114, R132: a seat's language becomes another; nothing happens when it is the same. -/
def Part.changeLanguage (i : SeatId) (l : Lang) (p : Part) : Part :=
  let s := p.seat i
  if s.language = l then p
  else
    let q := p.setSeat i { s with language := l }
    let q := if s.socket.state = .attached then q.move s.language l else q
    (q.recomputeSeat i).seatNotice i

/-- R115, R132: a seat's volume becomes another; nothing happens when it is the same. -/
def Part.changeVolume (i : SeatId) (v : Nat) (p : Part) : Part :=
  let s := p.seat i
  if s.volume = v then p
  else ((p.setSeat i { s with volume := v }).recomputeSeat i).seatNotice i

/-- The presses of a button: counter minus baseline, modulo 16 (R113). -/
def presses (counter baseline : BitVec 4) : Nat := (counter - baseline).toNat

/-- R115: the volume after up and down presses. -/
def pressedVolume (volume up down : Nat) : Nat :=
  (clampInt 0 15 ((volume : Int) + (up : Int) - (down : Int))).toNat

/-- R113: the presses of an answer are taken, language first. -/
def Part.takePresses (i : SeatId) (c : Counters) (p : Part) : Part :=
  let s := p.seat i
  let p := p.setSeat i { s with baselines := some c }
  match s.baselines with
  | none => p
  | some b =>
    let p := p.changeLanguage i (p.stepLanguage (presses c.lang b.lang) s.language)
    p.changeVolume i (pressedVolume s.volume (presses c.up b.up) (presses c.down b.down))

/-! ### Socket current -/

/-- R127 step 3: the fault history with a time appended. -/
def faultHistory (history : List PartTime) (t : PartTime) : List PartTime :=
  if 3 ≤ history.length then history.drop (history.length - 2) ++ [t] else history ++ [t]

/-- R127 step 4: three faults of which the newest is no more than 600,000 ms after the oldest. -/
def lockoutDue : List PartTime → Bool
  | [a, _, c] => decide ((c - a).toNat ≤ 600000)
  | _ => false

/-- R127: a socket faults. -/
def Part.socketFault (i : SeatId) (reason : FaultReason) (sample average : Nat) (p : Part) : Part :=
  let s := p.seat i
  let p := if s.socket.state = .attached then
      (p.leave s.language).setSeat i { s with pending := .mute }
    else p
  let history := faultHistory s.socket.history p.time
  let locked := lockoutDue history
  let p := p.setSocket i { s.socket with
    state := if locked then .lockedOut else .faulted
    fault := some ⟨reason, p.time, sample, average⟩
    history := history
    coolEnd := if locked then none else some (later p.time 30000)
    settleEnd := none
    run := none
    classifying := false }
  p.seatNotice i

/-- R125: the run after an indication. -/
def nextRun (run : Option (Indication × Nat)) (x : Indication) : Indication × Nat :=
  match run with
  | some (y, _) => if y = x then (x, 2) else (x, 1)
  | none => (x, 1)

/-- R125, R126: a run of 2 decides a socket that it finds in another state. -/
def Part.decideSocket (i : SeatId) (x : Indication) (sample : Nat) (p : Part) : Part :=
  let s := p.seat i
  let k := s.socket
  match x with
  | .leak => p.socketFault i .leak sample (k.average.getD 0)
  | .headset =>
    if k.state = .attached then p
    else
      let q := (p.setSocket i { k with state := .attached, run := none }).join s.language
      (q.recomputeSeat i).seatNotice i
  | .empty =>
    if k.state = .empty then p
    else
      let q := p.setSocket i { k with state := .empty, run := none }
      let q := if k.state = .attached then (q.leave s.language).recomputeSeat i else q
      q.seatNotice i

/-- R122: whether a socket takes a sample into its measurement. -/
def Socket.takes (k : Socket) : Bool :=
  match k.state with
  | .empty | .attached => true
  | .settling => k.ackOn
  | .unpowered | .faulted | .lockedOut => false

/-- R122, R123, R125: the sample of a valid answer. -/
def Part.takeSample (i : SeatId) (sample : Nat) (p : Part) : Part :=
  let k := { (p.seat i).socket with lastSample := sample }
  if k.takes then
    let k := { k with average := some (average k.average sample 4), peak := max k.peak sample }
    if 8000 ≤ sample then
      (p.setSocket i k).socketFault i .overcurrent sample (k.average.getD 0)
    else if k.classifying then
      let x := indicationOf (k.average.getD 0)
      let run := nextRun k.run x
      let q := p.setSocket i { k with run := some run }
      if run.2 = 2 then q.decideSocket i x sample else q
    else p.setSocket i k
  else p.setSocket i k

/-! ### Answers and misses -/

/-- R107: a valid answer is taken. -/
def Part.takeAnswer (i : SeatId) (a : Answer) (p : Part) : Part :=
  let s := p.seat i
  match s.node with
  | .online =>
    let p := (p.setSeat i { s with missCount := 0 }).acknowledge i
    (p.takePresses i a.counters).takeSample i a.sample
  | .seeking | .lost =>
    let p := p.setSeat i { s with node := .online, missCount := 0, baselines := some a.counters }
    ((p.nodeNotice i).acknowledge i).takeSample i a.sample
  | .unconfigured => p

/-- R108: an exchange that ended with a miss is taken. -/
def Part.takeMiss (i : SeatId) (p : Part) : Part :=
  let s := p.seat i
  match s.node with
  | .online =>
    if 2 ≤ s.missCount then
      ((p.setSeat i { s with node := .lost, missCount := 3 }).nodeNotice i).nodeDown i
    else p.setSeat i { s with missCount := s.missCount + 1 }
  | .seeking | .lost | .unconfigured => p

/-! ### Resets (R118, R135) -/

/-- R118, R135: a seat record after a warm reset or at an entry to standby. -/
def Seat.reset (s : Seat) (population position : Nat) : Seat :=
  { s with
    node := if position < population then .seeking else .unconfigured
    missCount := 0
    baselines := none
    pending := .mute
    acknowledged := .mute
    carried := none
    socket := Socket.cold }

/-- R118: the strings end their exchanges and rounds, apply their pending populations, and every seat
record is reset. The release polls of a lowered population go out (assumption 24). -/
def Part.resetStrings (p : Part) : Part :=
  let p := { p with
    strings := vmap
      (fun _ x =>
        let new := x.pendingPopulation.getD x.population
        { x with
          population := new
          pendingPopulation := none
          roundPosition := none
          exchange := false
          releasing := x.releasing ++ List.range' new (x.population - new) })
      p.strings }
  { p with
    seats := vmap (fun i s => s.reset (p.string (stringOf i)).population (positionOf i)) p.seats }

/-- R102, R118: each string begins a round at once. -/
def Part.beginRounds (p : Part) : Part :=
  (List.finRange 4).foldl (fun q i => q.beginRound i) p

end Sys2Proof.Machine
end

