-- ==== Sys2Proof/Machine/Resetting.lean ====
section
/-! DEFINITION. What a warm reset, an entry to standby and an entry to RUNNING do to the blocks (R7, R8,
R36, R53, R77, R101, R118, R135, R147, R159, R177, R187, R188). -/

namespace Sys2Proof.Machine

/-- R53: every reader takes its cold values and chime routing is cleared. The frame on the bus stands. -/
def Bank.cleared (b : Bank) : Bank :=
  { b with readers := Bank.idleReaders, chimeRouting := false, reports := [] }

/-- R77: one language's run-time state cleared. -/
def Language.cleared (x : Language) : Language :=
  { x with
    audience := 0, stream := if x.enabled then .parked else .off
    current := none, waiting := [], resume := none }

/-- R77: the table's run-time state cleared. -/
def LangTable.cleared (t : LangTable) : LangTable :=
  { t with langs := vmap (fun _ x => x.cleared) t.langs, hold := false }

/-- R101: the Playing Record and the queue are emptied and DECK-ALERT is deasserted. -/
def Announcer.cleared (a : Announcer) : Announcer :=
  { a with queue := [], playing := none, safetyFault := false, deckAlert := false }

/-- R147: the four limits are kept, the rest takes its cold values. -/
def LevelUnit.cleared (l : LevelUnit) : LevelUnit :=
  { LevelUnit.cold with
    cap := l.cap, safetyFloor := l.safetyFloor, paBase := l.paBase, paCap := l.paCap }

/-- The run-time state of the blocks is cleared, as a warm reset and an entry to standby clear it; the
Clip Store's pages and the memory check wait for the transfer in progress (R7, R8, R36 step 3). -/
def Part.clearBlocks (cause : ResetCause) (p : Part) : Part :=
  let p := p.clearStore.withdrawAll
  let p := { p with
    store := { p.store with clearing := some cause }
    bank := p.bank.cleared
    lang := p.lang.cleared
    ann := p.ann.cleared }
  let p := p.resetStrings
  { p with level := p.level.cleared, supply := p.supply.cleared, light := p.light.cleared }

/-- R36 step 3: done at once when no block transfer is in progress. -/
def Part.clearNow (p : Part) : Part := if p.mem.device.busy then p else p.finishClearing

/-- R187 step 2, R188 step 3: one request that its block holds without a ready reply is answered. The
STORE-CHECK of the running check is answered when the check ends (R15); one not yet taken has no counts to
report. The Link Port's own requests stay. -/
def Part.cutOff (s : Status) (x : Slot) (p : Part) : Part :=
  if x.kind.owner = .linkPort then p
  else
    match x.progress with
    | .held | .ready => p
    | .intake => p.answer x.kind x.tag s (if x.kind = .storeCheck then eAbsent 12 else [])
    | .taken => if x.kind = .storeCheck then p else p.answer x.kind x.tag s []

/-- The requests that the blocks hold are answered in the order of acceptance (assumption 12). -/
def Part.cutOffAll (s : Status) (p : Part) : Part :=
  p.link.slots.foldl (fun q x => q.cutOff s x) p

/-- The Link Port's request of a kind that has been taken and not answered. -/
def Link.takenRequest (l : Link) (k : Kind) : Option Slot :=
  l.slots.find? fun s => decide (s.kind = k) && decide (s.progress = .taken)

/-- The answer to the Link Port's taken request of a kind. -/
def Part.answerTaken (k : Kind) (s : Status) (p : Part) : Part :=
  match p.link.takenRequest k with
  | some x => p.answer k x.tag s []
  | none => p

/-- R101: the last ending record of a playing set that a warm reset ends. -/
def Part.recordReset (p : Part) : Part :=
  match p.ann.playing with
  | none => p
  | some r =>
    { p with ann := { p.ann with last := some ⟨r.entry.set, .dropped, some .reset, p.time⟩ } }

/-- R101: each announcement is dropped with a notice, the playing one first. -/
def Part.dropForStandby (p : Part) : Part :=
  let sets := (match p.ann.playing with
    | some r => [r.entry.set]
    | none => []) ++ p.ann.queue.map QEntry.set
  sets.foldl (fun q i => q.annNotice i .dropped (some .standby)) p

/-- R187 step 1 and step 6: whether the Link Port passes requests to the blocks. -/
def Part.setResetting (b : Bool) (p : Part) : Part := { p with link := { p.link with resetting := b } }

/-- R184, R188: whether standby is being entered. -/
def Part.setEntering (b : Bool) (p : Part) : Part := { p with link := { p.link with entering := b } }

/-- R187 step 4, R188 step 2: the notice queue is emptied and NOTICE-LOST cleared. -/
def Part.clearNotices (p : Part) : Part :=
  { p with link := { p.link with notices := [], noticeLost := false } }

/-- R187 step 6: the requests held since step 1 are passed to their blocks. -/
def releaseHeld (slots : List Slot) : List Slot :=
  slots.map fun s => if s.progress = .held then { s with progress := .intake } else s

/-- R149, R177, R118: what starts in RUNNING: the strings' rounds, the converter and the zones. -/
def Part.startRunning (p : Part) : Part :=
  let p := p.beginRounds
  { p with supply := p.supply.start p.time, light := p.light.comeUp p.time }

/-- R187 steps 1 and 2: a warm reset begins. Taken in WAKING it starts nothing, as in STANDBY (assumption 52). -/
def Part.beginWarmReset (p : Part) : Part :=
  let running := decide (p.state = .running)
  let p := ((p.setResetting true).cutOffAll .aborted).recordReset
  let p := p.clearBlocks .warm
  let p := { p with mem := { p.mem with ring := 15 } }
  let p := p.clearNow
  if running then p.startRunning else p

/-- R187 steps 3 to 6: the warm reset is complete. -/
def Part.endWarmReset (p : Part) : Part :=
  let p := (p.finishClearing.clearNotices).answerTaken .partReset .ok
  let p := { p with link := { p.link with slots := releaseHeld p.link.slots } }
  p.setResetting false

/-- R188 steps 1 to 3: standby is entered. -/
def Part.beginStandby (p : Part) : Part :=
  let p := ((p.setEntering true).clearNotices.cutOffAll .inStandby).dropForStandby
  let p := p.clearBlocks .standby
  let p := { p with supply := { p.supply with running := false } }
  p.clearNow

/-- R102, R118: a string becomes OFF and its line is unpowered. -/
def StringRec.switchOff (x : StringRec) : StringRec := { x with scanning := false, releasing := [] }

/-- R8, R54, R118, R188 steps 4 and 5: the memory is in SELF-REFRESH and the part in STANDBY. -/
def Part.completeStandby (p : Part) : Part :=
  let p := p.finishClearing
  let p := { p with mem := { p.mem with state := .selfRefresh } }
  let p := p.raise (.storeMemory .ready .selfRefresh)
  let p := { p with
    bank := { p.bank with busOn := false, frame := none }
    strings := vmap (fun _ x => x.switchOff) p.strings }
  (p.answerTaken .standby .ok).setEntering false

/-- R3: the memory enters INITIALISING. -/
def MemCtl.startUp (m : MemCtl) (o : Origin) : MemCtl :=
  { m with state := .initialising, origin := o, stage := .pause, row := 0, owed := 0 }

/-- R3, R9, R149, R102: the mode setting ends: READY, and the part enters RUNNING. -/
def Part.enterRunning (p : Part) : Part :=
  let p := { p with mem := { p.mem with state := .ready, stage := .none, owed := 0, ring := 15 } }
  let p := p.raise (.storeMemory .initialising .ready)
  let p := { p with strings := vmap (fun _ x => { x with scanning := true }) p.strings }
  p.startRunning

end Sys2Proof.Machine
end

