-- ==== Sys2Proof/Machine/ClipMemory.lean ====
section
/-! DEFINITION. The meanings of the reset pin and of the clip memory's events (01_clip_memory.md, R25 to
R28, R187, R188). An event that the part is not waiting for changes nothing (assumption 1). -/

namespace Sys2Proof.Machine

/-! ### Cold reset and start-up (R2, R3, R190) -/

/-- COLD_RESET (R2, R190): the whole part takes its cold values and clip memory is not relied upon
(assumption 6). The commands still waiting stay in the queue. -/
def execColdReset (s : State) : Host.Outcome State Fault Refusal :=
  .next { s with dram := [], part := Part.cold }

/-- COLD_RESET_END (R2, R3, R54): the memory enters INITIALISING with origin COLD and the bus carries
frames. -/
def Part.coldResetEnd (p : Part) : Part :=
  if p.mem.state = .off then
    { p with mem := p.mem.startUp .cold, bank := { p.bank with busOn := true } }
  else p

/-- COLD_RESET_END (R2, R3, R54). -/
def execColdResetEnd (s : State) : Host.Outcome State Fault Refusal :=
  .next (s.onPart Part.coldResetEnd)

/-- R3: the pause ends. -/
def MemCtl.pauseEnd (m : MemCtl) : MemCtl :=
  match m.state, m.stage with
  | .initialising, .pause => { m with stage := .refresh 0 }
  | _, _ => m

/-- STARTUP_PAUSE_END (R3). -/
def execStartupPauseEnd (s : State) : Host.Outcome State Fault Refusal :=
  .next (s.onPart fun p => { p with mem := p.mem.pauseEnd })

/-- The row after a row, modulo 8,192 (R4). -/
def nextRow (row : Nat) : Nat := (row + 1) % 8192

/-- R3: one of the 8 start-up refresh operations ends. -/
def MemCtl.startupRefreshDone (m : MemCtl) : MemCtl :=
  match m.state, m.stage with
  | .initialising, .refresh n =>
    { m with row := nextRow m.row, stage := if 7 ≤ n then .modeSetting else .refresh (n + 1) }
  | _, _ => m

/-- STARTUP_REFRESH_DONE (R3). -/
def execStartupRefreshDone (s : State) : Host.Outcome State Fault Refusal :=
  .next (s.onPart fun p => { p with mem := p.mem.startupRefreshDone })

/-- R3: the mode setting ends. -/
def Part.modeSettingDone (p : Part) : Part :=
  match p.mem.state, p.mem.stage with
  | .initialising, .modeSetting => p.enterRunning
  | _, _ => p

/-- MODE_SETTING_DONE (R3, R9). -/
def execModeSettingDone (s : State) : Host.Outcome State Fault Refusal :=
  .next (s.onPart Part.modeSettingDone)

/-! ### Refresh and grants (R4 to R6) -/

/-- R4: an expiry of the refresh interval timer, which runs while the memory is READY (assumption 29). -/
def MemCtl.intervalExpiry (m : MemCtl) : MemCtl :=
  if m.state = .ready then { m with owed := min 8 (m.owed + 1) } else m

/-- REFRESH_INTERVAL_EXPIRY (R4). -/
def execRefreshIntervalExpiry (s : State) : Host.Outcome State Fault Refusal :=
  .next (s.onPart fun p => { p with mem := p.mem.intervalExpiry })

/-- R6: the ring clients in the order searched: from the position after the ring position, wrapping. -/
def ringOrder (ring : Fin 16) : List (Fin 16) :=
  (List.range 16).map fun i => ⟨(ring.val + 1 + i) % 16, by omega⟩

/-- What a grant decision grants. -/
inductive Grant where
  | refresh
  | client (c : Fin 16)
  deriving DecidableEq, Repr

/-- R6: the grant decision; none where the arbiter makes none. -/
def MemCtl.decide (m : MemCtl) : Option Grant :=
  if m.state = .ready ∧ m.device = .idle then
    if m.owed = 8 then some .refresh
    else
      match (ringOrder m.ring).find? fun c => vget m.waiting c with
      | some c => some (.client c)
      | none => if 1 ≤ m.owed then some .refresh else none
  else none

/-- A block transfer: its page and block, and the bytes it writes from an address on, if it writes. -/
structure Transfer where
  page : Nat
  block : Nat
  write : Option (Nat × Bytes)
  deriving DecidableEq, Repr

/-- The transfer of a ring client's request: a reader's next block (R40), the loader's buffer (R25, R28),
the checker's pattern write or read-back (R12). -/
def Part.transferOf (c : Fin 16) (p : Part) : Option Transfer :=
  if h : c.val < 14 then
    let x := p.reader ⟨c.val, h⟩
    x.page.map fun g => ⟨g, x.nextBlock % Config.pageBlocks, none⟩
  else if c = loaderClient then
    match p.store.job.clip with
    | none => none
    | some k =>
      let x := p.clip k
      let place := x.loaded % Config.pageBytes
      (pageAt p.store.pageMap (x.loaded / Config.pageBytes) x.firstPage).map fun g =>
        ⟨g, place / Config.blockBytes, some (g * Config.pageBytes + place, p.store.buffer)⟩
  else
    let k := p.store.check
    let block := k.made % Config.pageBlocks
    k.current.map fun g =>
      ⟨g, block,
        if checkWrites k.made then some (blockAddress g block, patternBytes g block (32 ≤ k.made))
        else none⟩

/-- R6: a grant to a ring client. Its write lands now (assumption 7). -/
def State.grantTo (c : Fin 16) (s : State) : State :=
  let p := s.part
  let mem := { p.mem with ring := c, waiting := vset p.mem.waiting c false }
  match p.transferOf c with
  | none => { s with part := { p with mem := mem } }
  | some t =>
    { s with
      dram := match t.write with
        | some (a, bytes) => Memory.write s.dram a bytes
        | none => s.dram
      part := { p with mem := { mem with device := .transfer c t.page t.block false } } }

/-- R4, R6: a refresh operation is granted and taken from the owed refreshes at the grant, as the worked
example "a run of grants" shows (assumption 39). -/
def MemCtl.grantRefresh (m : MemCtl) : MemCtl :=
  { m with device := .refreshing, owed := m.owed - 1 }

/-- ARBITER_GRANT (R4, R6). -/
def execArbiterGrant (s : State) : Host.Outcome State Fault Refusal :=
  match s.part.mem.decide with
  | none => .next s
  | some .refresh =>
    .next { s with part := { s.part with mem := s.part.mem.grantRefresh } }
  | some (.client c) => .next (s.grantTo c)

/-- R4: a refresh operation ends: the row named by the refresh row is refreshed, and the refresh row
advances (assumption 39). -/
def MemCtl.refreshDone (m : MemCtl) : MemCtl :=
  if m.device = .refreshing then { m with device := .idle, row := nextRow m.row } else m

/-- REFRESH_DONE (R4). -/
def execRefreshDone (s : State) : Host.Outcome State Fault Refusal :=
  .next (s.onPart fun p => { p with mem := p.mem.refreshDone })

/-! ### Completions (R5) -/

/-- The device has ended its operation. -/
def Part.freeDevice (p : Part) : Part := { p with mem := { p.mem with device := .idle } }

/-- READER_READ_COMPLETION (R5, R41, R42): the reader takes the block's 256 bytes. -/
def execReaderReadCompletion (reader : ReaderId) (s : State) : Host.Outcome State Fault Refusal :=
  match s.part.mem.device with
  | .transfer c page block withdrawn =>
    if c = ringOf reader then
      if withdrawn then .next (s.onPart Part.freeDevice)
      else
        match Memory.readBytes s.dram (blockAddress page block) Config.blockBytes with
        | .error a => .fault (.unwrittenByte a)
        | .ok bytes => .next (s.onPart fun p => p.freeDevice.readDone reader bytes)
    else .next s
  | _ => .next s

/-- The completion of a write of the loader: withdrawn, the device alone is freed; else `done` follows. -/
def Part.writeCompletes (client : Fin 16) (done : Part → Part) (p : Part) : Part :=
  match p.mem.device with
  | .transfer c _ _ withdrawn =>
    if c = client then
      if withdrawn then p.freeDevice else done p
    else p
  | _ => p

/-- R25: a fill write completes. -/
def Part.fillWritten (p : Part) : Part :=
  match p.store.job with
  | .fillWrite tag c rest =>
    (p.freeDevice.loadedMore c p.store.buffer.length).nextFillWrite tag c rest
  | _ => p

/-- LOADER_WRITE_COMPLETION (R25 to R27). -/
def execLoaderWriteCompletion (s : State) : Host.Outcome State Fault Refusal :=
  .next (s.onPart (Part.writeCompletes loaderClient Part.fillWritten))

/-- R28: the close write completes. -/
def Part.closeWritten (p : Part) : Part :=
  match p.store.job with
  | .closeWrite tag c => p.freeDevice.finishClose tag c
  | _ => p

/-- CLOSE_WRITE_COMPLETION (R28). -/
def execCloseWriteCompletion (s : State) : Host.Outcome State Fault Refusal :=
  .next (s.onPart (Part.writeCompletes loaderClient Part.closeWritten))

/-- CHECKER_TRANSFER_COMPLETION (R12, R13): `equal` is the comparison of a read-back (assumption 9). -/
def execCheckerTransferCompletion (equal : Bool) (s : State) : Host.Outcome State Fault Refusal :=
  .next (s.onPart (Part.writeCompletes checkerClient fun p => p.freeDevice.checkerDone equal))

/-! ### Standby, warm reset and the waiting fill -/

/-- R8: the device enters self-refresh when no operation is in progress and no refresh is owed. -/
def Part.selfRefreshEntered (p : Part) : Part :=
  if p.link.entering = true ∧ p.mem.state = .ready ∧ p.mem.device = .idle ∧ p.mem.owed = 0 then
    p.completeStandby
  else p

/-- SELF_REFRESH_ENTERED (R8, R188). -/
def execSelfRefreshEntered (s : State) : Host.Outcome State Fault Refusal :=
  .next (s.onPart Part.selfRefreshEntered)

/-- R187: the reset is complete when the transfer in progress at its start has ended. -/
def Part.warmResetComplete (p : Part) : Part :=
  if p.link.resetting = true ∧ p.mem.device.busy = false then p.endWarmReset else p

/-- WARM_RESET_COMPLETE (R187 steps 3 to 6). -/
def execWarmResetComplete (s : State) : Host.Outcome State Fault Refusal :=
  .next (s.onPart Part.warmResetComplete)

/-- R13, R24: a waiting fill takes the Free List head; it is refused FULL when the list is empty and no
batch holds pages. The check then goes on if its batch has ended. -/
def Part.fillPageWaitEnd (p : Part) : Part :=
  match p.store.job with
  | .fillWait tag c data =>
    if runsLength p.store.freeList = 0 ∧ p.store.check.batch ≠ [] then p
    else
      let p := if runsLength p.store.freeList = 0 then
          (p.setJob .none []).answer .clipFill tag .full (p.fillFields c)
        else p.beginFill tag c data
      if p.store.check.running = true ∧ p.store.check.batch = [] then p.continueCheck else p
  | _ => p

/-- FILL_PAGE_WAIT_END (R24). -/
def execFillPageWaitEnd (s : State) : Host.Outcome State Fault Refusal :=
  .next (s.onPart Part.fillPageWaitEnd)

end Sys2Proof.Machine
end

