-- ==== Sys2Proof/Machine/ClipStore.lean ====
section
/-! DEFINITION. The meanings of the Clip Store's requests (02_clips_and_the_page_map.md, R10, R17). -/

namespace Sys2Proof.Machine

/-- The clip that a body's first field names. -/
def namedClip (body : Bytes) : Option ClipId := (named16 body).bind (ident 1024)

/-- Reply fields taken from the named clip's record as it stands, `n` sentinel bytes when the request
names none (R192; assumption 15). -/
def Part.clipFields (body : Bytes) (n : Nat) (f : Clip → Bytes) (p : Part) : Bytes :=
  match namedClip body with
  | some c => f (p.clip c)
  | none => eAbsent n

def ClipState.code : ClipState → Nat
  | .free => 0 | .loading => 1 | .ready => 2 | .retiring => 3

def RetireCause.code : RetireCause → Nat
  | .deleted => 0 | .dropped => 1

/-! ### CLIP-OPEN (R22) -/

/-- A list of marks rises strictly. -/
def increasing : List Nat → Bool
  | [] => true
  | [_] => true
  | a :: b :: rest => decide (a < b) && increasing (b :: rest)

/-- R22: the stored threshold. -/
def storedThreshold (t : Nat) : Nat := if t = 0 then 256 else clampNat 16 4096 t

/-- R22: the stored declared length. -/
def storedDeclared (d : Nat) : Option Nat := if d = 0 then none else some (min 134217728 d)

/-- R22: CLIP-OPEN's outcome on a clip, by its checks in order. -/
def Part.openStatus (body : Bytes) (p : Part) : Except Status (OpenReq × ClipId) :=
  match readOpen body with
  | none => .error .badLength
  | some q =>
    match ident 1024 q.clip with
    | none => .error .badValue
    | some c =>
      if increasing q.marks = false then .error .badValue
      else if (p.clip c).state ≠ .free then .error .wrongState
      else .ok (q, c)

/-- R22: the record of an opened clip. -/
def openedClip (q : OpenReq) : Clip :=
  { Clip.empty with
    state := .loading, declared := storedDeclared q.declared
    threshold := storedThreshold q.threshold, marks := q.marks }

/-- R22: whether the declared length or the threshold is clamped. -/
def OpenReq.clamped (q : OpenReq) : Bool :=
  decide (134217728 < q.declared) ||
    decide (q.threshold ≠ 0 ∧ storedThreshold q.threshold ≠ q.threshold)

def Part.takeClipOpen (tag : Byte) (body : Bytes) (p : Part) : Part :=
  let reply := fun (s : Status) (p : Part) =>
    p.answer .clipOpen tag s (o16 (named16 body) ++ p.clipFields body 2 fun x => e16 x.threshold)
  match p.openStatus body with
  | .error s => reply s p
  | .ok (q, c) => reply (clampStatus q.clamped) (p.setClip c (openedClip q))

/-- CLIP_OPEN (R22). -/
def execClipOpen (tag : Byte) (body : Bytes) (s : State) : Host.Outcome State Fault Refusal :=
  .next (s.onPart (Part.request .clipOpen tag body (Part.takeClipOpen tag body)))

/-! ### CLIP-FILL (R23 to R25) -/

/-- R23: the first failing check of a fill, without the page check. -/
def Part.fillStatus (body : Bytes) (p : Part) : Except Status (FillReq × ClipId) :=
  match readFill body with
  | none => .error .badLength
  | some q =>
    match ident 1024 q.clip with
    | none => .error .badValue
    | some c =>
      let x := p.clip c
      match x.state with
      | .free => .error .notFound
      | .ready | .retiring => .error .wrongState
      | .loading =>
        if q.offset ≠ x.loaded then .error .wrongOffset
        else if x.declared.any fun d => decide (2 * d < q.offset + q.data.length) then .error .badValue
        else .ok (q, c)

def Part.takeClipFill (tag : Byte) (body : Bytes) (p : Part) : Part :=
  let refuse := fun (s : Status) =>
    p.answer .clipFill tag s (o16 (named16 body) ++ p.clipFields body 4 fun x => e32 x.loaded)
  match p.fillStatus body with
  | .error s => refuse s
  | .ok (q, c) =>
    if (p.clip c).needsPage q.data.length = true ∧ runsLength p.store.freeList = 0 then
      if p.store.check.batch = [] then refuse .full
      else p.setJob (.fillWait tag c q.data) []
    else p.beginFill tag c q.data

/-- CLIP_FILL (R23, R24, R25). -/
def execClipFill (tag : Byte) (body : Bytes) (s : State) : Host.Outcome State Fault Refusal :=
  .next (s.onPart (Part.request .clipFill tag body (Part.takeClipFill tag body)))

/-! ### CLIP-CLOSE (R28) -/

def Part.takeClipClose (tag : Byte) (body : Bytes) (p : Part) : Part :=
  let refuse := fun (s : Status) =>
    p.answer .clipClose tag s (p.clipFields body 5 fun x => e32 x.loaded ++ e8 x.marks.length)
  match readWord body with
  | none => refuse .badLength
  | some n =>
    match ident 1024 n with
    | none => refuse .badValue
    | some c =>
      let x := p.clip c
      match x.state with
      | .free => refuse .notFound
      | .ready | .retiring => refuse .wrongState
      | .loading =>
        if x.loaded = 0 then refuse .wrongState
        else if x.loaded % Config.blockBytes = 0 then p.finishClose tag c
        else (p.setJob (.closeWrite tag c) (closeZeros x.loaded)).placeRequest loaderClient

/-- CLIP_CLOSE (R28). -/
def execClipClose (tag : Byte) (body : Bytes) (s : State) : Host.Outcome State Fault Refusal :=
  .next (s.onPart (Part.request .clipClose tag body (Part.takeClipClose tag body)))

/-! ### CLIP-DROP and CLIP-DELETE (R29 to R31) -/

/-- R29, R30: a LOADING clip is dropped: freed, or made RETIRING with its readers told. -/
def Part.dropClip (c : ClipId) (p : Part) : Part :=
  let x := p.clip c
  if x.hold = 0 then p.freeClip c
  else
    let p := p.setClip c { x with state := .retiring, cause := some .dropped }
    let told := (List.finRange 14).any fun r => decide ((p.reader r).clip = some c)
    let p := if told then p.raise (.clip c .faultAbandoned) else p
    p.eachReader fun r q => q.readerAbandoned c r

/-- The resulting state of a drop or a delete: FREE with no holds, else RETIRING. -/
def Clip.resulting (x : Clip) : ClipState := if x.hold = 0 then .free else .retiring

def Part.takeClipDrop (tag : Byte) (body : Bytes) (p : Part) : Part :=
  let refuse := fun (s : Status) =>
    p.answer .clipDrop tag s (p.clipFields body 1 fun x => e8 x.state.code)
  match readWord body with
  | none => refuse .badLength
  | some n =>
    match ident 1024 n with
    | none => refuse .badValue
    | some c =>
      let x := p.clip c
      match x.state with
      | .free => refuse .notFound
      | .ready => refuse .wrongState
      | .retiring => refuse .ok
      | .loading => (p.dropClip c).answer .clipDrop tag .ok (e8 x.resulting.code)

/-- CLIP_DROP (R29, R30). -/
def execClipDrop (tag : Byte) (body : Bytes) (s : State) : Host.Outcome State Fault Refusal :=
  .next (s.onPart (Part.request .clipDrop tag body (Part.takeClipDrop tag body)))

/-- R31: a READY clip that no set names is deleted. -/
def Part.deleteClip (c : ClipId) (p : Part) : Part :=
  let x := p.clip c
  if x.hold = 0 then p.freeClip c
  else p.setClip c { x with state := .retiring, cause := some .deleted }

/-- R31: every reply carries the resulting state and then the set-reference count (assumption 54). -/
def Part.takeClipDelete (tag : Byte) (body : Bytes) (p : Part) : Part :=
  let refuse := fun (s : Status) =>
    p.answer .clipDelete tag s (p.clipFields body 2 fun x => e8 x.state.code ++ e8 x.setRefs)
  match readWord body with
  | none => refuse .badLength
  | some n =>
    match ident 1024 n with
    | none => refuse .badValue
    | some c =>
      let x := p.clip c
      let done := e8 x.resulting.code ++ e8 x.setRefs
      match x.state with
      | .free => refuse .notFound
      | .retiring => refuse .ok
      | .loading => (p.dropClip c).answer .clipDelete tag .ok done
      | .ready =>
        if x.setRefs = 0 then (p.deleteClip c).answer .clipDelete tag .ok done
        else refuse .referenced

/-- CLIP_DELETE (R31). -/
def execClipDelete (tag : Byte) (body : Bytes) (s : State) : Host.Outcome State Fault Refusal :=
  .next (s.onPart (Part.request .clipDelete tag body (Part.takeClipDelete tag body)))

/-! ### CLIP-QUERY (R35) -/

/-- R35: the reported fields of a clip record. A first or last page of 65,535 and an absent one are both 0xFFFF
(assumption 48). -/
def Clip.fields (x : Clip) : Bytes :=
  e8 x.state.code ++ o8 (x.cause.map RetireCause.code) ++ o32 x.declared ++ e16 x.threshold ++
    e32 x.loaded ++ e32 x.writtenBlocks ++ eFlag x.playable ++ eFlag x.sent ++ e32 x.pageCount ++
    o16 x.firstPage ++ o16 x.lastPage ++ e8 x.hold ++ e8 x.setRefs ++ e8 x.marks.length ++
    x.marks.flatMap e32

/-- R35 with no clip named: every field at its sentinel and no marks. -/
def absentClipFields : Bytes := eAbsent 28 ++ e8 0

def Part.takeClipQuery (tag : Byte) (body : Bytes) (p : Part) : Part :=
  let reply := fun (s : Status) =>
    p.answer .clipQuery tag s (match namedClip body with
      | some c => (p.clip c).fields
      | none => absentClipFields)
  match readWord body with
  | none => reply .badLength
  | some n =>
    match ident 1024 n with
    | none => reply .badValue
    | some c => reply (if (p.clip c).state = .free then .notFound else .ok)

/-- CLIP_QUERY (R35). -/
def execClipQuery (tag : Byte) (body : Bytes) (s : State) : Host.Outcome State Fault Refusal :=
  .next (s.onPart (Part.request .clipQuery tag body (Part.takeClipQuery tag body)))

/-! ### STORE-QUERY (R17) and STORE-CHECK (R10) -/

/-- R17: the pages chained to clips. -/
def clipPages (clips : List (Nat × Clip)) : Nat :=
  (clips.filter fun c => decide (c.2.state ≠ .free)).foldl (fun n c => n + c.2.pageCount) 0

/-- R17: the reported fields, with the withdrawn pages from the first page on. -/
def Part.storeFields (first : Nat) (p : Part) : Bytes :=
  let k := p.store.check
  let above := p.store.withdrawnSet.filter fun g => decide (first ≤ g)
  let listed := above.take 256
  e8 p.mem.state.code ++ e16 p.mem.row ++ e8 p.mem.owed ++ e32 (runsLength p.store.freeList) ++
    e32 (clipPages p.store.clips) ++ e8 k.batch.length ++ e32 p.store.withdrawnSet.length ++
    eFlag k.running ++ k.fields ++ e16 listed.length ++ listed.flatMap e16 ++
    eFlag (decide (256 < above.length))

/-- R17 answered BAD-LENGTH: sentinels, an empty list. -/
def absentStoreFields : Bytes := eAbsent 30 ++ e16 0 ++ eAbsent 1

def Part.takeStoreQuery (tag : Byte) (body : Bytes) (p : Part) : Part :=
  match readWord body with
  | none => p.answer .storeQuery tag .badLength absentStoreFields
  | some first => p.answer .storeQuery tag .ok (p.storeFields first)

/-- STORE_QUERY (R17). -/
def execStoreQuery (tag : Byte) (body : Bytes) (s : State) : Host.Outcome State Fault Refusal :=
  .next (s.onPart (Part.request .storeQuery tag body (Part.takeStoreQuery tag body)))

/-- R10: a running check's BUSY reply carries its counts as they stand (assumption 49). -/
def Part.takeStoreCheck (tag : Byte) (body : Bytes) (p : Part) : Part :=
  match readExact 0 body with
  | none => p.answer .storeCheck tag .badLength (eAbsent 12)
  | some _ =>
    let k := p.store.check
    if k.running then p.answer .storeCheck tag .busy k.fields
    else
      Part.formBatch (p.setCheck { k with
        running := true, target := runsLength p.store.freeList, tested := 0, withdrawn := 0
        batch := [], made := 0, tag := tag })

/-- STORE_CHECK (R10, R11). -/
def execStoreCheck (tag : Byte) (body : Bytes) (s : State) : Host.Outcome State Fault Refusal :=
  .next (s.onPart (Part.request .storeCheck tag body (Part.takeStoreCheck tag body)))

end Sys2Proof.Machine
end

