-- ==== Sys2Proof/Machine/Commentary.lean ====
section
/-! DEFINITION. The meanings of the Commentary Scheduler's requests (04_languages_and_commentary.md). -/

namespace Sys2Proof.Machine

/-- The language that a body's first byte names. -/
def namedLang (body : Bytes) : Option Lang := (named8 body).bind (ident 12)

/-- The PA language field: 0xFF for FOLLOW-DEFAULT (assumption 16). -/
def LangTable.paByte (t : LangTable) : Bytes := o8 (t.pa.map Fin.val)

/-! ### LANG-SET (R57 to R59) -/

/-- R57: a tag character is printable. -/
def printable (b : Byte) : Bool := decide (0x20 ≤ b.toNat) && decide (b.toNat ≤ 0x7E)

/-- R57: the fallback field: a language other than this one, or NONE. -/
def readFallback (l : Lang) (x : Nat) : Option (Option Lang) :=
  match identOrNone 12 0xFF x with
  | some (some m) => if m = l then none else some (some m)
  | some none => some none
  | none => none

/-- A taken LANG-SET. -/
structure LangWrite where
  lang : Lang
  disable : Bool
  tag : Bytes
  fallback : Option Lang
  trim : Int
  makeDefault : Bool
  pa : Nat
  deriving DecidableEq, Repr

/-- R57: the checks in order. -/
def Part.langStatus (body : Bytes) (p : Part) : Except Status LangWrite :=
  match readLang body with
  | none => .error .badLength
  | some q =>
    match ident 12 q.lang with
    | none => .error .badValue
    | some l =>
      if q.tag.all printable = false then .error .badValue
      else
        match readFallback l q.fallback, oneOfTwo q.enable, oneOfTwo q.default with
        | some f, some disable, some leave =>
          if 2 < q.pa then .error .badValue
          else if disable = true ∧ l = p.lang.default then .error .wrongState
          else if disable = true ∧ (leave = false ∨ q.pa = 0) then .error .wrongState
          else .ok ⟨l, disable, q.tag, f, q.trim, !leave, q.pa⟩
        | _, _, _ => .error .badValue

/-- R58: ENABLE. -/
def Part.enableLanguage (l : Lang) (p : Part) : Part :=
  let x := p.language l
  if x.enabled then p else p.setLanguage l { x with enabled := true, stream := .parked }

/-- R59: the seats whose language is a language, in the order in which they are moved: ascending (assumption 56). -/
def Part.seatsOf (l : Lang) (p : Part) : List SeatId :=
  (List.finRange 96).filter fun i => decide ((p.seat i).language = l)

/-- R59: DISABLE of an enabled language, and the number of seats moved. The Announcement Controller is told
(R90) between steps 2 and 3 (assumption 43). -/
def Part.disableLanguage (l : Lang) (p : Part) : Part × Nat :=
  if (p.language l).enabled then
    let p := if p.lang.pa = some l then { p with lang := { p.lang with pa := none } } else p
    let p := (p.stopChannel l).dropResume l
    let p := p.setLanguage l { p.language l with
      current := none, waiting := [], enabled := false, stream := .off }
    let p := p.languageDisabled l
    let seats := p.seatsOf l
    (seats.foldl (fun q i => q.changeLanguage i q.lang.default) p, seats.length)
  else (p, 0)

/-- R58: the default setting and the PA setting. -/
def Part.applySettings (w : LangWrite) (p : Part) : Part :=
  let p := if w.makeDefault then { p with lang := { p.lang with default := w.lang } } else p
  match w.pa with
  | 0 => { p with lang := { p.lang with pa := some w.lang } }
  | 1 => { p with lang := { p.lang with pa := none } }
  | _ => p

/-- R57 to R59: a taken LANG-SET, and the number of seats moved. -/
def Part.writeLanguage (w : LangWrite) (p : Part) : Part × Nat :=
  let x := p.language w.lang
  let trim := clampInt (-24) 0 w.trim
  let p := p.setLanguage w.lang { x with tag := w.tag, fallback := w.fallback, trim := trim }
  let p := if trim = x.trim then p else p.recomputeLanguage w.lang
  let (p, moved) := if w.disable then p.disableLanguage w.lang else (p.enableLanguage w.lang, 0)
  (p.applySettings w, moved)

/-- R57: the fields of the LANG-SET reply. -/
def Part.langFields (l : Lang) (moved : Nat) (p : Part) : Bytes :=
  let x := p.language l
  eFlag x.enabled ++ eText x.tag ++ o8 (x.fallback.map Fin.val) ++ s8 x.trim ++
    eFlag (decide (p.lang.default = l)) ++ p.lang.paByte ++ e8 x.audience ++ e8 x.stream.code ++
    e8 moved

/-- R57 with no language named: the tag is a text of no characters (assumption 60); the trim's sentinel is -128. -/
def absentLangFields : Bytes := eAbsent 1 ++ eNoText ++ eAbsent 1 ++ s8 (-128) ++ eAbsent 5

def Part.takeLangSet (tag : Byte) (body : Bytes) (p : Part) : Part :=
  match p.langStatus body with
  | .error s =>
    p.answer .langSet tag s (match namedLang body with
      | some l => p.langFields l 0
      | none => absentLangFields)
  | .ok w =>
    let (q, moved) := p.writeLanguage w
    q.answer .langSet tag (clampStatus (decide (clampInt (-24) 0 w.trim ≠ w.trim)))
      (q.langFields w.lang moved)

/-- LANG_SET (R57 to R59). -/
def execLangSet (tag : Byte) (body : Bytes) (s : State) : Host.Outcome State Fault Refusal :=
  .next (s.onPart (Part.request .langSet tag body (Part.takeLangSet tag body)))

/-! ### REEL-SET and REEL-CLEAR (R64, R65) -/

/-- No number stands twice in a list. -/
def distinct : List Nat → Bool
  | [] => true
  | x :: rest => !rest.contains x && distinct rest

/-- R64: an item that names a clip id or NONE, with a jump flag of 0 or 1 (assumption 44). -/
def ReelItem.valid (x : ReelItem) : Bool :=
  (decide (x.clip < 1024) || decide (x.clip = 0xFFFF)) && decide (x.jump ≤ 1)

/-- R64: an item is written in the reel. -/
def writeReelItem (reel : List (Nat × ReelEntry)) (x : ReelItem) : List (Nat × ReelEntry) :=
  match ident 1024 x.clip with
  | some c => tput reel x.cue ⟨c, decide (x.jump = 1)⟩
  | none => tdel reel x.cue

/-- The number of places of the named language's reel that hold entries. -/
def Part.reelFields (body : Bytes) (p : Part) : Bytes :=
  match namedLang body with
  | some l => e16 (p.language l).reel.length
  | none => eAbsent 2

def Part.takeReelSet (tag : Byte) (body : Bytes) (p : Part) : Part :=
  let reply := fun (s : Status) (p : Part) => p.answer .reelSet tag s (p.reelFields body)
  match readReel body with
  | none => reply .badLength p
  | some q =>
    match ident 12 q.lang with
    | none => reply .badValue p
    | some l =>
      if q.items.all ReelItem.valid && distinct (q.items.map ReelItem.cue) then
        let x := p.language l
        reply .ok (p.setLanguage l { x with reel := q.items.foldl writeReelItem x.reel })
      else reply .badValue p

/-- REEL_SET (R64). -/
def execReelSet (tag : Byte) (body : Bytes) (s : State) : Host.Outcome State Fault Refusal :=
  .next (s.onPart (Part.request .reelSet tag body (Part.takeReelSet tag body)))

def Part.takeReelClear (tag : Byte) (body : Bytes) (p : Part) : Part :=
  match readByte body with
  | none => p.answer .reelClear tag .badLength []
  | some n =>
    match ident 12 n with
    | none => p.answer .reelClear tag .badValue []
    | some l => (p.setLanguage l { p.language l with reel := [] }).answer .reelClear tag .ok []

/-- REEL_CLEAR (R65). -/
def execReelClear (tag : Byte) (body : Bytes) (s : State) : Host.Outcome State Fault Refusal :=
  .next (s.onPart (Part.request .reelClear tag body (Part.takeReelClear tag body)))

/-! ### CUE (R67 to R69) -/

/-- R67: the affected languages, ascending: the order of the reply's list, and that in which they are treated
(assumption 56). -/
def Part.affectedLanguages (n : Byte) (p : Part) : List Lang :=
  (List.finRange 12).filter fun l => (p.language l).affected n

def Part.takeCue (tag : Byte) (body : Bytes) (p : Part) : Part :=
  match body with
  | [n] =>
    let ls := p.affectedLanguages n
    (ls.foldl (fun q l => q.placeEntry n l) p).answer .cue tag .ok
      (e8 ls.length ++ ls.flatMap fun l => e8 l.val)
  | _ => p.answer .cue tag .badLength (e8 0)

/-- CUE (R67 to R69). -/
def execCue (tag : Byte) (body : Bytes) (s : State) : Host.Outcome State Fault Refusal :=
  .next (s.onPart (Part.request .cue tag body (Part.takeCue tag body)))

/-! ### STREAM-QUERY (R76) -/

def ReaderState.code : ReaderState → Nat
  | .idle => 0 | .priming => 1 | .running => 2 | .starved => 3

def Owner.code : Owner → Nat
  | .commentary => 0 | .announcement => 1 | .none => 2

/-- R76: a play-list entry; the role CURRENT is 0, WAITING 1. -/
def Entry.fields (e : Entry) (role : Nat) : Bytes :=
  e8 e.cue.toNat ++ e16 e.clip.val ++ eFlag e.jump ++ e8 role ++ eFlag e.cut.isSome

/-- R76: the play list: its length, then the entries in order. -/
def Language.listFields (x : Language) : Bytes :=
  e8 (x.current.toList.length + x.waiting.length) ++
    (x.current.toList.flatMap fun e => e.fields 0) ++ x.waiting.flatMap fun e => e.fields 1

/-- R76: the resume record: clip and resume sample, or absent (assumption 55). -/
def resumeFields : Option Resume → Bytes
  | none => eAbsent 6
  | some r => e16 r.clip.val ++ e32 r.sample

/-- R76: the reader's state, owner, clip and position. -/
def Reader.fields (x : Reader) : Bytes :=
  e8 x.state.code ++ e8 x.owner.code ++ o16 (x.clip.map Fin.val) ++ e32 x.position

/-- R76: the reported fields. -/
def Part.streamFields (l : Lang) (p : Part) : Bytes :=
  let x := p.language l
  eFlag x.enabled ++ eText x.tag ++ o8 (x.fallback.map Fin.val) ++ s8 x.trim ++
    eFlag (decide (p.lang.default = l)) ++ eFlag (decide (p.lang.paLanguage = l)) ++
    e8 x.audience ++ e8 x.stream.code ++ e8 (if p.lang.hold then 0 else 1) ++ x.listFields ++
    resumeFields x.resume ++ (p.reader (chan l)).fields ++ e16 x.reel.length

/-- R76 with no language named: the tag is a text of no characters (assumption 60), the play list a list of no entries
(assumption 15). -/
def absentStreamFields : Bytes :=
  eAbsent 1 ++ eNoText ++ eAbsent 1 ++ s8 (-128) ++ eAbsent 5 ++ e8 0 ++ eAbsent 6 ++ eAbsent 8 ++
    eAbsent 2

def Part.takeStreamQuery (tag : Byte) (body : Bytes) (p : Part) : Part :=
  let fields := match namedLang body with
    | some l => p.streamFields l
    | none => absentStreamFields
  match readByte body with
  | none => p.answer .streamQuery tag .badLength fields
  | some n =>
    p.answer .streamQuery tag (if n < 12 then .ok else .badValue) fields

/-- STREAM_QUERY (R76). -/
def execStreamQuery (tag : Byte) (body : Bytes) (s : State) : Host.Outcome State Fault Refusal :=
  .next (s.onPart (Part.request .streamQuery tag body (Part.takeStreamQuery tag body)))

end Sys2Proof.Machine
end

