-- ==== Sys2Proof/Machine/Lighting.lean ====
section
/-! DEFINITION. The meanings of the Lighting Controller's requests and of its fade steps and flash
half-boundaries (10_upper_deck_lighting.md). -/

namespace Sys2Proof.Machine

/-! ### ZONE-SET (R172) -/

/-- R172: a taken configuration. -/
structure ZoneWrite where
  enabled : Bool
  safety : Bool
  minimum : Nat
  nominal : Nat
  keep : Bool
  deriving DecidableEq, Repr

/-- R172: the body's fields; none for a BAD-VALUE. The OPEN preset KEEP is its place 1 in the list, and 0xFF is not
one of those named (assumption 45). -/
def readZone (body : Bytes) : Option (ZoneId × ZoneWrite) :=
  match ident 8 (b8 body 0), oneOfTwo (b8 body 1), oneOfTwo (b8 body 2), oneOfTwo (b8 body 6) with
  | some z, some disable, some safety, some keep =>
    some (z, ⟨!disable, safety, min 100 (b8 body 3), clampNat 50 20000 (b16 body 4), keep⟩)
  | _, _, _, _ => none

/-- R172: whether the minimum or the nominal current was clamped. -/
def zoneClamped (body : Bytes) : Bool :=
  decide (100 < b8 body 3) || decide (clampNat 50 20000 (b16 body 4) ≠ b16 body 4)

/-- R172 steps 1 and 2: the configuration is written and the fault cleared. -/
def Zone.configured (x : Zone) (w : ZoneWrite) : Zone :=
  let x' := { x with
    enabled := w.enabled, safety := w.safety, minimum := w.minimum, nominal := w.nominal
    keep := w.keep, fault := .ok }
  if w.enabled = false ∨ w.nominal ≠ x.nominal then
    { x' with average := none, averageLevel := none, openCount := 0 }
  else x'

/-- R172: a taken ZONE-SET. -/
def Part.configureZone (z : ZoneId) (w : ZoneWrite) (p : Part) : Part :=
  let old := p.zone z
  let p := p.setZone z (old.configured w)
  let p :=
    if w.enabled then { p with light := p.light.retargetZone p.time .fading z }
    else p.setZone z ((p.zone z).dark p.time)
  let p := if old.fault = .ok then p else p.raise (.zone z .ok)
  if (old.fault ≠ .ok ∧ w.safety = true) ∨ old.safety ≠ w.safety then p.tellSafety else p

/-- R172: the fields of the reply; the OPEN preset KEEP is 1 (assumption 45). -/
def Zone.fields (x : Zone) : Bytes :=
  eFlag x.enabled ++ eFlag x.safety ++ e8 x.minimum ++ e16 x.nominal ++ eFlag x.keep ++
    e8 x.target ++ e8 x.level ++ e8 x.fault.code ++ o16 x.average ++ e8 x.openCount

/-- The record of the zone that the body names. -/
def Part.zoneFields (body : Bytes) (p : Part) : Bytes :=
  match (named8 body).bind (ident 8) with
  | some z => (p.zone z).fields
  | none => eAbsent 12

def Part.takeZoneSet (tag : Byte) (body : Bytes) (p : Part) : Part :=
  let reply := fun (s : Status) (p : Part) => p.answer .zoneSet tag s (p.zoneFields body)
  match readExact 7 body with
  | none => reply .badLength p
  | some _ =>
    match readZone body with
    | none => reply .badValue p
    | some (z, w) => reply (clampStatus (zoneClamped body)) (p.configureZone z w)

/-- ZONE_SET (R172). -/
def execZoneSet (tag : Byte) (body : Bytes) (s : State) : Host.Outcome State Fault Refusal :=
  .next (s.onPart (Part.request .zoneSet tag body (Part.takeZoneSet tag body)))

/-! ### SCENE-SET and SCENE-SELECT (R173, R174) -/

/-- R173: the scene that a body writes. -/
def readScene (body : Bytes) : Scene :=
  { levels := Vector.ofFn fun (i : Fin 8) => min 100 (b8 body (1 + i.val)), fade := b8 body 9 }

/-- R173: a level was clamped. -/
def sceneClamped (body : Bytes) : Bool := (List.range 8).any fun i => decide (100 < b8 body (1 + i))

/-- R173: the scene, as stored. -/
def Scene.fields (x : Scene) : Bytes := x.levels.toList.flatMap e8 ++ e8 x.fade

/-- R173: a scene is written. -/
def Part.writeScene (n : Fin 8) (x : Scene) (p : Part) : Part :=
  let l := { p.light with scenes := vset p.light.scenes n x }
  { p with light := if n = l.active then l.retargetAll p.time .fading else l }

def Part.takeSceneSet (tag : Byte) (body : Bytes) (p : Part) : Part :=
  let reply := fun (s : Status) (p : Part) =>
    p.answer .sceneSet tag s (match (named8 body).bind (ident 8) with
      | some n => (vget p.light.scenes n).fields
      | none => eAbsent 9)
  match readExact 10 body with
  | none => reply .badLength p
  | some _ =>
    match ident 8 (b8 body 0) with
    | none => reply .badValue p
    | some n => reply (clampStatus (sceneClamped body)) (p.writeScene n (readScene body))

/-- SCENE_SET (R173). -/
def execSceneSet (tag : Byte) (body : Bytes) (s : State) : Host.Outcome State Fault Refusal :=
  .next (s.onPart (Part.request .sceneSet tag body (Part.takeSceneSet tag body)))

/-- R174: a scene becomes the active scene; selecting the active one changes nothing. -/
def Part.selectScene (n : Fin 8) (p : Part) : Part :=
  if n = p.light.active then p
  else { p with light := Light.retargetAll { p.light with active := n } p.time .fading }

def Part.takeSceneSelect (tag : Byte) (body : Bytes) (p : Part) : Part :=
  match readByte body with
  | none => p.answer .sceneSelect tag .badLength (eAbsent 2)
  | some x =>
    match ident 8 x with
    | none => p.answer .sceneSelect tag .badValue (eAbsent 2)
    | some n =>
      let q := p.selectScene n
      q.answer .sceneSelect tag .ok (e8 q.light.active.val ++ e8 (vget q.light.scenes n).fade)

/-- SCENE_SELECT (R174). -/
def execSceneSelect (tag : Byte) (body : Bytes) (s : State) : Host.Outcome State Fault Refusal :=
  .next (s.onPart (Part.request .sceneSelect tag body (Part.takeSceneSelect tag body)))

/-! ### LIGHTCUE-SET (R175) -/

/-- R175: a cue item, as stored; what it does not hold is at its sentinel, and the kind NONE is 0 (assumption 46). -/
def CueItem.fields : CueItem → Bytes
  | .none => e8 0 ++ eAbsent 3
  | .level x => e8 1 ++ e8 x ++ eAbsent 2
  | .flash x half => e8 2 ++ e8 x ++ e16 half

/-- R175: the item of a zone with whether it was clamped. -/
def bodyItem (body : Bytes) (z : Fin 8) : Option (CueItem × Bool) := readCueItem body (1 + 4 * z.val)

/-- R175: every item is of a named kind. -/
def itemsNamed (body : Bytes) : Bool := (List.finRange 8).all fun z => (bodyItem body z).isSome

/-- R175: the cue that a body writes. -/
def readCue (body : Bytes) : Vector CueItem 8 :=
  Vector.ofFn fun z =>
    match bodyItem body z with
    | some (x, _) => x
    | none => .none

/-- R175: a level or a half-period was changed. -/
def cueClamped (body : Bytes) : Bool :=
  (List.finRange 8).any fun z => (bodyItem body z).any Prod.snd

/-- R175: the named cue, as stored. -/
def Part.cueFields (body : Bytes) (p : Part) : Bytes :=
  match (named8 body).bind (ident 16) with
  | some c => (vget p.light.cues c).toList.flatMap CueItem.fields
  | none => eAbsent 32

def Part.takeLightcueSet (tag : Byte) (body : Bytes) (p : Part) : Part :=
  let reply := fun (s : Status) (p : Part) => p.answer .lightcueSet tag s (p.cueFields body)
  match readExact 33 body with
  | none => reply .badLength p
  | some _ =>
    match ident 16 (b8 body 0) with
    | none => reply .badValue p
    | some c =>
      if itemsNamed body = false then reply .badValue p
      else if p.light.activeCue.any fun a => decide (a.1 = c) then reply .wrongState p
      else
        reply (clampStatus (cueClamped body))
          { p with light := { p.light with cues := vset p.light.cues c (readCue body) } }

/-- LIGHTCUE_SET (R175). -/
def execLightcueSet (tag : Byte) (body : Bytes) (s : State) : Host.Outcome State Fault Refusal :=
  .next (s.onPart (Part.request .lightcueSet tag body (Part.takeLightcueSet tag body)))

/-! ### DECK-QUERY (R176) -/

/-- R176: the fields of a zone. A next fade step 255 ms away and an absent one are both 0xFF (assumption 48). -/
def Zone.deckFields (x : Zone) (now : PartTime) : Bytes :=
  eFlag x.enabled ++ eFlag x.safety ++ e8 x.minimum ++ e16 x.nominal ++ eFlag x.keep ++
    e8 x.target ++ e8 x.level ++ o8 (x.stepDue.map (remaining now)) ++ e8 x.fault.code ++
    o16 x.average ++ o8 x.averageLevel ++ e8 x.openCount

/-- R176: the active cue and the milliseconds since it began, or absent (assumption 55). -/
def cueState (now : PartTime) : Option (Fin 16 × PartTime) → Bytes
  | none => eAbsent 5
  | some (c, t) => e8 c.val ++ eTime (now - t)

/-- R176: the reported fields. -/
def Part.deckFields (p : Part) : Bytes :=
  let l := p.light
  e8 l.active.val ++ (vget l.scenes l.active).fields ++ cueState p.time l.activeCue ++
    e8 l.shed.code ++ e8 l.shed.ceiling ++ eFlag p.ann.safetyFault ++
    l.zones.toList.flatMap fun x => x.deckFields p.time

def Part.takeDeckQuery (tag : Byte) (body : Bytes) (p : Part) : Part :=
  match readExact 0 body with
  | none => p.answer .deckQuery tag .badLength (eAbsent 130)
  | some _ => p.answer .deckQuery tag .ok p.deckFields

/-- DECK_QUERY (R176). -/
def execDeckQuery (tag : Byte) (body : Bytes) (s : State) : Host.Outcome State Fault Refusal :=
  .next (s.onPart (Part.request .deckQuery tag body (Part.takeDeckQuery tag body)))

/-! ### Fade steps and flash half-boundaries (R165, R168) -/

/-- R165: a level one step nearer its target. -/
def stepToward (level target : Nat) : Nat :=
  if level < target then level + 1 else if target < level then level - 1 else level

/-- R165: a fade step due at `d`. While the target is not reached the next step follows one step interval
later; with a step interval of 0, read again, the level becomes the target at once and no step follows. -/
def Zone.step (x : Zone) (d : PartTime) (interval : Nat) : Zone :=
  let level := stepToward x.level x.target
  if level = x.target ∨ interval = 0 then { x.drive d x.target with stepDue := none }
  else { x.drive d level with stepDue := some (later d interval) }

/-- R165: part time reaches a zone's step due. -/
def Part.fadeStep (z : ZoneId) (p : Part) : Part :=
  match (p.zone z).stepDue with
  | none => p
  | some d => (p.reach d).setZone z ((p.zone z).step d p.light.stepInterval)

/-- FADE_STEP (R165). -/
def execFadeStep (zone : ZoneId) (s : State) : Host.Outcome State Fault Refusal :=
  .next (s.onPart (Part.fadeStep zone))

/-- R168: the part time of a zone's next half-boundary: none unless its item in the active cue is FLASH. -/
def Light.nextBoundary (l : Light) (z : ZoneId) : Option PartTime :=
  match l.activeCue with
  | none => none
  | some (c, began) =>
    match vget (vget l.cues c) z with
    | .flash _ half => some (later began (((vget l.zones z).halves + 1) * half))
    | .none | .level _ => none

/-- R168: the zone's next half begins; its level follows at once. -/
def Part.flashHalf (z : ZoneId) (p : Part) : Part :=
  match p.light.nextBoundary z with
  | none => p
  | some d =>
    let p := p.reach d
    let p := p.setZone z { p.zone z with halves := (p.zone z).halves + 1 }
    { p with light := p.light.retargetZone p.time .atOnce z }

/-- FLASH_HALF_BOUNDARY (R168). -/
def execFlashHalfBoundary (zone : ZoneId) (s : State) : Host.Outcome State Fault Refusal :=
  .next (s.onPart (Part.flashHalf zone))

end Sys2Proof.Machine
end

