-- ==== Sys2Proof/Machine/LinkPort.lean ====
section
/-! DEFINITION. The meanings of the Link Port's requests and of the link's events (11_the_link_port.md). -/

namespace Sys2Proof.Machine

/-! ### PART-IDENT (R185) -/

/-- "Mirthune" in ASCII (R185). -/
def familyName : Bytes := [0x4D, 0x69, 0x72, 0x74, 0x68, 0x75, 0x6E, 0x65]

/-- "TD-96" in ASCII (R185). -/
def partName : Bytes := [0x54, 0x44, 0x2D, 0x39, 0x36]

/-- R185: the names as texts (assumption 14), the silicon revision (assumption 10) and the fixed capacities. -/
def identFields : Bytes :=
  eText familyName ++ eText partName ++ [Config.siliconRevision] ++
    e8 12 ++ e8 13 ++ e8 14 ++ e16 1024 ++ e32 Config.pages ++ e16 Config.pageBytes ++ e8 64 ++ e8 8 ++
    e8 4 ++ e8 24 ++ e8 8 ++ e8 8 ++ e8 16 ++ e8 4 ++ e8 32

/-- R185 answered BAD-LENGTH: each of the two names is a text of no characters, and the silicon revision and the
capacities are at their sentinels. R191 gives a text no sentinel, and R192 does not say that values which no request
supplies are left unreported: the model's choice (assumption 60). -/
def absentIdentFields : Bytes := eNoText ++ eNoText ++ eAbsent 21

/-- R185: a taken PART-IDENT. What a BAD-LENGTH reply reports is the model's choice (assumption 60). -/
def Part.takePartIdent (tag : Byte) (body : Bytes) (p : Part) : Part :=
  match readExact 0 body with
  | none => p.answer .partIdent tag .badLength absentIdentFields
  | some _ => p.answer .partIdent tag .ok identFields

/-- PART_IDENT (R185). -/
def execPartIdent (tag : Byte) (body : Bytes) (s : State) : Host.Outcome State Fault Refusal :=
  .next (s.onPart (Part.request .partIdent tag body (Part.takePartIdent tag body)))

/-! ### PART-STATUS (R186) -/

def ErrorCause.code : ErrorCause → Nat
  | .length => 0 | .gap => 1 | .check => 2 | .overrun => 3

/-- R186: the reported fields. DECK-ALERT is a flag (assumption 50). Whether standby is being entered stands beside the
part state, and no run of the model reports it as set (assumption 58). -/
def Part.statusFields (p : Part) : Bytes :=
  e8 p.state.code ++ eFlag p.link.entering ++ eTime p.time ++ e8 p.mem.state.code ++
    eFlag p.link.linkError ++ o8 (p.link.errorCause.map ErrorCause.code) ++ eFlag p.link.noticeLost ++
    e8 p.link.slots.length ++ e8 p.link.notices.length ++ eFlag p.level.stale ++ e8 p.supply.shed.code ++
    eFlag p.ann.deckAlert

/-- R183, R186: LINK-ERROR, its cause and NOTICE-LOST are cleared. -/
def Part.clearErrors (p : Part) : Part :=
  { p with link := { p.link with linkError := false, errorCause := none, noticeLost := false } }

/-- R186: the errors are cleared by a reply that reports them, not by BAD-LENGTH (assumption 53). -/
def Part.takePartStatus (tag : Byte) (body : Bytes) (p : Part) : Part :=
  match readExact 0 body with
  | none => p.answer .partStatus tag .badLength (eAbsent 15)
  | some _ => (p.answer .partStatus tag .ok p.statusFields).clearErrors

/-- PART_STATUS (R186). -/
def execPartStatus (tag : Byte) (body : Bytes) (s : State) : Host.Outcome State Fault Refusal :=
  .next (s.onPart (Part.request .partStatus tag body (Part.takePartStatus tag body)))

/-! ### PART-RESET, STANDBY and WAKE (R187 to R189) -/

def Part.takePartReset (tag : Byte) (body : Bytes) (p : Part) : Part :=
  match readExact 0 body with
  | none => p.answer .partReset tag .badLength []
  | some _ => p.beginWarmReset

/-- PART_RESET (R187 steps 1 and 2). -/
def execPartReset (tag : Byte) (body : Bytes) (s : State) : Host.Outcome State Fault Refusal :=
  .next (s.onPart (Part.request .partReset tag body (Part.takePartReset tag body)))

def Part.takeStandby (tag : Byte) (body : Bytes) (p : Part) : Part :=
  match readExact 0 body with
  | none => p.answer .standby tag .badLength []
  | some _ =>
    if p.active then p.beginStandby else p.answer .standby tag .wrongState []

/-- STANDBY (R188 steps 1 to 3). -/
def execStandby (tag : Byte) (body : Bytes) (s : State) : Host.Outcome State Fault Refusal :=
  .next (s.onPart (Part.request .standby tag body (Part.takeStandby tag body)))

/-- R9, R54, R189: the memory is taken out of self-refresh and the audio bus begins again. -/
def Part.wake (p : Part) : Part :=
  let p := p.raise (.storeMemory .selfRefresh .initialising)
  { p with mem := p.mem.startUp .wake, bank := { p.bank with busOn := true } }

def Part.takeWake (tag : Byte) (body : Bytes) (p : Part) : Part :=
  match readExact 0 body with
  | none => p.answer .wake tag .badLength []
  | some _ =>
    if p.state = .standby then p.wake.answer .wake tag .ok []
    else p.answer .wake tag .wrongState []

/-- WAKE (R189). -/
def execWake (tag : Byte) (body : Bytes) (s : State) : Host.Outcome State Fault Refusal :=
  .next (s.onPart (Part.request .wake tag body (Part.takeWake tag body)))

/-! ### The receiver and the transmitter (R178, R181) -/

/-- An event of the receiver; none comes about while a cold reset is asserted (R190). -/
def Part.onReceiver (f : Part → Part) (p : Part) : Part := if p.mem.state = .off then p else f p

/-- A frame error of a cause (R178). -/
def Part.frameError (c : ErrorCause) (p : Part) : Part := { p with link := p.link.frameError c }

/-- R178, R179: a complete frame is judged, then accepted or refused. -/
def Part.frameReceived (kind tag : Byte) (body : Bytes) (check : BitVec 16) (p : Part) : Part :=
  if 1040 < body.length then p.frameError .length
  else if check = frameCheck kind tag body then p.accept kind tag body
  else p.frameError .check

/-- FRAME_RECEIVED (R178, R179). -/
def execFrameReceived (kind tag : Byte) (body : Bytes) (check : BitVec 16) (s : State) :
    Host.Outcome State Fault Refusal :=
  .next (s.onPart (Part.onReceiver (Part.frameReceived kind tag body check)))

/-- R178: the length taken exceeds 1,040. The command stands for the start of a frame up to its length, the sync
byte included, so unlike an error found later in a frame it is taken while HUNTING too (assumption 32). -/
def Part.lengthTaken (length : BitVec 16) (p : Part) : Part :=
  if 1040 < length.toNat then p.frameError .length else p

/-- FRAME_LENGTH_ERROR (R178). -/
def execFrameLengthError (length : BitVec 16) (s : State) : Host.Outcome State Fault Refusal :=
  .next (s.onPart (Part.onReceiver (Part.lengthTaken length)))

/-- R178: an error found in a frame: nothing while HUNTING. -/
def Part.errorInFrame (c : ErrorCause) (p : Part) : Part :=
  match p.link.receiver with
  | .hunting => p
  | .inFrame => p.frameError c

/-- FRAME_GAP_TIMEOUT (R178). -/
def execFrameGapTimeout (s : State) : Host.Outcome State Fault Refusal :=
  .next (s.onPart (Part.onReceiver (Part.errorInFrame .gap)))

/-- FRAME_STOP_BIT_ERROR (R178). -/
def execFrameStopBitError (s : State) : Host.Outcome State Fault Refusal :=
  .next (s.onPart (Part.onReceiver (Part.errorInFrame .check)))

/-- R178: a sync byte makes a HUNTING receiver IN-FRAME. -/
def Part.syncReceived (p : Part) : Part := { p with link := { p.link with receiver := .inFrame } }

/-- SYNC_BYTE_RECEIVED (R178). -/
def execSyncByteReceived (s : State) : Host.Outcome State Fault Refusal :=
  .next (s.onPart (Part.onReceiver Part.syncReceived))

/-- R181: the frame in transmission is finished. -/
def Part.frameSent (p : Part) : Part := { p with link := { p.link with transmitting := none } }

/-- TRANSMIT_DONE (R181). -/
def execTransmitDone (s : State) : Host.Outcome State Fault Refusal := .next (s.onPart Part.frameSent)

end Sys2Proof.Machine
end

