-- ==== Sys2Proof/Machine/ListeningLevel.lean ====
section
/-! DEFINITION. The meanings of the Level Unit's requests and of the stale end (08_listening_level.md). -/

namespace Sys2Proof.Machine

/-! ### SPEED (R137, R138) -/

/-- R137 steps 1 and 2: the speed is stored and the stale end moves forward. -/
def LevelUnit.storeSpeed (l : LevelUnit) (now : PartTime) (speed : Nat) : LevelUnit :=
  { l with speed := speed, stale := false, staleEnd := some (later now 10000) }

/-- R137: the speed is taken; the codes follow when the noise term differs. -/
def Part.takeSpeedValue (speed : Nat) (p : Part) : Part :=
  let q := { p with level := p.level.storeSpeed p.time speed }
  if noiseTerm p.level.speed = noiseTerm speed then q else q.recomputeSeats.recomputePa

def Part.takeSpeed (tag : Byte) (body : Bytes) (p : Part) : Part :=
  match readByte body with
  | none => p.answer .speed tag .badLength (eAbsent 1 ++ s8 (-128))
  | some n =>
    let speed := min 150 n
    (p.takeSpeedValue speed).answer .speed tag (clampStatus (decide (150 < n)))
      (e8 speed ++ e8 (noiseTerm speed))

/-- SPEED (R137). -/
def execSpeed (tag : Byte) (body : Bytes) (s : State) : Host.Outcome State Fault Refusal :=
  .next (s.onPart (Part.request .speed tag body (Part.takeSpeed tag body)))

/-- R138: part time reaches the stale end. -/
def Part.speedStale (p : Part) : Part :=
  match p.level.staleEnd with
  | none => p
  | some d =>
    let p := p.reach d
    { p with level := { p.level with staleEnd := none, stale := true } }

/-- SPEED_STALE_EXPIRY (R138). -/
def execSpeedStaleExpiry (s : State) : Host.Outcome State Fault Refusal :=
  .next (s.onPart Part.speedStale)

/-! ### LEVEL-SET (R139) -/

/-- R139: a limit after a field: its present value for KEEP, else the number held to the range. -/
def newLimit (old low high : Int) (field : Option Int) : Int :=
  match field with
  | none => old
  | some x => clampInt low high x

/-- R139: a field was held to its range. -/
def limitClamped (low high : Int) (field : Option Int) : Bool :=
  match field with
  | none => false
  | some x => decide (clampInt low high x ≠ x)

/-- R139: the four limits after the request. -/
def LevelUnit.withLimits (l : LevelUnit) (body : Bytes) : LevelUnit :=
  { l with
    cap := newLimit l.cap (-24) 12 (keepInt body 0)
    safetyFloor := newLimit l.safetyFloor (-40) 0 (keepInt body 1)
    paBase := newLimit l.paBase (-60) 0 (keepInt body 2)
    paCap := newLimit l.paCap (-24) 12 (keepInt body 3) }

/-- R139: whether any field was held. -/
def limitsClamped (body : Bytes) : Bool :=
  limitClamped (-24) 12 (keepInt body 0) || limitClamped (-40) 0 (keepInt body 1) ||
    limitClamped (-60) 0 (keepInt body 2) || limitClamped (-24) 12 (keepInt body 3)

/-- R139: the four limits, as reported. -/
def LevelUnit.fields (l : LevelUnit) : Bytes :=
  s8 l.cap ++ s8 l.safetyFloor ++ s8 l.paBase ++ s8 l.paCap

/-- R139: the limits are written and what the changed ones reach is recomputed. -/
def Part.writeLimits (body : Bytes) (p : Part) : Part :=
  let old := p.level
  let new := old.withLimits body
  let p := { p with level := new }
  let p :=
    if new.cap ≠ old.cap ∨ (new.safetyFloor ≠ old.safetyFloor ∧ old.safetyCondition = true) then
      p.recomputeSeats
    else p
  if new.paBase ≠ old.paBase ∨ new.paCap ≠ old.paCap then p.recomputePa else p

def Part.takeLevelSet (tag : Byte) (body : Bytes) (p : Part) : Part :=
  match readExact 4 body with
  | none => p.answer .levelSet tag .badLength p.level.fields
  | some _ =>
    let q := p.writeLimits body
    q.answer .levelSet tag (clampStatus (limitsClamped body)) q.level.fields

/-- LEVEL_SET (R139). -/
def execLevelSet (tag : Byte) (body : Bytes) (s : State) : Host.Outcome State Fault Refusal :=
  .next (s.onPart (Part.request .levelSet tag body (Part.takeLevelSet tag body)))

end Sys2Proof.Machine
end

