-- ==== Sys2Proof/Machine/ReaderBank.lean ====
section
/-! DEFINITION. The meaning of a sample period (R43 to R46, R51, R52, R54). -/

namespace Sys2Proof.Machine

/-- R43, R51: one sample period: every reader in turn, in ascending reader number (assumption 40), then the bus's frame. The readers' reports are taken
at the command's end (assumption 11). -/
def Part.sampleTick (p : Part) : Part :=
  let (samples, q) := p.samplePeriods (List.finRange 14)
  { q with bank := { q.bank with
      frame := if q.bank.busOn then some (q.busFrame samples) else none } }

/-- SAMPLE_PERIOD (R43). -/
def execSamplePeriod (s : State) : Host.Outcome State Fault Refusal :=
  .next (s.onPart Part.sampleTick)

end Sys2Proof.Machine
end

