-- ==== Sys2Proof/Machine/SeatStrings.lean ====
section
/-! DEFINITION. The meanings of STRING-SET and of the seat strings' events (06_seat_strings.md). -/

namespace Sys2Proof.Machine

/-! ### STRING-SET (R110) -/

/-- R110: the reply fields of a refused STRING-SET. -/
def Part.refusedStringFields (body : Bytes) (p : Part) : Bytes :=
  o8 (named8 body) ++
    match (named8 body).bind (ident 4) with
    | some i => e8 (p.string i).population ++ e8 0 ++ e8 0
    | none => eAbsent 3

def Part.takeStringSet (tag : Byte) (body : Bytes) (p : Part) : Part :=
  let refuse := fun (s : Status) => p.answer .stringSet tag s (p.refusedStringFields body)
  match readExact 2 body with
  | none => refuse .badLength
  | some _ =>
    match ident 4 (b8 body 0) with
    | none => refuse .badValue
    | some i =>
      let x := p.string i
      let new := min 24 (b8 body 1)
      if x.exchange then p.setString i { x with pendingPopulation := some new }
      else
        (p.applyPopulation i new).answer .stringSet tag (clampStatus (decide (24 < b8 body 1)))
          (populationFields i x.population new)

/-- STRING_SET (R110 to R112). -/
def execStringSet (tag : Byte) (body : Bytes) (s : State) : Host.Outcome State Fault Refusal :=
  .next (s.onPart (Part.request .stringSet tag body (Part.takeStringSet tag body)))

/-! ### Events -/

/-- R104: part time reaches the round start plus 20 ms; a SCANNING string between rounds begins one. -/
def Part.roundStarts (i : StringId) (p : Part) : Part :=
  let x := p.string i
  if x.scanning = true ∧ x.roundPosition = none ∧ p.active = true then
    (p.reach x.roundDue).beginRound i
  else p

/-- ROUND_START (R104, R105). -/
def execRoundStart (string : StringId) (s : State) : Host.Outcome State Fault Refusal :=
  .next (s.onPart (Part.roundStarts string))

/-- The seat with which a string has an exchange in progress. -/
def Part.exchangeSeat (i : StringId) (p : Part) : Option SeatId :=
  if (p.string i).exchange then (p.string i).roundPosition.bind (seatAt i) else none

/-- R106, R107: the bytes of an answer. An invalid one, and one with no exchange in progress, is
discarded. -/
def Part.nodeAnswers (i : StringId) (bytes : Bytes) (p : Part) : Part :=
  match p.exchangeSeat i with
  | none => p
  | some k =>
    match readAnswer (positionOf k) bytes with
    | none => p
    | some a => (p.takeAnswer k a).endExchange i

/-- NODE_ANSWER (R106, R107). -/
def execNodeAnswer (string : StringId) (bytes : Bytes) (s : State) :
    Host.Outcome State Fault Refusal :=
  .next (s.onPart (Part.nodeAnswers string bytes))

/-- INVALID_ANSWER (R106): the bytes are discarded and the exchange goes on. -/
def execInvalidAnswer (_string : StringId) (_bytes : Bytes) (s : State) :
    Host.Outcome State Fault Refusal := .next s

/-- R106, R108: the answer timeout expires. -/
def Part.answerTimesOut (i : StringId) (p : Part) : Part :=
  match p.exchangeSeat i with
  | none => p
  | some k => (p.takeMiss k).endExchange i

/-- ANSWER_TIMEOUT (R108). -/
def execAnswerTimeout (string : StringId) (s : State) : Host.Outcome State Fault Refusal :=
  .next (s.onPart (Part.answerTimesOut string))

/-- R111: the last release poll has been sent; the round that waited goes on, or ends when its position has left
the population meanwhile (assumption 51). -/
def Part.releasePollsSent (i : StringId) (p : Part) : Part :=
  let x := p.string i
  if x.releasing = [] then p
  else
    let q := p.setString i { x with releasing := [] }
    if x.exchange then q else q.continueRound i

/-- RELEASE_POLLS_SENT (R111, R104). -/
def execReleasePollsSent (string : StringId) (s : State) : Host.Outcome State Fault Refusal :=
  .next (s.onPart (Part.releasePollsSent string))

end Sys2Proof.Machine
end

