-- ==== Sys2Proof/Machine/Sockets.lean ====
section
/-! DEFINITION. The meanings of the seat requests and of the sockets' timers (07_headset_sockets.md). -/

namespace Sys2Proof.Machine

/-- The seat that a body's first byte names. -/
def namedSeat (body : Bytes) : Option SeatId := (named8 body).bind (ident 96)

/-! ### SEAT-SET (R132) -/

/-- R132: the seats treated, ascending: one, or all 96 for 255. -/
def treatedSeats (x : Nat) : Option (List SeatId) :=
  if x = 255 then some (List.finRange 96) else (ident 96 x).map fun i => [i]

/-- R132: a seat's language and volume are changed as a press would change them. -/
def Part.setChoice (l : Lang) (v : Nat) (i : SeatId) (p : Part) : Part :=
  (p.changeLanguage i l).changeVolume i v

/-- R132: the request's language or volume differs from the seat's. -/
def Seat.differs (s : Seat) (l : Lang) (v : Nat) : Bool :=
  decide (s.language ≠ l) || decide (s.volume ≠ v)

def Part.takeSeatSet (tag : Byte) (body : Bytes) (p : Part) : Part :=
  let refuse := fun (s : Status) =>
    p.answer .seatSet tag s (o8 (named8 body) ++
      match (named8 body).bind treatedSeats with
      | some _ => e8 0
      | none => eAbsent 1)
  match readExact 3 body with
  | none => refuse .badLength
  | some _ =>
    match treatedSeats (b8 body 0), ident 12 (b8 body 1) with
    | some seats, some l =>
      if (p.language l).enabled then
        let v := min 15 (b8 body 2)
        let changed := seats.filter fun i => (p.seat i).differs l v
        (seats.foldl (fun q i => q.setChoice l v i) p).answer .seatSet tag
          (clampStatus (decide (15 < b8 body 2))) (o8 (named8 body) ++ e8 changed.length)
      else refuse .badValue
    | _, _ => refuse .badValue

/-- SEAT_SET (R132). -/
def execSeatSet (tag : Byte) (body : Bytes) (s : State) : Host.Outcome State Fault Refusal :=
  .next (s.onPart (Part.request .seatSet tag body (Part.takeSeatSet tag body)))

/-! ### SEAT-QUERY (R133) -/

def Indication.code : Indication → Nat
  | .empty => 0 | .headset => 1 | .leak => 2

/-- R119, R191: a power command: ON is 0, OFF is 1. -/
def powerCode (on : Bool) : Nat := if on then 0 else 1

/-- R133: the indication run, or absent (assumption 55). -/
def runFields : Option (Indication × Nat) → Bytes
  | none => eAbsent 2
  | some (x, n) => e8 x.code ++ e8 n

/-- R133: the fault record, or absent (assumption 55). -/
def faultFields : Option FaultRecord → Bytes
  | none => eAbsent 1 ++ oTime none ++ eAbsent 4
  | some f => e8 f.reason.code ++ oTime (some f.time) ++ e16 f.sample ++ e16 f.average

/-- R133: the reported fields of a seat record; a count byte stands before the fault history (assumption 14). -/
def Part.seatFields (i : SeatId) (p : Part) : Bytes :=
  let s := p.seat i
  let k := s.socket
  e8 (stringOf i).val ++ e8 (positionOf i) ++ e8 s.node.code ++ e8 s.missCount ++
    e8 s.language.val ++ e8 s.volume ++ [s.pending.byte, s.acknowledged.byte] ++ e8 s.ledMode.code ++
    e8 k.state.code ++ e8 (powerCode (s.powerCommand p.supply.shed)) ++ e8 (powerCode k.ackOn) ++
    o16 (k.settleEnd.map (remaining p.time)) ++ o16 (k.coolEnd.map (remaining p.time)) ++
    o16 k.average ++ e16 k.peak ++ e16 k.lastSample ++ runFields k.run ++ faultFields k.fault ++
    e8 k.history.length ++ k.history.flatMap eTime

/-- R133 with no seat named. -/
def absentSeatFields : Bytes := eAbsent 24 ++ faultFields none ++ e8 0

/-- R133: the peak becomes 0. -/
def Part.clearPeak (i : SeatId) (p : Part) : Part :=
  p.setSocket i { (p.seat i).socket with peak := 0 }

/-- R133: a taken SEAT-QUERY; the peak setting is 0 for CLEAR and 1 for KEEP (assumption 45). -/
def Part.takeSeatQuery (tag : Byte) (body : Bytes) (p : Part) : Part :=
  let reply := fun (s : Status) =>
    p.answer .seatQuery tag s (match namedSeat body with
      | some i => p.seatFields i
      | none => absentSeatFields)
  match readExact 2 body with
  | none => reply .badLength
  | some _ =>
    match ident 96 (b8 body 0), oneOfTwo (b8 body 1) with
    | some i, some keep => if keep then reply .ok else (reply .ok).clearPeak i
    | _, _ => reply .badValue

/-- SEAT_QUERY (R133). -/
def execSeatQuery (tag : Byte) (body : Bytes) (s : State) : Host.Outcome State Fault Refusal :=
  .next (s.onPart (Part.request .seatQuery tag body (Part.takeSeatQuery tag body)))

/-! ### SEAT-RELEASE (R134) -/

/-- R134: the seat and its socket state. -/
def Part.releaseFields (body : Bytes) (p : Part) : Bytes :=
  o8 (named8 body) ++
    match namedSeat body with
    | some i => e8 (p.seat i).socket.state.code
    | none => eAbsent 1

/-- R134: a locked-out socket is released. -/
def Part.releaseSocket (i : SeatId) (p : Part) : Part :=
  (p.setSocket i { (p.seat i).socket with state := .unpowered, history := [] }).seatNotice i

def Part.takeSeatRelease (tag : Byte) (body : Bytes) (p : Part) : Part :=
  let reply := fun (s : Status) (p : Part) => p.answer .seatRelease tag s (p.releaseFields body)
  match readByte body with
  | none => reply .badLength p
  | some n =>
    match ident 96 n with
    | none => reply .badValue p
    | some i =>
      if (p.seat i).socket.state = .lockedOut then reply .ok (p.releaseSocket i)
      else reply .wrongState p

/-- SEAT_RELEASE (R134). -/
def execSeatRelease (tag : Byte) (body : Bytes) (s : State) : Host.Outcome State Fault Refusal :=
  .next (s.onPart (Part.request .seatRelease tag body (Part.takeSeatRelease tag body)))

/-! ### Timers (R124, R128) -/

/-- R124: part time reaches a socket's settle end. -/
def Part.settleEnds (i : SeatId) (p : Part) : Part :=
  let k := (p.seat i).socket
  match k.settleEnd with
  | none => p
  | some d => (p.reach d).setSocket i { k with settleEnd := none, classifying := true }

/-- SETTLE_END (R124). -/
def execSettleEnd (seat : SeatId) (s : State) : Host.Outcome State Fault Refusal :=
  .next (s.onPart (Part.settleEnds seat))

/-- R128: part time reaches a FAULTED socket's cool-down end. -/
def Part.coolDownEnds (i : SeatId) (p : Part) : Part :=
  let k := (p.seat i).socket
  match k.coolEnd with
  | none => p
  | some d =>
    let state := if p.supply.shed = .critical then SocketState.unpowered else .settling
    ((p.reach d).setSocket i { k with coolEnd := none, state := state }).seatNotice i

/-- COOL_DOWN_END (R128). -/
def execCoolDownEnd (seat : SeatId) (s : State) : Host.Outcome State Fault Refusal :=
  .next (s.onPart (Part.coolDownEnds seat))

end Sys2Proof.Machine
end

