-- ==== Sys2Proof/Machine/SupplyMonitor.lean ====
section
/-! DEFINITION. The meanings of the Supply Monitor's requests and samples (09_deck_supply_monitor.md). -/

namespace Sys2Proof.Machine

/-! ### Samples (R149 to R155) -/

/-- R149, R151, R153: the voltage sample at the half-way point of the interval. -/
def Part.voltageSample (mV : Nat) (p : Part) : Part :=
  if p.supply.running then
    let p := p.reach p.supply.halfWay
    Part.findShed { p with supply := (p.supply.takeVoltage mV).judgeVoltageNow }
  else p

/-- VOLTAGE_SAMPLE (R149, R151, R153, R155). -/
def execVoltageSample (mV : Nat) (s : State) : Host.Outcome State Fault Refusal :=
  .next (s.onPart (Part.voltageSample mV))

/-- R150, R166: a zone's output is, or was since `start`, on at a level: it is driven at the level now, or it left
the level since, by a fade step, a ZONE-SET, a fault or any other change however many of them there were
(assumption 18). -/
def Part.litAt (p : Part) (z : ZoneId) (start : PartTime) (level : Nat) : Bool :=
  decide (1 ≤ level) &&
    (decide (level = p.zoneOutput z) || (tfind (p.zone z).leftAt level).any (within start p.time))

/-- R150: a zone's output is, or was at some time since `start`, on at any level. -/
def Part.litSince (p : Part) (z : ZoneId) (start : PartTime) : Bool :=
  decide (1 ≤ p.zoneOutput z) || (p.zone z).leftAt.any fun x => within start p.time x.2

/-- R149 to R152, R154: the deck current sample at the end of the interval; the next one begins. Whether the zone
of the interval was lit within it is read before the sample is judged, since a level that the judgement changes is
one of the next interval. -/
def Part.currentSample (mA : Nat) (p : Part) : Part :=
  if p.supply.running then
    let p := p.reach p.supply.intervalEnd
    let lit := p.litSince p.supply.zoneIndex p.supply.intervalStart
    let p := Part.findShed { p with supply := (p.supply.takeCurrent mA).judgeCurrentNow }
    { p with supply := p.supply.nextInterval lit }
  else p

/-- CURRENT_SAMPLE (R149 to R152, R154, R155). -/
def execCurrentSample (mA : Nat) (s : State) : Host.Outcome State Fault Refusal :=
  .next (s.onPart (Part.currentSample mA))

/-- R150: a zone's conversion can give a sample at a level: it has begun and given no sample yet, and the zone's
output has been on at the level since the start of its interval. -/
def Part.samplesAt (p : Part) (z : ZoneId) (level : Nat) : Bool :=
  p.supply.running && (vget p.supply.conversions z).any fun start => p.litAt z start level

/-- R150, R166, R169: the first sample of a zone's conversion, at the end of the first on-phase that begins within
the zone's interval, be it in the interval or in the next one, when the on-phase outlasts it. It is stored for that
zone with the level at which its output was driven in the on-phase, one that a change has ended too, and handed on
for judgement, which discards it when the zone has come to be disabled or in SHORT. A sample of a zone without a
conversion under way, or of a level at which its output has not been on since the conversion began, is none of the
part's (assumption 18). -/
def Part.zoneSample (z : ZoneId) (mA level : Nat) (p : Part) : Part :=
  if p.samplesAt z level then
    let c := min 60000 mA
    Part.judgeZone z c level { p with supply := p.supply.storeSample z ⟨c, level⟩ }
  else p

/-- ZONE_SAMPLE (R150, R166, R169 to R171; assumption 18). -/
def execZoneSample (current : ZoneCurrent) (level : Nat) (s : State) : Host.Outcome State Fault Refusal :=
  .next (s.onPart (Part.zoneSample current.zone current.mA level))

/-! ### SUPPLY-SET (R156) -/

/-- R156: a scan interval as stored. -/
def storedScan (x : Nat) : Nat := if x ≤ 10 then 10 else if x ≤ 20 then 20 else 40

/-- R156: a field held to its range; its present value for KEEP. -/
def heldField (old low high : Nat) (field : Option Nat) : Nat :=
  match field with
  | none => old
  | some x => clampNat low high x

/-- R156: a field was held. -/
def fieldClamped (low high : Nat) (field : Option Nat) : Bool :=
  match field with
  | none => false
  | some x => decide (clampNat low high x ≠ x)

/-- R156: the pair Vlow, Vcrit as checked. -/
def checkPair (vLow vCrit : Nat) : Nat × Nat :=
  if vLow ≤ vCrit then (if vLow < 16500 then (16500, 16000) else (vLow, vLow - 500))
  else (vLow, vCrit)

/-- R156: Vlow and Vcrit after their fields, before the pair is checked. -/
def Supply.givenPair (s : Supply) (body : Bytes) : Nat × Nat :=
  (heldField s.vLow 16000 30000 (keep16 body 0), heldField s.vCrit 16000 30000 (keep16 body 2))

/-- R156: the five settings after the request. -/
def Supply.withSettings (s : Supply) (body : Bytes) : Supply :=
  let pair := checkPair (s.givenPair body).1 (s.givenPair body).2
  { s with
    vLow := pair.1
    vCrit := pair.2
    budget := heldField s.budget 1000 60000 (keep16 body 4)
    scan := (match keep8 body 6 with | none => s.scan | some x => storedScan x)
    shift := heldField s.shift 1 4 (keep8 body 7) }

/-- R156: whether the reply is CLAMPED. -/
def Supply.settingsClamped (s : Supply) (body : Bytes) : Bool :=
  fieldClamped 16000 30000 (keep16 body 0) || fieldClamped 16000 30000 (keep16 body 2) ||
    fieldClamped 1000 60000 (keep16 body 4) || fieldClamped 1 4 (keep8 body 7) ||
    (keep8 body 6).any (fun x => decide (storedScan x ≠ x)) ||
    decide (checkPair (s.givenPair body).1 (s.givenPair body).2 ≠ s.givenPair body)

/-- R156, R157: the five settings, as reported. -/
def Supply.settingFields (s : Supply) : Bytes :=
  e16 s.vLow ++ e16 s.vCrit ++ e16 s.budget ++ e8 s.scan ++ e8 s.shift

/-- R155, R156: the present voltage average is judged and the shed state found again. -/
def Part.rejudgeVoltage (p : Part) : Part := Part.findShed { p with supply := p.supply.judgeVoltageNow }

/-- R155, R156: the present current average is judged and the shed state found again. -/
def Part.rejudgeCurrent (p : Part) : Part := Part.findShed { p with supply := p.supply.judgeCurrentNow }

/-- R156: the settings are written; a changed threshold and a changed budget each judge the present average
once, and the shed state is found after each of the two (R155; assumption 47), and at the end. -/
def Part.writeSettings (body : Bytes) (p : Part) : Part :=
  let old := p.supply
  let new := old.withSettings body
  let q := { p with supply := new }
  let q := if new.vLow ≠ old.vLow ∨ new.vCrit ≠ old.vCrit then q.rejudgeVoltage else q
  (if new.budget ≠ old.budget then q.rejudgeCurrent else q).findShed

def Part.takeSupplySet (tag : Byte) (body : Bytes) (p : Part) : Part :=
  match readExact 8 body with
  | none => p.answer .supplySet tag .badLength p.supply.settingFields
  | some _ =>
    let q := p.writeSettings body
    q.answer .supplySet tag (clampStatus (p.supply.settingsClamped body)) q.supply.settingFields

/-- SUPPLY_SET (R156). -/
def execSupplySet (tag : Byte) (body : Bytes) (s : State) : Host.Outcome State Fault Refusal :=
  .next (s.onPart (Part.request .supplySet tag body (Part.takeSupplySet tag body)))

/-! ### SUPPLY-QUERY and SUPPLY-PEAK-CLEAR (R157, R158) -/

/-- R157: a zone's latest sample with its level, or absent (assumption 55). -/
def zoneSampleFields : Option ZoneSample → Bytes
  | none => eAbsent 3
  | some x => e16 x.mA ++ e8 x.level

/-- R157: the reported fields. -/
def Supply.fields (s : Supply) : Bytes :=
  s.settingFields ++ o16 s.lastVoltage ++ o16 s.lastCurrent ++ o16 s.voltageAverage ++
    o16 s.currentAverage ++ e16 s.peak ++ e8 s.voltageState.code ++ eFlag s.currentLow ++
    e8 s.shed.code ++ s.zoneSamples.toList.flatMap zoneSampleFields

def Part.takeSupplyQuery (tag : Byte) (body : Bytes) (p : Part) : Part :=
  match readExact 0 body with
  | none => p.answer .supplyQuery tag .badLength (eAbsent 45)
  | some _ => p.answer .supplyQuery tag .ok p.supply.fields

/-- SUPPLY_QUERY (R157). -/
def execSupplyQuery (tag : Byte) (body : Bytes) (s : State) : Host.Outcome State Fault Refusal :=
  .next (s.onPart (Part.request .supplyQuery tag body (Part.takeSupplyQuery tag body)))

def Part.takeSupplyPeakClear (tag : Byte) (body : Bytes) (p : Part) : Part :=
  match readExact 0 body with
  | none => p.answer .supplyPeakClear tag .badLength (eAbsent 2)
  | some _ =>
    Part.answer .supplyPeakClear tag .ok (e16 p.supply.peak)
      { p with supply := { p.supply with peak := 0 } }

/-- SUPPLY_PEAK_CLEAR (R158). -/
def execSupplyPeakClear (tag : Byte) (body : Bytes) (s : State) : Host.Outcome State Fault Refusal :=
  .next (s.onPart (Part.request .supplyPeakClear tag body (Part.takeSupplyPeakClear tag body)))

end Sys2Proof.Machine
end

