-- ==== Sys2Proof/Machine/Dispatch.lean ====
section
/-! DEFINITION. The dispatch: one arm per command, each one direct call of its meaning. -/

namespace Sys2Proof.Machine

def exec (i : Instr) (s : State) : Host.Outcome State Fault Refusal :=
  match i with
  | .clipOpen tag body => Sys2Proof.Machine.execClipOpen tag body s
  | .clipFill tag body => Sys2Proof.Machine.execClipFill tag body s
  | .clipClose tag body => Sys2Proof.Machine.execClipClose tag body s
  | .clipDrop tag body => Sys2Proof.Machine.execClipDrop tag body s
  | .clipDelete tag body => Sys2Proof.Machine.execClipDelete tag body s
  | .clipQuery tag body => Sys2Proof.Machine.execClipQuery tag body s
  | .storeQuery tag body => Sys2Proof.Machine.execStoreQuery tag body s
  | .storeCheck tag body => Sys2Proof.Machine.execStoreCheck tag body s
  | .langSet tag body => Sys2Proof.Machine.execLangSet tag body s
  | .reelSet tag body => Sys2Proof.Machine.execReelSet tag body s
  | .reelClear tag body => Sys2Proof.Machine.execReelClear tag body s
  | .cue tag body => Sys2Proof.Machine.execCue tag body s
  | .streamQuery tag body => Sys2Proof.Machine.execStreamQuery tag body s
  | .setDefine tag body => Sys2Proof.Machine.execSetDefine tag body s
  | .setRemove tag body => Sys2Proof.Machine.execSetRemove tag body s
  | .announce tag body => Sys2Proof.Machine.execAnnounce tag body s
  | .announceCancel tag body => Sys2Proof.Machine.execAnnounceCancel tag body s
  | .queueQuery tag body => Sys2Proof.Machine.execQueueQuery tag body s
  | .stringSet tag body => Sys2Proof.Machine.execStringSet tag body s
  | .seatSet tag body => Sys2Proof.Machine.execSeatSet tag body s
  | .seatQuery tag body => Sys2Proof.Machine.execSeatQuery tag body s
  | .seatRelease tag body => Sys2Proof.Machine.execSeatRelease tag body s
  | .speed tag body => Sys2Proof.Machine.execSpeed tag body s
  | .levelSet tag body => Sys2Proof.Machine.execLevelSet tag body s
  | .supplySet tag body => Sys2Proof.Machine.execSupplySet tag body s
  | .supplyQuery tag body => Sys2Proof.Machine.execSupplyQuery tag body s
  | .supplyPeakClear tag body => Sys2Proof.Machine.execSupplyPeakClear tag body s
  | .zoneSet tag body => Sys2Proof.Machine.execZoneSet tag body s
  | .sceneSet tag body => Sys2Proof.Machine.execSceneSet tag body s
  | .sceneSelect tag body => Sys2Proof.Machine.execSceneSelect tag body s
  | .lightcueSet tag body => Sys2Proof.Machine.execLightcueSet tag body s
  | .deckQuery tag body => Sys2Proof.Machine.execDeckQuery tag body s
  | .partIdent tag body => Sys2Proof.Machine.execPartIdent tag body s
  | .partStatus tag body => Sys2Proof.Machine.execPartStatus tag body s
  | .partReset tag body => Sys2Proof.Machine.execPartReset tag body s
  | .standby tag body => Sys2Proof.Machine.execStandby tag body s
  | .wake tag body => Sys2Proof.Machine.execWake tag body s
  | .coldReset => Sys2Proof.Machine.execColdReset s
  | .coldResetEnd => Sys2Proof.Machine.execColdResetEnd s
  | .startupPauseEnd => Sys2Proof.Machine.execStartupPauseEnd s
  | .startupRefreshDone => Sys2Proof.Machine.execStartupRefreshDone s
  | .modeSettingDone => Sys2Proof.Machine.execModeSettingDone s
  | .refreshIntervalExpiry => Sys2Proof.Machine.execRefreshIntervalExpiry s
  | .arbiterGrant => Sys2Proof.Machine.execArbiterGrant s
  | .refreshDone => Sys2Proof.Machine.execRefreshDone s
  | .readerReadCompletion reader => Sys2Proof.Machine.execReaderReadCompletion reader s
  | .loaderWriteCompletion => Sys2Proof.Machine.execLoaderWriteCompletion s
  | .closeWriteCompletion => Sys2Proof.Machine.execCloseWriteCompletion s
  | .checkerTransferCompletion equal => Sys2Proof.Machine.execCheckerTransferCompletion equal s
  | .selfRefreshEntered => Sys2Proof.Machine.execSelfRefreshEntered s
  | .warmResetComplete => Sys2Proof.Machine.execWarmResetComplete s
  | .fillPageWaitEnd => Sys2Proof.Machine.execFillPageWaitEnd s
  | .samplePeriod => Sys2Proof.Machine.execSamplePeriod s
  | .announceEntryExpiry set => Sys2Proof.Machine.execAnnounceEntryExpiry set s
  | .tailEnd => Sys2Proof.Machine.execTailEnd s
  | .roundStart string => Sys2Proof.Machine.execRoundStart string s
  | .nodeAnswer string bytes => Sys2Proof.Machine.execNodeAnswer string bytes s
  | .invalidAnswer string bytes => Sys2Proof.Machine.execInvalidAnswer string bytes s
  | .answerTimeout string => Sys2Proof.Machine.execAnswerTimeout string s
  | .settleEnd seat => Sys2Proof.Machine.execSettleEnd seat s
  | .coolDownEnd seat => Sys2Proof.Machine.execCoolDownEnd seat s
  | .speedStaleExpiry => Sys2Proof.Machine.execSpeedStaleExpiry s
  | .voltageSample mV => Sys2Proof.Machine.execVoltageSample mV s
  | .currentSample mA => Sys2Proof.Machine.execCurrentSample mA s
  | .zoneSample current level => Sys2Proof.Machine.execZoneSample current level s
  | .fadeStep zone => Sys2Proof.Machine.execFadeStep zone s
  | .flashHalfBoundary zone => Sys2Proof.Machine.execFlashHalfBoundary zone s
  | .frameReceived kind tag body check => Sys2Proof.Machine.execFrameReceived kind tag body check s
  | .frameLengthError length => Sys2Proof.Machine.execFrameLengthError length s
  | .frameGapTimeout => Sys2Proof.Machine.execFrameGapTimeout s
  | .transmitDone => Sys2Proof.Machine.execTransmitDone s
  | .syncByteReceived => Sys2Proof.Machine.execSyncByteReceived s
  | .frameStopBitError => Sys2Proof.Machine.execFrameStopBitError s
  | .releasePollsSent string => Sys2Proof.Machine.execReleasePollsSent string s

end Sys2Proof.Machine
end

