-- ==== Sys2Proof/Machine/Step.lean ====
section
/-! DEFINITION. One step of the machine: the command at the front of the queue, or one millisecond of part
time when none waits (assumption 3). -/

namespace Sys2Proof.Machine

/-- An idle step: part time advances by 1 ms. It stands at 0 while a cold reset is asserted. -/
def State.idle (s : State) : State :=
  if s.part.mem.state = .off then s
  else { s with part := { s.part with time := s.part.time + 1 } }

/-- One step: the front command's meaning on the state with the rest of the queue. -/
def step (s : State) : Host.Outcome State Fault Refusal :=
  match s.pending with
  | [] => .next s.idle
  | c :: rest => exec c { s with pending := rest }

/-- The state with the command that a word spells put at the front of its queue; unchanged where the word
spells none. -/
def State.withFetchWord (s : State) (nbits w : Nat) : State :=
  match decodeTableWord nbits w with
  | some c => { s with pending := c :: s.pending }
  | none => s

end Sys2Proof.Machine
end

