-- ==== Sys2Proof/Safety.lean ====
section
/-! DEFINITION. What counts as a safe state and a safe run, and the terms in which the statements speak of
a request that is taken and of the reply that it gets. -/

namespace Sys2Proof.Machine

/-! ### Safe runs -/

/-- The outcome is a next state: the machine has not stopped. -/
def goesOn (o : Host.Outcome State Fault Refusal) : Prop := ∃ t, o = .next t

/-- No report of a reader waits for its owner: so between any two commands (R37, R71, R89). -/
abbrev State.quiet (s : State) : Prop := s.part.bank.reports = []

/-- R179, R182: at most 4 slots are occupied, 8 refusals and 32 notices wait. -/
abbrev Link.bounded (l : Link) : Prop :=
  l.slots.length ≤ 4 ∧ l.refusals.length ≤ 8 ∧ l.notices.length ≤ 32

/-- A gain code is MUTE or 0 to 72 (00_scope.md, "Levels"). -/
def GainCode.inRange : GainCode → Bool
  | .mute => true
  | .code n => decide (n ≤ 72)

/-- R139: the four limits are in their ranges. -/
abbrev LevelUnit.limitsInRange (l : LevelUnit) : Prop :=
  (-24 ≤ l.cap ∧ l.cap ≤ 12) ∧ (-40 ≤ l.safetyFloor ∧ l.safetyFloor ≤ 0) ∧
    (-60 ≤ l.paBase ∧ l.paBase ≤ 0) ∧ (-24 ≤ l.paCap ∧ l.paCap ≤ 12)

/-- Every gain code of the part is in its range: a seat's pending, acknowledged and carried code, the PA
code, and the code of the last poll on a string. -/
abbrev Part.codesInRange (p : Part) : Prop :=
  p.level.limitsInRange ∧ p.level.paCode.inRange = true ∧
    (∀ i : SeatId, (p.seat i).pending.inRange = true ∧ (p.seat i).acknowledged.inRange = true ∧
      (p.seat i).carried.all (fun c => c.2.inRange) = true) ∧
    ∀ i : StringId, (p.string i).lastPoll.all (fun q => q.gain.inRange) = true

/-- R98: DECK-ALERT is asserted while a SAFETY announcement is in the Playing Record or a SAFETY zone is in
fault, and at no other time. -/
abbrev Part.alertRight (p : Part) : Prop :=
  p.ann.deckAlert = (p.ann.safetyPlaying || p.ann.safetyFault) ∧
    p.ann.safetyFault = p.light.safetyFault

/-- R163, R164: every zone's target is its effective level. -/
abbrev Part.targetsRight (p : Part) : Prop := ∀ z : ZoneId, (p.zone z).target = p.light.effective z

/-- R148, R156: the five settings are in their ranges and Vcrit lies below Vlow. -/
abbrev Supply.settingsRight (s : Supply) : Prop :=
  (s.scan = 10 ∨ s.scan = 20 ∨ s.scan = 40) ∧ (1 ≤ s.shift ∧ s.shift ≤ 4) ∧
    (16000 ≤ s.vCrit ∧ s.vCrit < s.vLow ∧ s.vLow ≤ 30000) ∧ (1000 ≤ s.budget ∧ s.budget ≤ 60000)

/-- R155, R140, R163: the shed state is the worse of the two judgements, and the Level Unit and the Lighting
Controller hold it. -/
abbrev Part.shedRight (p : Part) : Prop :=
  p.supply.shed = worse p.supply.voltageState p.supply.currentLow ∧
    p.level.shed = p.supply.shed.reduction ∧ p.light.shed = p.supply.shed

/-- R103: every seat's volume is 0 to 15. -/
abbrev Part.volumesInRange (p : Part) : Prop := ∀ i : SeatId, (p.seat i).volume ≤ 15

/-- The invariants of the model together. -/
structure State.Safe (s : State) : Prop where
  memory : Memory.wf s.dram = true
  quiet : s.quiet
  link : s.part.link.bounded
  codes : s.part.codesInRange
  alert : s.part.alertRight
  targets : s.part.targetsRight
  settings : s.part.supply.settingsRight
  shed : s.part.shedRight
  volumes : s.part.volumesInRange

/-! ### Levels that follow their targets, as the statements speak of them -/

/-- A zone whose output is driven at a level from `now` on: the level that it leaves, if it was on, is kept with the
time of the change, for a sample whose on-phase the change ended (R150, R166; assumption 18). -/
def Zone.drivenAt (x : Zone) (now : PartTime) (level : Nat) : Zone :=
  { x with
    level := level
    leftAt := if 1 ≤ x.level ∧ x.level ≠ level then tput x.leftAt x.level now else x.leftAt }

/-- A zone that goes dark at once: disabled, or with a fault that gives the target 0 (R171, R172). -/
def Zone.darkenedAt (x : Zone) (now : PartTime) : Zone :=
  { x.drivenAt now 0 with target := 0, stepDue := none }

/-- R165: a zone whose level fades to a target: a SAFETY zone below its minimum is first raised to it, and with a
step interval of 0 the level is the target at once. -/
def Zone.fadedTo (x : Zone) (now : PartTime) (interval target : Nat) : Zone :=
  let level := if x.safety = true ∧ x.level < x.minimum ∧ 1 ≤ target then x.minimum else x.level
  { x.drivenAt now (if interval = 0 then target else level) with
    target := target
    stepDue := if level = target ∨ interval = 0 then none else some (later now interval) }

/-- R164, R165: a zone whose target has been recomputed with its level following by fading. A target that it has
already changes neither the level nor a fade, but for the raise of a SAFETY zone to its minimum (assumption 27). -/
def Zone.recomputedTo (x : Zone) (now : PartTime) (interval target : Nat) : Zone :=
  if target = x.target then
    let level := if x.safety = true ∧ x.level < x.minimum ∧ 1 ≤ target then x.minimum else x.level
    { x.drivenAt now level with stepDue := if level = target then none else x.stepDue }
  else x.fadedTo now interval target

/-! ### An announcement's parts, as the statements speak of them -/

/-- The enabled languages, by rising slot. -/
def Part.enabledLangs (p : Part) : List Lang :=
  (List.finRange 12).filter fun l => (p.language l).enabled

/-- The clip that a set names for a language. -/
def AnnSet.clipNamed (y : AnnSet) (l : Lang) : Option ClipId :=
  (y.items.find? fun i => decide (i.1 = l)).map Prod.snd

/-- R88: the clip that a language speaks in a repetition of a set: its own, else its fallback's, else the default. -/
def Part.spokenClip (y : AnnSet) (l : Lang) (p : Part) : ClipId :=
  ((y.clipNamed l).or ((p.language l).fallback.bind y.clipNamed)).getD y.defaultClip

/-- R88: the clip that the PA speaks: the set's PA clip, else the PA language's. -/
def Part.spokenPaClip (y : AnnSet) (p : Part) : ClipId :=
  y.paClip.getD (p.spokenClip y (p.lang.pa.getD p.lang.default))

/-- Every clip that a set names is READY with a sample, and its hold count leaves room for all 13 parts. -/
abbrev Part.clipsReady (y : AnnSet) (p : Part) : Prop :=
  ∀ c ∈ y.namedClips, (p.clip c).state = .ready ∧ 2 ≤ (p.clip c).loaded ∧ (p.clip c).hold ≤ 2

/-- The channel readers and the PA reader belong to the announcement and hold no clip. -/
abbrev Part.speechReadersIdle (p : Part) : Prop :=
  ∀ o : ReaderId, o.val ≤ 12 → (p.reader o).owner = .announcement ∧ (p.reader o).clip = none

/-- A reader of the announcement primes on a clip from its first sample (R39). -/
abbrev Reader.primes (c : ClipId) (x : Reader) : Prop :=
  x.state = .priming ∧ x.clip = some c ∧ x.position = 0 ∧ x.owner = .announcement

/-- R87, R88: a repetition of a set has started from a part's languages: the reader of each enabled language primes on
its clip, and the PA reader on the PA's. -/
abbrev Part.speaksFor (y : AnnSet) (q before : Part) : Prop :=
  (∀ l, (before.language l).enabled = true →
    (q.reader (chan l)).primes (before.spokenClip y l)) ∧
  (q.reader 12).primes (before.spokenPaClip y)

/-- R97: what the Level Unit has been told of the announcement. -/
abbrev LevelUnit.told (cls : SetClass) (phase : Phase) (lift : Nat) (u : LevelUnit) : Prop :=
  u.cls = some cls ∧ u.phase = some phase ∧ u.lift = lift

/-! ### Requests as the statements speak of them -/

/-- The link after a request has arrived: unchanged when the request stands in a slot already (R179;
assumption 2). -/
def Part.offered (k : Kind) (tag : Byte) (body : Bytes) (p : Part) : Link :=
  if p.link.pendingRequest k tag body then p.link else (p.accept k.byte tag body).link

/-- R180: the request can be taken by its block now. -/
abbrev Part.canTake (k : Kind) (tag : Byte) (body : Bytes) (p : Part) : Prop :=
  p.mem.state ≠ .off ∧ (p.offered k tag body).next k tag body = true

/-- The link once the request has been taken by its block. -/
def Part.takenLink (k : Kind) (tag : Byte) (body : Bytes) (p : Part) : Link :=
  { p.offered k tag body with slots := setProgress tag .taken (p.offered k tag body).slots }

/-- The link once the taken request has been answered, with an idle transmitter served (R180, R181). -/
def Part.repliedLink (k : Kind) (tag : Byte) (body : Bytes) (status : Status) (fields : Bytes)
    (p : Part) : Link :=
  ((p.takenLink k tag body).answer k tag (status.byte :: fields)).pump

/-- The part with an idle transmitter served: what a command that changes nothing leaves (R181). -/
def Part.served (p : Part) : Part := { p with link := p.link.pump }

/-- A notice raised on a link at a part time: none during a warm reset (R182, R187 step 4). -/
def Link.noted (n : Notice) (t : PartTime) (l : Link) : Link :=
  if l.resetting then l else l.enter ⟨n, t⟩

end Sys2Proof.Machine
end

