-- ==== Sys2Proof/Certificates/Slice0/Obligations.lean ====
section
/-! DEFINITION. The statements for the provers: what each command of the TD-96 does, what it leaves alone,
and what every step keeps. A docstring ends with the entries of the assumption log on which the statement rests
beside the rules that it names: there the model, and not the specification, has chosen. -/

open Sys2Proof Sys2Proof.Machine

/-! ### The machine -/

/-- A step takes the command at the front of the queue and is that command's meaning on the state with the
queue's rest. On an empty queue, by the model's choice (assumption 3), one millisecond of part time passes, and
none while a cold reset is asserted. -/
def Obligations.StepRunsFrontCommandOrIdles : Prop :=
  ∀ s : State,
    (∀ (c : Instr) (rest : List Instr), s.pending = c :: rest →
      step s = exec c { s with pending := rest }) ∧
    (s.pending = [] → ∃ t, step s = .next t ∧ t.dram = s.dram ∧ t.pending = [] ∧
      t.part = { s.part with
        time := if s.part.mem.state = .off then s.part.time else s.part.time + 1 })

/-- The state after reset: every block at the cold values that its rule gives (R2, R10, R16, R18 to R20, R37,
R53, R55, R78, R98, R102, R103, R119, R136, R148, R160 to R163, R190), and every invariant that the steps keep.
Model's choices: assumptions 4, 17, 18 and 37. -/
def Obligations.ResetLeavesColdValues : Prop :=
  let p := State.reset.part
  State.reset.pending = [] ∧ State.reset.dram = [] ∧
  p.mem = { state := .off, row := 0, owed := 0, ring := 15, origin := .cold, stage := .none
            device := .idle, waiting := Vector.replicate 16 false } ∧
  ((∀ c, p.clip c =
      { state := .free, declared := none, threshold := 0, loaded := 0, pageCount := 0
        firstPage := none, lastPage := none, marks := [], hold := 0, setRefs := 0, sent := false
        cause := none }) ∧
    (∀ n, p.pageEntry n = { state := .free, owner := none, index := none, next := none }) ∧
    runsPages p.store.freeList = List.range 65536 ∧ p.store.withdrawnSet = [] ∧
    (p.store.check.running = false ∧ p.store.check.target = 0 ∧ p.store.check.tested = 0 ∧
      p.store.check.withdrawn = 0 ∧ p.store.check.batch = []) ∧
    p.store.job = .none ∧ p.store.buffer = []) ∧
  ((∀ r, p.reader r =
      { state := .idle, owner := if r.val < 12 then .commentary else .none, clip := none
        position := 0, nextBlock := 0, page := none, buffer := [], outstanding := false
        wait := false, stopPoint := none }) ∧
    p.bank.chimeRouting = false ∧ p.bank.busOn = false ∧ p.bank.frame = none) ∧
  ((∀ l, p.language l =
      { enabled := decide (l = 0)
        tag := if l = 0 then [0x45, 0x4E] else if l.val < 10 then [0x4C, BitVec.ofNat 8 (0x30 + l.val)]
          else [0x4C, 0x31, BitVec.ofNat 8 (0x26 + l.val)]
        fallback := none, trim := 0, audience := 0, stream := if l = 0 then .parked else .off
        current := none, waiting := [], resume := none, reel := [] }) ∧
    p.lang.default = 0 ∧ p.lang.pa = none ∧ p.lang.hold = false) ∧
  ((∀ i, p.annSet i =
      { defined := false, cls := .service, defaultClip := 0, items := [], paClip := none
        chimeClip := none, lightCue := none, repeats := 1, expiry := 0, lift := 0, tail := 3 }) ∧
    p.ann.queue = [] ∧ p.ann.playing = none ∧ p.ann.last = none ∧ p.ann.safetyFault = false ∧
    p.ann.deckAlert = false) ∧
  (∀ i, (p.string i).scanning = false ∧ (p.string i).population = 24 ∧
    (p.string i).pendingPopulation = none ∧ (p.string i).roundPosition = none ∧
    (p.string i).roundStart = 0 ∧ (p.string i).exchange = false ∧ (p.string i).releasing = []) ∧
  (∀ i, p.seat i =
    { node := .seeking, missCount := 0, baselines := none, language := 0, volume := 8
      pending := .mute, acknowledged := .mute, carried := none
      socket :=
        { state := .unpowered, ackOn := false, settleEnd := none, classifying := false
          average := none, peak := 0, lastSample := 0, run := none, coolEnd := none, fault := none
          history := [] } }) ∧
  p.level = { speed := 0, stale := true, staleEnd := none, cap := 0, safetyFloor := -20
              paBase := -12, paCap := 0, cls := none, phase := none, lift := 0, shed := 0
              paCode := .mute } ∧
  (p.supply.scan = 20 ∧ p.supply.shift = 3 ∧ p.supply.vLow = 23000 ∧ p.supply.vCrit = 21500 ∧
    p.supply.budget = 30000 ∧ p.supply.running = false ∧ p.supply.intervalStart = 0 ∧
    p.supply.zoneIndex = 0 ∧ p.supply.lastVoltage = none ∧ p.supply.lastCurrent = none ∧
    p.supply.voltageAverage = none ∧ p.supply.currentAverage = none ∧ p.supply.peak = 0 ∧
    p.supply.voltageState = .normal ∧ p.supply.currentLow = false ∧ p.supply.shed = .normal ∧
    ∀ z, vget p.supply.zoneSamples z = none ∧ vget p.supply.conversions z = none) ∧
  ((∀ z, (p.zone z).enabled = false ∧ (p.zone z).safety = false ∧ (p.zone z).minimum = 20 ∧
      (p.zone z).nominal = 2000 ∧ (p.zone z).keep = false ∧ (p.zone z).target = 0 ∧
      (p.zone z).level = 0 ∧ (p.zone z).stepDue = none ∧ (p.zone z).fault = .ok ∧
      (p.zone z).average = none ∧ (p.zone z).averageLevel = none ∧ (p.zone z).openCount = 0 ∧
      (p.zone z).halves = 0 ∧ (p.zone z).leftAt = []) ∧
    (∀ n z, vget (vget p.light.scenes n).levels z = 0) ∧
    (∀ n, (vget p.light.scenes n).fade = 10) ∧ (∀ c z, vget (vget p.light.cues c) z = .none) ∧
    p.light.active = 0 ∧ p.light.activeCue = none ∧ p.light.shed = .normal) ∧
  p.link = { receiver := .hunting, slots := [], replies := [], notices := [], noticeLost := false
             linkError := false, errorCause := none, transmitting := none, entering := false
             resetting := false } ∧
  State.Safe State.reset

/-! ### What every step keeps -/

/-- Every step keeps the canonical form of clip memory: addresses rising, all inside the device. Model's
choices: assumptions 5 and 31. -/
def Obligations.StepKeepsClipMemoryForm : Prop :=
  ∀ s t : State, Memory.wf s.dram = true → step s = .next t → Memory.wf t.dram = true

/-- Every step keeps R179's 4 slots and 8 refusals and R182's 32 notices as bounds. -/
def Obligations.StepKeepsLinkBounds : Prop :=
  ∀ s t : State, s.part.link.bounded → step s = .next t → t.part.link.bounded

/-- Every step keeps every gain code MUTE or 0..72, with the four limits of R139 in their ranges. -/
def Obligations.StepKeepsGainCodesInRange : Prop :=
  ∀ s t : State, s.part.codesInRange → step s = .next t → t.part.codesInRange

/-- Every step keeps DECK-ALERT asserted exactly while one of R98's two conditions holds. -/
def Obligations.StepKeepsDeckAlertRight : Prop :=
  ∀ s t : State, s.part.alertRight → step s = .next t → t.part.alertRight

/-- Every step keeps every zone's target equal to its effective level (R163, R164). -/
def Obligations.StepKeepsTargetsEffective : Prop :=
  ∀ s t : State, s.part.targetsRight → step s = .next t → t.part.targetsRight

/-- Every step keeps the supply settings in their ranges with Vcrit below Vlow, and the shed state the worse of
the two judgements, as the Level Unit and the Lighting Controller hold it. -/
def Obligations.StepKeepsSupplyAndShedRight : Prop :=
  ∀ s t : State, s.part.supply.settingsRight → s.part.shedRight → step s = .next t →
    t.part.supply.settingsRight ∧ t.part.shedRight

/-- Between any two commands no report of a reader waits for its owner, and every volume is 0..15. Model's
choices: assumption 11. -/
def Obligations.StepKeepsReportsTakenAndVolumes : Prop :=
  ∀ s t : State, s.quiet → s.part.volumesInRange → step s = .next t →
    t.quiet ∧ t.part.volumesInRange

/-- A step stops only at a read of clip memory that nothing has written (assumption 5): every other command, and
every step on an empty queue, answers a next state. -/
def Obligations.OnlyUnwrittenReadsStop : Prop :=
  ∀ s : State, (∃ t, step s = .next t) ∨
    ∃ (r : ReaderId) (rest : List Instr) (g b a : Nat),
      s.pending = .readerReadCompletion r :: rest ∧
      s.part.mem.device = .transfer (ringOf r) g b false ∧
      blockAddress g b ≤ a ∧ a < blockAddress g b + 256 ∧ Memory.read s.dram a = none ∧
      step s = .fault (.unwrittenByte a)

/-! ### Clip memory -/

/-- COLD_RESET takes every block to its cold values wherever it stands, and the start-up sequence runs from the
reset's end through the pause, 8 refresh operations and the mode setting (R2, R3). Model's choices: assumptions
4, 6 and 28. -/
def Obligations.ColdResetAndStartUpStages : Prop :=
  ∀ s : State,
    exec .coldReset s = .next { dram := [], part := State.reset.part, pending := s.pending } ∧
    (s.quiet →
      let m := s.part.mem
      (m.state = .off →
        exec .coldResetEnd s = .next { s with
          part := { s.part.served with
            mem := { m with
              state := .initialising, origin := .cold, stage := .pause, row := 0, owed := 0 }
            bank := { s.part.bank with busOn := true } } }) ∧
      (m.state = .initialising → m.stage = .pause →
        exec .startupPauseEnd s = .next { s with
          part := { s.part.served with mem := { m with stage := .refresh 0 } } }) ∧
      (∀ n, m.state = .initialising → m.stage = .refresh n →
        exec .startupRefreshDone s = .next { s with
          part := { s.part.served with
            mem := { m with
              row := (m.row + 1) % 8192
              stage := if n < 7 then .refresh (n + 1) else .modeSetting } } }))

/-- The end of the mode setting: the memory is READY with ring position 15 and nothing owed, a STORE notice is
raised, every string scans and begins a round, the converter runs, and every zone comes up from its level toward
its effective level by fading; the clips, the readers, the languages and the announcements are untouched (R3,
R9, R102, R104, R149, R165, R177). Model's choices: assumptions 18, 28 and 33. -/
def Obligations.ModeSettingEndsInRunning : Prop :=
  ∀ s : State, s.quiet → s.part.mem.state = .initialising → s.part.mem.stage = .modeSetting →
    ∃ t, exec .modeSettingDone s = .next t ∧ t.dram = s.dram ∧ t.pending = s.pending ∧
      t.part.mem = { s.part.mem with state := .ready, stage := .none, owed := 0, ring := 15 } ∧
      t.part.state = .running ∧
      t.part.link =
        (s.part.link.noted (.storeMemory .initialising .ready) s.part.time).pump ∧
      (∀ i : StringId, (t.part.string i).scanning = true ∧
        (t.part.string i).roundStart = s.part.time ∧
        (t.part.string i).roundPosition =
          (if (s.part.string i).population = 0 then none else some 0) ∧
        ((s.part.string i).population ≠ 0 → (s.part.string i).releasing = [] →
          (t.part.string i).exchange = true)) ∧
      t.part.supply = { s.part.supply with
        running := true, intervalStart := s.part.time, intervalLength := s.part.supply.scan
        zoneIndex := 0
        conversions := Vector.ofFn fun z => if z = 0 then some s.part.time else none } ∧
      (∀ z : ZoneId, t.part.zone z = (s.part.zone z).fadedTo s.part.time
        (vget s.part.light.scenes s.part.light.active).fade (s.part.light.effective z)) ∧
      t.part.light = { s.part.light with zones := t.part.light.zones } ∧
      (∀ i : SeatId, t.part.seat i =
        { s.part.seat i with carried := (t.part.seat i).carried }) ∧
      t.part.time = s.part.time ∧ t.part.store = s.part.store ∧ t.part.bank = s.part.bank ∧
      t.part.lang = s.part.lang ∧ t.part.ann = s.part.ann ∧ t.part.level = s.part.level

/-- An expiry of the refresh interval adds 1 to the owed refreshes, and none above 8; a refresh operation, taken
from the owed ones at its grant, advances the row at its end (R4). Model's choices: assumptions 28, 29 and 39.
-/
def Obligations.RefreshIsOwedAndPerformed : Prop :=
  ∀ s : State, s.quiet →
    (s.part.mem.state = .ready → s.part.mem.owed < 8 →
      exec .refreshIntervalExpiry s = .next { s with
        part := { s.part.served with mem := { s.part.mem with owed := s.part.mem.owed + 1 } } }) ∧
    (s.part.mem.state = .ready → s.part.mem.owed = 8 →
      exec .refreshIntervalExpiry s = .next { s with part := s.part.served }) ∧
    (s.part.mem.device = .refreshing →
      exec .refreshDone s = .next { s with
        part := { s.part.served with
          mem := { s.part.mem with device := .idle, row := (s.part.mem.row + 1) % 8192 } } })

/-- The grant decision of R6: an urgent refresh first, then the first waiting client after the ring position,
then any refresh owed; a grant moves nothing else of the part. Model's choices: assumptions 1 and 39. -/
def Obligations.ArbiterGrantsInRingOrder : Prop :=
  ∀ s : State, s.part.mem.state = .ready → s.part.mem.device = .idle →
    let m := s.part.mem
    let refreshed : State :=
      { s with part := { s.part with
        mem := { m with device := .refreshing, owed := m.owed - 1 } } }
    (m.owed = 8 → exec .arbiterGrant s = .next refreshed) ∧
    (∀ (c : Fin 16) (x : Transfer), m.owed ≠ 8 → vget m.waiting c = true →
      (∀ d : Fin 16, vget m.waiting d = true →
        (c.val + 15 - m.ring.val) % 16 ≤ (d.val + 15 - m.ring.val) % 16) →
      s.part.transferOf c = some x →
      ∃ t, exec .arbiterGrant s = .next t ∧ t.pending = s.pending ∧
        t.part = { s.part with
          mem := { m with
            ring := c
            waiting := vset m.waiting c false
            device := .transfer c x.page x.block false } }) ∧
    ((∀ d : Fin 16, vget m.waiting d = false) → 1 ≤ m.owed →
      exec .arbiterGrant s = .next refreshed) ∧
    ((∀ d : Fin 16, vget m.waiting d = false) → m.owed = 0 → exec .arbiterGrant s = .next s)

/-- A grant writes to clip memory the bytes of the granted write, and no other byte: the loader's buffer at the
place of the loaded length in its clip's page, the checker's pattern at its block (R5, R12, R25, R28). The
checker's 64 transfers of a page write the first pattern to blocks 0 to 15, read them back, and do the same with
the second pattern, which is the first with every bit inverted. Model's choices: assumptions 7 and 8. -/
def Obligations.GrantWritesOnlyTheGrantedBytes : Prop :=
  (∀ s t : State, exec .arbiterGrant s = .next t →
    (∀ (c : Fin 16) (x : Transfer) (a : Nat) (bytes : Bytes),
      s.part.mem.decide = some (.client c) → s.part.transferOf c = some x →
      x.write = some (a, bytes) → a + bytes.length ≤ 268435456 →
      ∀ n, Memory.read t.dram n =
        if a ≤ n ∧ n < a + bytes.length then bytes[n - a]? else Memory.read s.dram n) ∧
    ((∀ (c : Fin 16) (x : Transfer), s.part.mem.decide = some (.client c) →
      s.part.transferOf c = some x → x.write = none) → t.dram = s.dram) ∧
    (∀ (c : ClipId) (g : Nat), s.part.store.job.clip = some c →
      pageAt s.part.store.pageMap ((s.part.clip c).loaded / 4096) (s.part.clip c).firstPage = some g →
      s.part.transferOf 14 = some
        { page := g, block := (s.part.clip c).loaded % 4096 / 256
          write := some (g * 4096 + (s.part.clip c).loaded % 4096, s.part.store.buffer) }) ∧
    (∀ g, s.part.store.check.current = some g → s.part.store.check.made < 64 →
      let made := s.part.store.check.made
      let block := made % 16
      let second := decide (32 ≤ made)
      s.part.transferOf 15 = some
        { page := g, block := block
          write := if made < 16 ∨ (32 ≤ made ∧ made < 48) then
              some (g * 4096 + block * 256, patternBytes g block second)
            else none })) ∧
  ∀ (g b : Nat) (second : Bool), (patternBytes g b second).length = 256 ∧
    ∀ n < 256, (patternBytes g b true)[n]? = ((patternBytes g b false)[n]?).map fun x => ~~~x

/-- The end of a reader's read: 256 bytes enter its buffer and its next block rises by 1; a withdrawn read
delivers nothing; a block of which a byte was never written stops the machine (R5, R41; assumption 5). Model's
choices: assumptions 1, 5 and 28. -/
def Obligations.ReadCompletionFillsTheBuffer : Prop :=
  ∀ (s : State) (r : ReaderId) (g b : Nat), s.quiet →
    (∀ bytes, s.part.mem.device = .transfer (ringOf r) g b false →
      Memory.readBytes s.dram (g * 4096 + b * 256) 256 = .ok bytes →
      ∃ t, exec (.readerReadCompletion r) s = .next t ∧ t.dram = s.dram ∧ t.pending = s.pending ∧
        bytes.length = 256 ∧
        (t.part.reader r).buffer = (s.part.reader r).buffer ++ [bytes] ∧
        (t.part.reader r).nextBlock = (s.part.reader r).nextBlock + 1 ∧
        (t.part.reader r).position = (s.part.reader r).position ∧
        (t.part.reader r).clip = (s.part.reader r).clip ∧
        (t.part.reader r).owner = (s.part.reader r).owner ∧
        ((s.part.reader r).state = .priming → (s.part.reader r).clip ≠ none →
          3 ≤ (s.part.reader r).buffer.length → (t.part.reader r).state = .running) ∧
        (∀ q, q ≠ r → t.part.reader q = s.part.reader q) ∧
        t.part.mem.device = .idle ∧
        (∀ c, c ≠ ringOf r → vget t.part.mem.waiting c = vget s.part.mem.waiting c) ∧
        t.part = { s.part.served with
          mem := { s.part.mem with device := .idle, waiting := t.part.mem.waiting }
          bank := { s.part.bank with readers := t.part.bank.readers } }) ∧
    (s.part.mem.device = .transfer (ringOf r) g b true →
      exec (.readerReadCompletion r) s = .next { s with
        part := { s.part.served with mem := { s.part.mem with device := .idle } } }) ∧
    (∀ a, s.part.mem.device = .transfer (ringOf r) g b false →
      Memory.readBytes s.dram (g * 4096 + b * 256) 256 = .error a →
      exec (.readerReadCompletion r) s = .fault (.unwrittenByte a))

/-- The end of a write of a CLIP-FILL: the loaded length rises by the bytes carried, and the loader goes on with
the next block's bytes or, with none left, answers the fill (R25). A write that brings the fully written blocks
to the threshold sets the ready-to-play flag and raises READY-TO-PLAY once (R26); one that adds a fully written
block ends the cut-through wait of the clip's readers when the clip is playable, makes its STARVED readers
RUNNING, and lets them fetch (R27, R40, R45). The end of the close write: the clip is READY with the marks below
its last sample, and CLIP-CLOSE is answered with the loaded length and the number of marks kept (R28). Model's
choices: assumptions 28 and 40. -/
def Obligations.LoaderWritesComplete : Prop :=
  (∀ (s : State) (tag : Byte) (c : ClipId) (rest : Bytes) (g b : Nat), s.quiet →
    s.part.mem.device = .transfer 14 g b false → s.part.store.job = .fillWrite tag c rest →
    (s.part.clip c).state = .loading →
    ∃ t, exec .loaderWriteCompletion s = .next t ∧ t.dram = s.dram ∧ t.pending = s.pending ∧
      let x := s.part.clip c
      let length := x.loaded + s.part.store.buffer.length
      let grown := x.loaded / 256 < length / 256
      let playable := x.threshold ≤ length / 256
      let told := if grown ∧ playable ∧ x.sent = false then
          s.part.link.noted (.clip c .readyToPlay) s.part.time
        else s.part.link
      t.part.clip c = { x with
        loaded := length, sent := x.sent || (decide grown && decide playable) } ∧
      (∀ d, d ≠ c → t.part.clip d = s.part.clip d) ∧
      t.part.store.pageMap = s.part.store.pageMap ∧
      t.part.store.freeList = s.part.store.freeList ∧
      t.part.mem.device = .idle ∧
      t.part = { s.part with
        mem := { s.part.mem with device := .idle, waiting := t.part.mem.waiting }
        store := { s.part.store with
          clips := t.part.store.clips, job := t.part.store.job, buffer := t.part.store.buffer }
        bank := { s.part.bank with readers := t.part.bank.readers }
        link := (if rest = [] then told.answer .clipFill tag (0 :: e16 c.val ++ e32 length)
          else told).pump } ∧
      (rest ≠ [] →
        t.part.store.job = .fillWrite tag c (rest.drop (256 - length % 256)) ∧
        t.part.store.buffer = rest.take (256 - length % 256) ∧
        (s.part.mem.state = .ready → vget t.part.mem.waiting 14 = true)) ∧
      (rest = [] → t.part.store.job = .none ∧ t.part.store.buffer = []) ∧
      (∀ r, (s.part.reader r).clip ≠ some c ∨ ¬ grown → t.part.reader r = s.part.reader r) ∧
      (∀ r, (s.part.reader r).clip = some c → grown →
        let y := s.part.reader r
        let wait := y.wait && !decide playable
        t.part.reader r = { y with
          wait := wait
          state := if y.state = .starved ∧ y.nextBlock < length / 256 then .running else y.state
          page := (t.part.reader r).page, outstanding := (t.part.reader r).outstanding } ∧
        (∀ n, y.page = some n → y.state ≠ .idle → wait = false → y.buffer.length ≤ 6 →
          y.nextBlock < length / 256 → s.part.mem.state = .ready →
          (t.part.reader r).page = some n ∧ (t.part.reader r).outstanding = true ∧
          (y.outstanding = false → vget t.part.mem.waiting (ringOf r) = true)))) ∧
  (∀ (s : State) (tag : Byte) (c : ClipId) (g b : Nat), s.quiet →
    s.part.mem.device = .transfer 14 g b false → s.part.store.job = .closeWrite tag c →
    (s.part.clip c).state = .loading →
    ∃ t, exec .closeWriteCompletion s = .next t ∧ t.dram = s.dram ∧ t.pending = s.pending ∧
      let x := s.part.clip c
      let marks := x.marks.filter fun m => m < x.loaded / 2
      let reply : Bytes := 0 :: e32 x.loaded ++ e8 marks.length
      t.part.clip c = { x with
        state := .ready, marks := marks, sent := true, hold := (t.part.clip c).hold } ∧
      t.part.store.job = .none ∧ t.part.mem.device = .idle ∧
      ((∀ r, (s.part.reader r).clip = some c → (s.part.reader r).position < x.loaded / 2) →
        (t.part.clip c).hold = x.hold ∧
        (∀ d, d ≠ c → t.part.clip d = s.part.clip d) ∧
        t.part.store.pageMap = s.part.store.pageMap ∧
        t.part.store.freeList = s.part.store.freeList ∧
        (∀ r, (s.part.reader r).clip ≠ some c → t.part.reader r = s.part.reader r) ∧
        (∀ r, (s.part.reader r).clip = some c → (t.part.reader r).wait = false ∧
          (t.part.reader r).clip = some c ∧
          (t.part.reader r).position = (s.part.reader r).position) ∧
        t.part.link = ((if x.sent then s.part.link
          else s.part.link.noted (.clip c .readyToPlay) s.part.time).answer .clipClose tag
            reply).pump ∧
        t.part.lang = s.part.lang ∧ t.part.ann = s.part.ann) ∧
      ((⟨Kind.byte .clipClose, tag, reply, true⟩ : Reply) ∈ t.part.link.replies ∨
        t.part.link.transmitting = some ⟨Kind.byte .clipClose, tag, reply⟩))

/-- The end of a checker transfer (R12, R13): a read-back that differs fails the page, the page's last transfer
passes it, and the checker moves to the next page of the batch; any other transfer is followed by the next. A
batch whose last page is judged, passed or failed, returns its passed pages to the Free List tail, withdraws its
failed ones, counts both, and raises a STORE notice when a page failed. Then the check ends with its OK reply
when its target is reached or no page is free, and otherwise the next batch is formed (R11), unless a CLIP-FILL
waits for a page. Model's choices: assumptions 8, 9, 20 and 28. -/
def Obligations.CheckerJudgesPagesAndBatches : Prop :=
  ∀ (s : State) (equal : Bool) (g b : Nat), s.quiet → s.part.mem.state = .ready →
    s.part.mem.device = .transfer 15 g b false →
    let k := s.part.store.check
    let mem : MemCtl :=
      { s.part.mem with device := .idle, waiting := vset s.part.mem.waiting 15 true }
    let judged := fun v : PageResult =>
      (v = .failed ∧ k.made / 16 % 2 = 1 ∧ equal = false) ∨
        (v = .passed ∧ k.made = 63 ∧ equal = true)
    (k.made < 63 → (k.made / 16 % 2 = 0 ∨ equal = true) → k.current ≠ none →
      exec (.checkerTransferCompletion equal) s = .next { s with
        part := { s.part.served with
          mem := mem
          store := { s.part.store with check := { k with made := k.made + 1 } } } }) ∧
    (∀ (before : List BatchPage) (page next : Nat) (rest : List BatchPage) (v : PageResult),
      judged v → (∀ x ∈ before, x.result ≠ .untested) →
      k.batch = before ++ ⟨page, .untested⟩ :: ⟨next, .untested⟩ :: rest →
      exec (.checkerTransferCompletion equal) s = .next { s with
        part := { s.part.served with
          mem := mem
          store := { s.part.store with
            check := { k with
              made := 0
              batch := before ++ ⟨page, v⟩ :: ⟨next, .untested⟩ :: rest } } } }) ∧
    (∀ (before : List BatchPage) (page : Nat) (v : PageResult), judged v →
      (∀ x ∈ before, x.result ≠ .untested) → k.batch = before ++ [⟨page, .untested⟩] →
      ∃ t, exec (.checkerTransferCompletion equal) s = .next t ∧ t.dram = s.dram ∧
        t.pending = s.pending ∧
        let batch : List BatchPage := before ++ [⟨page, v⟩]
        let passed : List Nat := (batch.filter fun x => x.result = .passed).map BatchPage.page
        let failed : List Nat := (batch.filter fun x => x.result = .failed).map BatchPage.page
        let free := runsPages s.part.store.freeList ++ passed
        let k' : Check := { k with
          tested := k.tested + batch.length, withdrawn := k.withdrawn + failed.length
          batch := [], made := 0 }
        let waits := s.part.store.job.waits
        let next := if waits = false ∧ k'.tested < k'.target then
            free.take (min 16 (k'.target - k'.tested))
          else []
        let told := if failed = [] then s.part.link
          else s.part.link.noted (.storeCheck batch.length failed.length k'.tested k'.withdrawn)
            s.part.time
        runsPages t.part.store.freeList = free.drop next.length ∧
        t.part.store.withdrawnSet = failed.foldl insertPage s.part.store.withdrawnSet ∧
        (∀ n ∈ next, (t.part.pageEntry n).state = .check) ∧
        (∀ n ∈ failed, n ∉ next → (t.part.pageEntry n).state = .withdrawn) ∧
        (∀ n ∈ passed, n ∉ next → n ∉ failed → t.part.pageEntry n = PageEntry.empty) ∧
        t.part.store.check = (if waits = true then k'
          else if next = [] then { k' with running := false }
          else { k' with batch := next.map fun n => ⟨n, .untested⟩ }) ∧
        t.part.store.clips = s.part.store.clips ∧ t.part.store.job = s.part.store.job ∧
        t.part = { s.part with
          store := t.part.store
          mem := if next = [] then { s.part.mem with device := .idle } else mem
          link := (if waits = false ∧ next = [] then
              told.answer .storeCheck k.tag
                (0 :: e32 k'.target ++ e32 k'.tested ++ e32 k'.withdrawn)
            else told).pump })

/-- The device is in self-refresh: the memory is SELF-REFRESH with its row kept, the strings are OFF, the bus
carries no frames, standby is no longer being entered, and STANDBY is answered OK (R8, R54, R118, R188). The
warm reset is complete: the notice queue is empty with NOTICE-LOST clear, PART-RESET is answered OK, the
requests held back go to their blocks, and all but the store and the link stands (R187 steps 3 to 6). Model's
choices: assumptions 12, 21, 28 and 52. -/
def Obligations.StandbyAndWarmResetComplete : Prop :=
  (∀ s : State, s.quiet → s.part.link.entering = true → s.part.mem.state = .ready →
    s.part.mem.device = .idle → s.part.mem.owed = 0 →
    ∃ t, exec .selfRefreshEntered s = .next t ∧ t.dram = s.dram ∧ t.pending = s.pending ∧
      t.part.mem = { s.part.mem with state := .selfRefresh } ∧ t.part.state = .standby ∧
      t.part.bank = { s.part.bank with busOn := false, frame := none } ∧
      (∀ i : StringId, t.part.string i =
        { s.part.string i with scanning := false, releasing := [] }) ∧
      t.part.link.entering = false ∧ t.part.store.clearing = none ∧
      t.part = { s.part with
        mem := t.part.mem, bank := t.part.bank, strings := t.part.strings, link := t.part.link
        store := t.part.store } ∧
      (s.part.store.clearing = none → t.part.store = s.part.store ∧
        ∀ x, s.part.link.takenRequest .standby = some x →
          (⟨Kind.byte .standby, x.tag, [0], true⟩ : Reply) ∈ t.part.link.replies ∨
            t.part.link.transmitting = some ⟨Kind.byte .standby, x.tag, [0]⟩)) ∧
  (∀ s : State, s.quiet → s.part.link.resetting = true → s.part.mem.device.busy = false →
    ∃ t, exec .warmResetComplete s = .next t ∧ t.dram = s.dram ∧ t.pending = s.pending ∧
      t.part.link.resetting = false ∧ t.part.link.notices = [] ∧
      t.part.link.noticeLost = false ∧ (∀ x ∈ t.part.link.slots, x.progress ≠ .held) ∧
      t.part.store.clearing = none ∧
      t.part = { s.part with link := t.part.link, store := t.part.store } ∧
      (s.part.store.clearing = none → t.part.store = s.part.store ∧
        ∀ x, s.part.link.takenRequest .partReset = some x →
          (⟨Kind.byte .partReset, x.tag, [0], true⟩ : Reply) ∈ t.part.link.replies ∨
            t.part.link.transmitting = some ⟨Kind.byte .partReset, x.tag, [0]⟩))

/-- The end of the Clip Store's part of a warm reset or an entry to standby (R36 steps 3 and 4, R15): every
LOADING and RETIRING clip is FREE, every READY clip stands as it was, and the memory check is idle. The pages of
the freed clips, by rising clip id and in chain order, and after them the PASSED and UNTESTED pages of a running
check's batch, in batch order, join the Free List tail and are FREE; the batch's FAILED pages are withdrawn and
counted; every other page stands; and STORE-CHECK is answered ABORTED or IN-STANDBY with the counts so reached.
So it comes in the taking of PART-RESET or STANDBY while no transfer is in progress, the READY clips keeping all
but their hold counts, and else at WARM_RESET_COMPLETE or SELF_REFRESH_ENTERED. Model's choices: assumptions 2,
12, 21 and 28. -/
def Obligations.ResetFreesLoadingAndRetiringClips : Prop :=
  let goes := fun (p : Part) (c : ClipId) => (p.clip c).state = .loading ∨ (p.clip c).state = .retiring
  let chain := fun (p : Part) (c : ClipId) =>
    chainPages p.store.pageMap (p.clip c).pageCount (p.clip c).firstPage
  let batch := fun p : Part => if p.store.check.running then p.store.check.batch else []
  let failed := fun p : Part => ((batch p).filter fun b => b.result = .failed).map BatchPage.page
  let back := fun p : Part =>
    (((List.finRange 1024).filter fun c => goes p c).flatMap fun c => chain p c) ++
      ((batch p).filter fun b => b.result ≠ .failed).map BatchPage.page
  let ended := fun p : Part => { p.store.check with
    running := false, batch := [], made := if p.store.check.running then 0 else p.store.check.made
    tested := p.store.check.tested + ((batch p).filter fun b => b.result ≠ .untested).length
    withdrawn := p.store.check.withdrawn + (failed p).length }
  -- the clips, the pages and the check of `q`, when `p`'s have been cleared
  let cleared := fun (p q : Part) =>
    (∀ c, goes p c → q.clip c = Clip.empty) ∧
    ((back p ++ failed p).Nodup →
      runsPages q.store.freeList = runsPages p.store.freeList ++ back p ∧
      (∀ g ∈ back p, q.pageEntry g = { state := .free, owner := none, index := none, next := none }) ∧
      (∀ g ∈ failed p,
        q.pageEntry g = { state := .withdrawn, owner := none, index := none, next := none }) ∧
      ∀ g, g ∉ back p → g ∉ failed p → q.pageEntry g = p.pageEntry g) ∧
    (∀ g, g ∈ q.store.withdrawnSet ↔ g ∈ p.store.withdrawnSet ∨ g ∈ failed p) ∧
    q.store.clearing = none ∧ (p.store.check.running = true → q.store.check = ended p) ∧
    (p.store.check.running = false → q.store.check = p.store.check)
  let checkReply := fun (p : Part) (status : Byte) =>
    let k := ended p
    status :: (e32 k.target ++ e32 k.tested ++ e32 k.withdrawn)
  let sent := fun (t : State) (k : Kind) (tag : Byte) (reply : Bytes) =>
    (⟨k.byte, tag, reply, true⟩ : Reply) ∈ t.part.link.replies ∨
      t.part.link.transmitting = some ⟨k.byte, tag, reply⟩
  (∀ (p : Part) (cause : ResetCause), p.store.clearing = some cause →
    tableSorted p.store.clips = true →
    cleared p p.finishClearing ∧
    (∀ c : ClipId, (p.clip c).state = .ready → p.finishClearing.clip c = p.clip c) ∧
    p.finishClearing.link.notices = p.link.notices) ∧
  ∀ s : State, s.quiet → tableSorted s.part.store.clips = true →
    let p := s.part
    -- at the end of the transfer that the reset found in progress
    (∀ cause, p.store.clearing = some cause →
      let status : Byte := match cause with
        | .warm => 15
        | .standby => 14
      let done := fun (t : State) (k : Kind) =>
        t.dram = s.dram ∧ t.pending = s.pending ∧ cleared p t.part ∧
        (∀ c, (p.clip c).state = .ready → t.part.clip c = p.clip c) ∧
        (p.store.check.running = true →
          sent t .storeCheck p.store.check.tag (checkReply p status)) ∧
        ∀ x, p.link.takenRequest k = some x →
          (p.store.check.running = true → p.store.check.tag ≠ x.tag) → sent t k x.tag [0]
      (p.link.resetting = true → p.mem.device.busy = false →
        ∃ t, exec .warmResetComplete s = .next t ∧ done t .partReset) ∧
      (p.link.entering = true → p.mem.state = .ready → p.mem.device = .idle → p.mem.owed = 0 →
        ∃ t, exec .selfRefreshEntered s = .next t ∧ done t .standby)) ∧
    -- at once, when no transfer is in progress
    (∀ tag : Byte, p.active = true → p.mem.device.busy = false →
      let done := fun (t : State) (status : Byte) =>
        t.dram = s.dram ∧ t.pending = s.pending ∧ cleared p t.part ∧
        (∀ c, (p.clip c).state = .ready → t.part.clip c = { p.clip c with hold := 0 }) ∧
        (p.store.check.running = true →
          sent t .storeCheck p.store.check.tag (checkReply p status))
      (p.canTake .partReset tag [] →
        ∃ t, exec (.partReset tag []) s = .next t ∧ done t 15) ∧
      (p.canTake .standby tag [] →
        ∃ t, exec (.standby tag []) s = .next t ∧ done t 14))

/-! ### Clips -/

/-- FILL_PAGE_WAIT_END (R13, R24): while the list is empty and the batch holds pages, the CLIP-FILL goes on
waiting; with the batch ended and the list still empty it is refused FULL; with a page free it takes the list's
head and begins its writes. A running check whose batch has ended then goes on: it forms its next batch, or ends
with its OK reply when its target is reached or no page is free (R11). Model's choices: assumptions 20 and 28.
-/
def Obligations.WaitingFillEndsItsWait : Prop :=
  ∀ (s : State) (tag : Byte) (c : ClipId) (data : Bytes), s.quiet → s.part.mem.state = .ready →
    s.part.store.job = .fillWait tag c data →
    let k := s.part.store.check
    let x := s.part.clip c
    let due := k.running = true ∧ k.batch = []
    let ended := fun l : Link => l.answer .storeCheck k.tag
      (0 :: e32 k.target ++ e32 k.tested ++ e32 k.withdrawn)
    (runsPages s.part.store.freeList = [] → k.batch ≠ [] →
      exec .fillPageWaitEnd s = .next { s with part := s.part.served }) ∧
    (runsPages s.part.store.freeList = [] → k.batch = [] →
      let refused := s.part.link.answer .clipFill tag (3 :: e16 c.val ++ e32 x.loaded)
      exec .fillPageWaitEnd s = .next { s with
        part := { s.part with
          store := { s.part.store with
            job := .none, buffer := [], check := { k with running := false } }
          link := (if k.running then ended refused else refused).pump } }) ∧
    (∀ page more, runsPages s.part.store.freeList = page :: more → data ≠ [] →
      4096 * x.pageCount < x.loaded + data.length →
      let room := 256 - x.loaded % 256
      let next := if due ∧ k.tested < k.target then more.take (min 16 (k.target - k.tested)) else []
      let asked := vset s.part.mem.waiting 14 true
      ∃ t, exec .fillPageWaitEnd s = .next t ∧ t.dram = s.dram ∧ t.pending = s.pending ∧
        t.part.clip c = { x with
          firstPage := some (x.firstPage.getD page), lastPage := some page
          pageCount := x.pageCount + 1 } ∧
        (∀ d, d ≠ c → t.part.clip d = s.part.clip d) ∧
        (page ∉ next → x.lastPage ≠ some page → t.part.pageEntry page =
          { state := .clip, owner := some c, index := some x.pageCount, next := none }) ∧
        (∀ n ∈ next, (t.part.pageEntry n).state = .check) ∧
        runsPages t.part.store.freeList = more.drop next.length ∧
        t.part.store.job = .fillWrite tag c (data.drop room) ∧
        t.part.store.buffer = data.take room ∧
        t.part.store.check =
          (if due then
            if next = [] then { k with running := false }
            else { k with batch := next.map (fun n => ⟨n, .untested⟩), made := 0 }
          else k) ∧
        t.part = { s.part with
          store := t.part.store
          mem := { s.part.mem with waiting := if next = [] then asked else vset asked 15 true }
          link := (if due ∧ next = [] then ended s.part.link else s.part.link).pump })

/-- CLIP-OPEN of a FREE clip with its marks rising (R22): the clip is LOADING with the stored declared length,
threshold and marks, and everything else of it empty; no page is taken; the reply is CLAMPED when the declared
length or the threshold was clamped, else OK, and carries the clip id and the stored threshold. Model's choices:
assumptions 2 and 28. -/
def Obligations.ClipOpenMakesTheClipLoading : Prop :=
  ∀ (s : State) (tag : Byte) (body : Bytes) (q : OpenReq) (c : ClipId), s.quiet →
    s.part.canTake .clipOpen tag body → readOpen body = some q → q.clip = c.val →
    q.marks.Pairwise (· < ·) → (s.part.clip c).state = .free →
    let threshold :=
      if q.threshold = 0 then 256 else if q.threshold < 16 then 16 else min 4096 q.threshold
    let clamped := 134217728 < q.declared ∨ (q.threshold ≠ 0 ∧ threshold ≠ q.threshold)
    exec (.clipOpen tag body) s = .next { s with
      part := { s.part.setClip c
        { state := .loading
          declared := if q.declared = 0 then none else some (min 134217728 q.declared)
          threshold := threshold, loaded := 0, pageCount := 0, firstPage := none, lastPage := none
          marks := q.marks, hold := 0, setRefs := 0, sent := false, cause := none } with
        link := s.part.repliedLink .clipOpen tag body (if clamped then .clamped else .ok)
          (e16 c.val ++ e16 threshold) } }

/-- A CLIP-FILL at the end of a LOADING clip, within its declared length (R23 to R25): with its data inside the
chained pages the loader takes the first block's bytes and asks for the write; needing a page, it first chains
the head of the Free List as the clip's last page; with the list empty and a check batch holding pages, it
waits. No reply is sent yet. Model's choices: assumptions 2, 20 and 28. -/
def Obligations.ClipFillBeginsItsWrites : Prop :=
  ∀ (s : State) (tag : Byte) (body : Bytes) (c : ClipId), s.quiet → s.part.mem.state = .ready →
    s.part.canTake .clipFill tag body → 6 ≤ body.length →
    let data := body.drop 6
    let x := s.part.clip c
    data.length % 2 = 0 → 2 ≤ data.length → data.length ≤ 1024 → b16 body 0 = c.val →
    b32 body 2 = x.loaded → x.state = .loading →
    (∀ d, x.declared = some d → x.loaded + data.length ≤ 2 * d) →
    let room := 256 - x.loaded % 256
    (x.loaded + data.length ≤ 4096 * x.pageCount →
      exec (.clipFill tag body) s = .next { s with
        part := { s.part with
          store := { s.part.store with
            job := .fillWrite tag c (data.drop room), buffer := data.take room }
          mem := { s.part.mem with waiting := vset s.part.mem.waiting 14 true }
          link := (s.part.takenLink .clipFill tag body).pump } }) ∧
    (4096 * x.pageCount < x.loaded + data.length → runsPages s.part.store.freeList = [] →
      s.part.store.check.batch ≠ [] →
      exec (.clipFill tag body) s = .next { s with
        part := { s.part with
          store := { s.part.store with job := .fillWait tag c data, buffer := [] }
          link := (s.part.takenLink .clipFill tag body).pump } }) ∧
    (∀ page rest, 4096 * x.pageCount < x.loaded + data.length →
      runsPop s.part.store.freeList = some (page, rest) →
      ∃ t, exec (.clipFill tag body) s = .next t ∧ t.dram = s.dram ∧ t.pending = s.pending ∧
        t.part = { s.part with
          store := t.part.store
          mem := { s.part.mem with waiting := vset s.part.mem.waiting 14 true }
          link := (s.part.takenLink .clipFill tag body).pump } ∧
        runsPages s.part.store.freeList = page :: runsPages t.part.store.freeList ∧
        t.part.clip c = { x with
          firstPage := some (x.firstPage.getD page), lastPage := some page
          pageCount := x.pageCount + 1 } ∧
        (∀ d, d ≠ c → t.part.clip d = s.part.clip d) ∧
        (x.lastPage ≠ some page → t.part.pageEntry page =
          { state := .clip, owner := some c, index := some x.pageCount, next := none }) ∧
        (∀ g, x.lastPage = some g → (t.part.pageEntry g).next = some page) ∧
        (∀ n, n ≠ page → x.lastPage ≠ some n → t.part.pageEntry n = s.part.pageEntry n) ∧
        t.part.store.job = .fillWrite tag c (data.drop room) ∧
        t.part.store.buffer = data.take room)

/-- CLIP-CLOSE of a LOADING clip with data (R28): with a partial last block the loader asks for the close write
of zero bytes to the block's end; without one the clip is READY at once, with the marks below its last sample,
READY-TO-PLAY is raised if it has not been, and the reply is OK with the loaded length and the number of marks
kept. Model's choices: assumptions 2 and 28. -/
def Obligations.ClipCloseClosesOrWritesZeros : Prop :=
  ∀ (s : State) (tag : Byte) (body : Bytes) (c : ClipId), s.quiet → s.part.mem.state = .ready →
    s.part.canTake .clipClose tag body → body.length = 2 → b16 body 0 = c.val →
    let x := s.part.clip c
    x.state = .loading → x.loaded ≠ 0 →
    (x.loaded % 256 ≠ 0 →
      exec (.clipClose tag body) s = .next { s with
        part := { s.part with
          store := { s.part.store with
            job := .closeWrite tag c, buffer := List.replicate (256 - x.loaded % 256) 0 }
          mem := { s.part.mem with waiting := vset s.part.mem.waiting 14 true }
          link := (s.part.takenLink .clipClose tag body).pump } }) ∧
    (x.loaded % 256 = 0 →
      let marks := x.marks.filter fun m => m < x.loaded / 2
      let reply : Bytes := 0 :: e32 x.loaded ++ e8 marks.length
      ∃ t, exec (.clipClose tag body) s = .next t ∧ t.dram = s.dram ∧ t.pending = s.pending ∧
        t.part.clip c = { x with
          state := .ready, sent := true, marks := marks, hold := (t.part.clip c).hold } ∧
        ((⟨Kind.byte .clipClose, tag, reply, true⟩ : Reply) ∈ t.part.link.replies ∨
          t.part.link.transmitting = some ⟨Kind.byte .clipClose, tag, reply⟩) ∧
        ((∀ r, (s.part.reader r).clip ≠ some c) →
          t.part = { s.part with
            store := { s.part.store with
              clips := t.part.store.clips, job := .none, buffer := [] }
            link := ((if x.sent then s.part.takenLink .clipClose tag body
              else (s.part.takenLink .clipClose tag body).noted (.clip c .readyToPlay)
                s.part.time).answer .clipClose tag reply).pump } ∧
          (t.part.clip c).hold = x.hold ∧
          ∀ d, d ≠ c → t.part.clip d = s.part.clip d))

/-- CLIP-DROP of a LOADING clip and CLIP-DELETE of a LOADING clip or of a READY clip that no set names, with no
holds (R29, R31, R33): the clip is FREE, its pages stand at the Free List tail in chain order, and the reply is
OK with the resulting state FREE. CLIP-DELETE of a READY clip in use makes it RETIRING, cause DELETED; of one
that a set names, it is answered REFERENCED and changes nothing. A LOADING clip dropped in use (R30) is
RETIRING, cause DROPPED, or already FREE; every reader that played it is IDLE and has reported that its clip was
abandoned to the owner it had; no other reader is touched. Model's choices: assumptions 2, 11, 13, 28 and 54. -/
def Obligations.ClipDropAndDeleteRemoveClips : Prop :=
  (∀ (s : State) (tag : Byte) (body : Bytes) (c : ClipId), s.quiet → body.length = 2 →
    b16 body 0 = c.val →
    let x := s.part.clip c
    let pages := chainPages s.part.store.pageMap x.pageCount x.firstPage
    let freed := fun (k : Kind) (fields : Bytes) (t : State) =>
      t.dram = s.dram ∧ t.pending = s.pending ∧ t.part.clip c = Clip.empty ∧
        (∀ d, d ≠ c → t.part.clip d = s.part.clip d) ∧
        runsPages t.part.store.freeList = runsPages s.part.store.freeList ++ pages ∧
        (∀ n, t.part.pageEntry n =
          if n ∈ pages then PageEntry.empty else s.part.pageEntry n) ∧
        t.part = { s.part with
          store := { s.part.store with
            clips := t.part.store.clips, pageMap := t.part.store.pageMap
            freeList := t.part.store.freeList }
          link := s.part.repliedLink k tag body .ok fields }
    (s.part.canTake .clipDrop tag body → x.state = .loading → x.hold = 0 →
      ∃ t, exec (.clipDrop tag body) s = .next t ∧ freed .clipDrop (e8 0) t) ∧
    (s.part.canTake .clipDelete tag body →
      (x.state = .loading ∨ (x.state = .ready ∧ x.setRefs = 0)) → x.hold = 0 →
      ∃ t, exec (.clipDelete tag body) s = .next t ∧
        freed .clipDelete (e8 0 ++ e8 x.setRefs) t) ∧
    (s.part.canTake .clipDelete tag body → x.state = .ready → x.setRefs = 0 → 1 ≤ x.hold →
      exec (.clipDelete tag body) s = .next { s with
        part := { s.part.setClip c { x with state := .retiring, cause := some .deleted } with
          link := s.part.repliedLink .clipDelete tag body .ok (e8 3 ++ e8 0) } }) ∧
    (s.part.canTake .clipDelete tag body → x.state = .ready → 1 ≤ x.setRefs →
      exec (.clipDelete tag body) s = .next { s with
        part := { s.part with
          link := s.part.repliedLink .clipDelete tag body .referenced
            (e8 2 ++ e8 x.setRefs) } })) ∧
  (∀ (p : Part) (c : ClipId), (p.clip c).state = .loading → 1 ≤ (p.clip c).hold →
    let q := p.dropClip c
    (∀ r, (p.reader r).clip = some c →
      q.reader r = Reader.idle (p.reader r).owner ∧
        (⟨r, (p.reader r).owner, .abandoned⟩ : Report) ∈ q.bank.reports) ∧
    (∀ r, (p.reader r).clip ≠ some c → q.reader r = p.reader r) ∧
    ((q.clip c).state = .retiring ∧ (q.clip c).cause = some .dropped ∨ q.clip c = Clip.empty) ∧
    (∀ d, d ≠ c → q.clip d = p.clip d))

/-- Requests of the Clip Store that their first failing check refuses change nothing but the link, and are
answered with that check's status (R22, R23, R28, R29, R31, R35). Every refused CLIP-FILL carries the clip id
and the loaded length as it stands (R23). Model's choices: assumptions 2, 15, 28 and 30. -/
def Obligations.RefusedClipRequestsChangeNothing : Prop :=
  ∀ (s : State) (tag : Byte) (body : Bytes), s.quiet →
    let answered := fun (i : Instr) (k : Kind) (st : Status) (fields : Bytes) =>
      s.part.canTake k tag body →
        exec i s = .next { s with
          part := { s.part with link := s.part.repliedLink k tag body st fields } }
    let refused := fun (i : Instr) (k : Kind) (st : Status) => ∃ fields, answered i k st fields
    (readOpen body = none → refused (.clipOpen tag body) .clipOpen .badLength) ∧
    (∀ q, readOpen body = some q → 1024 ≤ q.clip →
      refused (.clipOpen tag body) .clipOpen .badValue) ∧
    (∀ q (c : ClipId), readOpen body = some q → q.clip = c.val →
      ¬ q.marks.Pairwise (· < ·) → refused (.clipOpen tag body) .clipOpen .badValue) ∧
    (∀ q (c : ClipId), readOpen body = some q → q.clip = c.val → q.marks.Pairwise (· < ·) →
      (s.part.clip c).state ≠ .free → refused (.clipOpen tag body) .clipOpen .wrongState) ∧
    (let wrong := (body.drop 6).length % 2 = 1 ∨ (body.drop 6).length < 2 ∨
        1024 < (body.drop 6).length
     (wrong → refused (.clipFill tag body) .clipFill .badLength) ∧
     (wrong → ∀ c : ClipId, 2 ≤ body.length → b16 body 0 = c.val →
        answered (.clipFill tag body) .clipFill .badLength
          (e16 c.val ++ e32 (s.part.clip c).loaded))) ∧
    (∀ q, readFill body = some q → 1024 ≤ q.clip →
      answered (.clipFill tag body) .clipFill .badValue (e16 q.clip ++ eAbsent 4)) ∧
    (∀ (q : FillReq) (c : ClipId), readFill body = some q → q.clip = c.val →
      let x := s.part.clip c
      let filled := fun st : Status =>
        answered (.clipFill tag body) .clipFill st (e16 c.val ++ e32 x.loaded)
      (x.state = .free → filled .notFound) ∧
      (x.state = .ready ∨ x.state = .retiring → filled .wrongState) ∧
      (x.state = .loading → q.offset ≠ x.loaded → filled .wrongOffset) ∧
      (∀ d, x.state = .loading → q.offset = x.loaded → x.declared = some d →
        2 * d < q.offset + q.data.length → filled .badValue) ∧
      (x.state = .loading → q.offset = x.loaded →
        (∀ d, x.declared = some d → q.offset + q.data.length ≤ 2 * d) →
        4096 * x.pageCount < q.offset + q.data.length →
        runsPages s.part.store.freeList = [] → s.part.store.check.batch = [] → filled .full)) ∧
    (body.length ≠ 2 → refused (.clipClose tag body) .clipClose .badLength ∧
      refused (.clipDrop tag body) .clipDrop .badLength ∧
      refused (.clipDelete tag body) .clipDelete .badLength ∧
      refused (.clipQuery tag body) .clipQuery .badLength) ∧
    (body.length = 2 → 1024 ≤ b16 body 0 → refused (.clipClose tag body) .clipClose .badValue ∧
      refused (.clipDrop tag body) .clipDrop .badValue ∧
      refused (.clipDelete tag body) .clipDelete .badValue ∧
      refused (.clipQuery tag body) .clipQuery .badValue) ∧
    (∀ c : ClipId, body.length = 2 → b16 body 0 = c.val →
      ((s.part.clip c).state = .free → refused (.clipClose tag body) .clipClose .notFound ∧
        refused (.clipDrop tag body) .clipDrop .notFound ∧
        refused (.clipDelete tag body) .clipDelete .notFound ∧
        refused (.clipQuery tag body) .clipQuery .notFound) ∧
      ((s.part.clip c).state = .ready → refused (.clipClose tag body) .clipClose .wrongState ∧
        refused (.clipDrop tag body) .clipDrop .wrongState) ∧
      ((s.part.clip c).state = .loading → (s.part.clip c).loaded = 0 →
        refused (.clipClose tag body) .clipClose .wrongState) ∧
      ((s.part.clip c).state = .retiring →
        refused (.clipClose tag body) .clipClose .wrongState ∧
        refused (.clipDrop tag body) .clipDrop .ok ∧
        refused (.clipDelete tag body) .clipDelete .ok))

/-- The queries change nothing but the link, and report the records as they stand: CLIP-QUERY a clip (R35),
STORE-QUERY the memory and the check (R17), STREAM-QUERY a language (R76), QUEUE-QUERY the announcements (R100),
SUPPLY-QUERY the supply (R157), DECK-QUERY the lighting (R176), PART-IDENT the part (R185). Model's choices:
assumptions 2, 10, 13, 14, 15, 16, 28, 30, 41, 48, 50 and 55. -/
def Obligations.QueriesReportAndChangeNothing : Prop :=
  ∀ (s : State) (tag : Byte) (body : Bytes), s.quiet →
    let p := s.part
    let answered := fun (i : Instr) (k : Kind) (st : Status) (fields : Bytes) =>
      s.part.canTake k tag body →
        exec i s = .next { s with
          part := { s.part with link := s.part.repliedLink k tag body st fields } }
    (∀ c : ClipId, body.length = 2 → b16 body 0 = c.val →
      let x := s.part.clip c
      answered (.clipQuery tag body) .clipQuery (if x.state = .free then .notFound else .ok)
        (e8 x.state.code ++ o8 (x.cause.map RetireCause.code) ++ o32 x.declared ++
          e16 x.threshold ++ e32 x.loaded ++ e32 x.writtenBlocks ++ eFlag x.playable ++
          eFlag x.sent ++ e32 x.pageCount ++ o16 x.firstPage ++ o16 x.lastPage ++ e8 x.hold ++
          e8 x.setRefs ++ e8 x.marks.length ++ x.marks.flatMap e32)) ∧
    (body.length = 2 →
      let k := s.part.store.check
      let above := s.part.store.withdrawnSet.filter fun g => b16 body 0 ≤ g
      answered (.storeQuery tag body) .storeQuery .ok
        (e8 s.part.mem.state.code ++ e16 s.part.mem.row ++ e8 s.part.mem.owed ++
          e32 (runsPages s.part.store.freeList).length ++ e32 (clipPages s.part.store.clips) ++
          e8 k.batch.length ++ e32 s.part.store.withdrawnSet.length ++ eFlag k.running ++
          e32 k.target ++ e32 k.tested ++ e32 k.withdrawn ++ e16 (above.take 256).length ++
          (above.take 256).flatMap e16 ++ eFlag (decide (256 < above.length)))) ∧
    (∀ l : Lang, body.length = 1 → b8 body 0 = l.val →
      let x := p.language l
      let y := p.reader (chan l)
      let entry := fun (role : Nat) (e : Entry) =>
        [e.cue] ++ e16 e.clip.val ++ eFlag e.jump ++ e8 role ++ eFlag e.cut.isSome
      answered (.streamQuery tag body) .streamQuery .ok
        (eFlag x.enabled ++ e8 x.tag.length ++ x.tag ++ o8 (x.fallback.map Fin.val) ++ s8 x.trim ++
          eFlag (decide (p.lang.default = l)) ++
          eFlag (decide (p.lang.pa.getD p.lang.default = l)) ++ e8 x.audience ++ e8 x.stream.code ++
          [if p.lang.hold then 0 else 1] ++
          e8 (x.current.toList.length + x.waiting.length) ++ x.current.toList.flatMap (entry 0) ++
          x.waiting.flatMap (entry 1) ++
          (match x.resume with
            | none => eAbsent 6
            | some r => e16 r.clip.val ++ e32 r.sample) ++
          e8 y.state.code ++ e8 y.owner.code ++ o16 (y.clip.map Fin.val) ++ e32 y.position ++
          e16 x.reel.length)) ∧
    (body.length = 1 →
      let safety := decide (∃ r, p.ann.playing = some r ∧ r.entry.cls = .safety)
      let common : Bytes :=
        eFlag p.ann.deckAlert ++ eFlag safety ++ eFlag p.ann.safetyFault ++
          (match p.ann.playing with
            | none => eAbsent 11
            | some r =>
              e8 r.entry.set.val ++ e8 r.entry.cls.code ++ e8 r.phase.code ++ e8 r.repetition ++
                e8 (p.annSet r.entry.set).repeats ++
                e16 (r.channels.map fun l => 2 ^ l.val).sum ++ eFlag r.paSpeaking ++
                eFlag r.chimeSpeaking ++
                o16 (r.tailEnd.map fun d => if atOrAfter p.time d then 0 else (d - p.time).toNat)) ++
          e8 p.ann.queue.length ++
          (p.ann.queue.flatMap fun e => e8 e.set.val ++ e8 e.cls.code ++ eTime e.arrival ++
            oTime e.deadline ++ [e.tag]) ++
          (match p.ann.last with
            | none => eAbsent 3 ++ oTime none
            | some x => e8 x.set.val ++ e8 x.event.code ++ o8 (x.reason.map AnnReason.code) ++
                oTime (some x.time))
      (b8 body 0 = 255 → answered (.queueQuery tag body) .queueQuery .ok common) ∧
      (∀ i : SetId, b8 body 0 = i.val →
        let x := p.annSet i
        answered (.queueQuery tag body) .queueQuery .ok
          (common ++ eFlag x.defined ++ e8 x.cls.code ++ e16 x.defaultClip.val ++
            e8 x.items.length ++ (x.items.flatMap fun y => e8 y.1.val ++ e16 y.2.val) ++
            o16 (x.paClip.map Fin.val) ++ o16 (x.chimeClip.map Fin.val) ++
            o8 (x.lightCue.map Fin.val) ++ e8 x.repeats ++ e16 x.expiry ++ s8 x.lift ++
            e8 x.tail ++ eFlag (decide (∃ e ∈ p.ann.queue, e.set = i)) ++
            eFlag (decide (∃ r, p.ann.playing = some r ∧ r.entry.set = i))))) ∧
    (body = [] →
      let u := s.part.supply
      let l := s.part.light
      let scene := vget l.scenes l.active
      let ceiling := match l.shed with
        | .normal => 100
        | .low => 60
        | .critical => 30
      answered (.supplyQuery tag body) .supplyQuery .ok
        (e16 u.vLow ++ e16 u.vCrit ++ e16 u.budget ++ e8 u.scan ++ e8 u.shift ++
          o16 u.lastVoltage ++ o16 u.lastCurrent ++ o16 u.voltageAverage ++
          o16 u.currentAverage ++ e16 u.peak ++ e8 u.voltageState.code ++ eFlag u.currentLow ++
          e8 u.shed.code ++
          u.zoneSamples.toList.flatMap fun x => match x with
            | none => eAbsent 3
            | some x => e16 x.mA ++ e8 x.level) ∧
      answered (.deckQuery tag body) .deckQuery .ok
        (e8 l.active.val ++ scene.levels.toList.flatMap e8 ++ e8 scene.fade ++
          (match l.activeCue with
            | none => eAbsent 5
            | some (c, began) => e8 c.val ++ eTime (p.time - began)) ++
          e8 l.shed.code ++ e8 ceiling ++ eFlag p.ann.safetyFault ++
          l.zones.toList.flatMap fun x =>
            eFlag x.enabled ++ eFlag x.safety ++ e8 x.minimum ++ e16 x.nominal ++ eFlag x.keep ++
              e8 x.target ++ e8 x.level ++
              o8 (x.stepDue.map fun d => if atOrAfter p.time d then 0 else (d - p.time).toNat) ++
              e8 x.fault.code ++ o16 x.average ++ o8 x.averageLevel ++ e8 x.openCount) ∧
      answered (.partIdent tag body) .partIdent .ok
        ([8, 0x4D, 0x69, 0x72, 0x74, 0x68, 0x75, 0x6E, 0x65, 5, 0x54, 0x44, 0x2D, 0x39, 0x36,
            Config.siliconRevision] ++
          e8 12 ++ e8 13 ++ e8 14 ++ e16 1024 ++ e32 65536 ++ e16 4096 ++ e8 64 ++ e8 8 ++ e8 4 ++
          e8 24 ++ e8 8 ++ e8 8 ++ e8 16 ++ e8 4 ++ e8 32))

/-- STORE-CHECK (R10, R11): a running check answers BUSY and goes on; an idle one with pages on the Free List
runs with its target the list's length, and its first batch is the first 16 pages of the list, or all; on an
empty list it ends at once with the reply OK. Model's choices: assumptions 2, 28, 31 and 49. -/
def Obligations.StoreCheckStartsOrIsBusy : Prop :=
  ∀ (s : State) (tag : Byte), s.quiet → s.part.mem.state = .ready →
    s.part.canTake .storeCheck tag [] →
    let k := s.part.store.check
    let free := runsPages s.part.store.freeList
    (k.running = true →
      exec (.storeCheck tag []) s = .next { s with
        part := { s.part with
          link := s.part.repliedLink .storeCheck tag [] .busy
            (e32 k.target ++ e32 k.tested ++ e32 k.withdrawn) } }) ∧
    (k.running = false → free ≠ [] →
      ∃ t, exec (.storeCheck tag []) s = .next t ∧ t.dram = s.dram ∧ t.pending = s.pending ∧
        t.part.store.check =
          { running := true, target := free.length, tested := 0, withdrawn := 0
            batch := (free.take 16).map fun g => ⟨g, .untested⟩, made := 0, tag := tag } ∧
        runsPages t.part.store.freeList = free.drop 16 ∧
        (∀ g ∈ free.take 16, (t.part.pageEntry g).state = .check) ∧
        t.part.store.clips = s.part.store.clips ∧
        t.part = { s.part with
          store := t.part.store
          mem := { s.part.mem with waiting := vset s.part.mem.waiting 15 true }
          link := (s.part.takenLink .storeCheck tag []).pump }) ∧
    (k.running = false → free = [] →
      exec (.storeCheck tag []) s = .next { s with
        part := { s.part with
          store := { s.part.store with
            check := { running := false, target := 0, tested := 0, withdrawn := 0, batch := []
                       made := 0, tag := tag } }
          link := s.part.repliedLink .storeCheck tag [] .ok (e32 0 ++ e32 0 ++ e32 0) } })

/-! ### Readers and the audio bus -/

/-- A sample period in which no reader comes to a stop point or to its clip's end (R43, R45, R51): every RUNNING
reader outputs the sample at its position, which rises by 1; a block whose last sample is passed leaves the
buffer; a reader that has used the last fully written block of a LOADING clip is STARVED; the other readers
stand; and the frame, if the bus carries one, holds in each slot the chime reader's sample, the enabled
language's channel sample, the PA sample, or silence. Model's choices: assumptions 28 and 34. -/
def Obligations.SamplePeriodOutputsAndAdvances : Prop :=
  ∀ s : State, s.quiet →
    (∀ r c, (s.part.reader r).clip = some c →
      (∀ n, (s.part.reader r).stopPoint = some n → (s.part.reader r).position < n) ∧
      ((s.part.reader r).state = .running → (s.part.reader r).buffer ≠ [] ∧
        (s.part.clip c).pastEnd (s.part.reader r).position = false)) →
    let sample := fun r : ReaderId =>
      let x := s.part.reader r
      if x.clip ≠ none ∧ x.state = .running then
        sampleOf (x.buffer.headD []) (x.position % 128)
      else 0
    ∃ t, exec .samplePeriod s = .next t ∧ t.dram = s.dram ∧ t.pending = s.pending ∧
      (∀ r c, (s.part.reader r).clip = some c → (s.part.reader r).state = .running →
        let x := s.part.reader r
        let buffer := if (x.position + 1) % 128 = 0 then x.buffer.tail else x.buffer
        t.part.reader r = { x with
          position := x.position + 1
          buffer := buffer
          state :=
            if (s.part.clip c).state = .loading ∧ buffer = [] ∧
                x.nextBlock = (s.part.clip c).writtenBlocks then .starved else .running
          page := (t.part.reader r).page
          outstanding := (t.part.reader r).outstanding }) ∧
      (∀ r, (s.part.reader r).clip = none ∨ (s.part.reader r).state ≠ .running →
        t.part.reader r = s.part.reader r) ∧
      t.part.bank.frame = (if s.part.bank.busOn then
        some
          { samples :=
              ((List.finRange 12).map fun l =>
                if s.part.bank.chimeRouting then sample 13
                else if (s.part.language l).enabled then sample (chan l) else 0) ++
              [if s.part.bank.chimeRouting then sample 13 else sample 12]
            pa := s.part.level.paCode }
        else none) ∧
      t.part = { s.part.served with
        mem := { s.part.mem with waiting := t.part.mem.waiting }
        bank := { s.part.bank with readers := t.part.bank.readers, frame := t.part.bank.frame } }

/-- A reader ends in its own sample period: at its stop point it is cut, and past its clip's last sample a
RUNNING reader completes (R44, R46). It is silent, IDLE under the same owner, and reports; its hold is released,
and a RETIRING clip that loses its last hold so is FREE (R32, R33). Model's choices: assumptions 11 and 28. -/
def Obligations.ReaderEndsAtStopPointOrClipEnd : Prop :=
  ∀ (p : Part) (r : ReaderId) (c : ClipId), (p.reader r).clip = some c →
    let x := p.reader r
    let k := p.clip c
    let ended := fun (kind : ReportKind) =>
      (p.samplePeriod r).1 = 0 ∧
      let q := (p.samplePeriod r).2
      q.reader r = Reader.idle x.owner ∧ (∀ o, o ≠ r → q.reader o = p.reader o) ∧
        q.bank.reports = p.bank.reports ++ [⟨r, x.owner, kind⟩] ∧
        (k.state ≠ .retiring ∨ 2 ≤ k.hold → q.clip c = { k with hold := k.hold - 1 }) ∧
        (k.state = .retiring → k.hold ≤ 1 → q.clip c = Clip.empty) ∧
        (∀ d, d ≠ c → q.clip d = p.clip d)
    (∀ n, x.stopPoint = some n → n ≤ x.position → k.pastEnd n = false → ended .cut) ∧
    (x.stopPoint = none → x.state = .running → k.pastEnd x.position = true → ended .completed)

/-! ### Languages and commentary -/

/-- LANG-SET (R57 to R59). With ENABLE the tag, the fallback and the trim held to -24..0 are written, a disabled
language becomes enabled and PARKED, the default and the PA language follow their settings, and a changed trim
recomputes the codes of the seats of the language and of no others. With DISABLE for an enabled language other
than the default, its stream is OFF with an empty play list, every seat of the language, and no other, has the
default language, and a PA language so disabled becomes FOLLOW-DEFAULT. Model's choices: assumptions 2, 13, 14,
16, 28 and 43. -/
def Obligations.LangSetWritesEnablesAndDisables : Prop :=
  (∀ (s : State) (tag : Byte) (body : Bytes) (q : LangReq) (l : Lang) (fallback : Option Lang),
    s.quiet → s.part.canTake .langSet tag body → readLang body = some q → q.lang = l.val →
    (∀ b ∈ q.tag, 0x20 ≤ b.toNat ∧ b.toNat ≤ 0x7E) →
    q.fallback = (fallback.map Fin.val).getD 255 → fallback ≠ some l →
    q.enable = 0 → q.default ≤ 1 → q.pa ≤ 2 →
    let x := s.part.language l
    let trim := max (-24) (min 0 q.trim)
    ∃ t, exec (.langSet tag body) s = .next t ∧ t.dram = s.dram ∧ t.pending = s.pending ∧
      t.part.language l = { x with
        enabled := true, tag := q.tag, fallback := fallback, trim := trim
        stream := if x.enabled then x.stream else .parked } ∧
      (∀ m, m ≠ l → t.part.language m = s.part.language m) ∧
      t.part.lang.default = (if q.default = 0 then l else s.part.lang.default) ∧
      t.part.lang.pa =
        (if q.pa = 0 then some l else if q.pa = 1 then none else s.part.lang.pa) ∧
      t.part.lang.hold = s.part.lang.hold ∧
      (∀ i : SeatId, t.part.seat i = { s.part.seat i with
        pending :=
          if (s.part.seat i).language = l ∧ trim ≠ x.trim then
            (if (s.part.seat i).socket.state = .attached then
              seatCode s.part.level (s.part.seat i).volume trim else .mute)
          else (s.part.seat i).pending }) ∧
      t.part = { s.part with
        lang := t.part.lang, seats := t.part.seats
        link := s.part.repliedLink .langSet tag body
          (if trim = q.trim then .ok else .clamped) (t.part.langFields l 0) }) ∧
  (∀ (s : State) (tag : Byte) (body : Bytes) (q : LangReq) (l : Lang) (fallback : Option Lang),
    s.quiet → s.part.canTake .langSet tag body → readLang body = some q → q.lang = l.val →
    (∀ b ∈ q.tag, 0x20 ≤ b.toNat ∧ b.toNat ≤ 0x7E) →
    q.fallback = (fallback.map Fin.val).getD 255 → fallback ≠ some l →
    q.enable = 1 → q.default = 1 → (q.pa = 1 ∨ q.pa = 2) → l ≠ s.part.lang.default →
    (s.part.language l).enabled = true →
    ∃ t, exec (.langSet tag body) s = .next t ∧ t.dram = s.dram ∧ t.pending = s.pending ∧
      (t.part.language l).enabled = false ∧ (t.part.language l).stream = .off ∧
      (t.part.language l).current = none ∧ (t.part.language l).waiting = [] ∧
      (t.part.language l).tag = q.tag ∧ (t.part.language l).fallback = fallback ∧
      (t.part.language l).trim = max (-24) (min 0 q.trim) ∧
      (∀ i : SeatId,
        (t.part.seat i).language =
          (if (s.part.seat i).language = l then s.part.lang.default
            else (s.part.seat i).language) ∧
        (t.part.seat i).volume = (s.part.seat i).volume ∧
        (t.part.seat i).node = (s.part.seat i).node ∧
        (t.part.seat i).socket = (s.part.seat i).socket) ∧
      t.part.lang.default = s.part.lang.default ∧
      t.part.lang.pa = (if q.pa = 1 ∨ s.part.lang.pa = some l then none else s.part.lang.pa) ∧
      (∀ m, m ≠ l → (t.part.language m).enabled = (s.part.language m).enabled ∧
        (t.part.language m).reel = (s.part.language m).reel) ∧
      t.part.time = s.part.time ∧ t.part.strings = s.part.strings ∧
      t.part.supply = s.part.supply ∧ t.part.ann.sets = s.part.ann.sets)

/-- REEL-SET writes each item in its place and leaves every other place (R64), a repeated cue number or a clip
id out of range is answered BAD-VALUE and writes none, and REEL-CLEAR empties the reel and touches neither the
play list nor the stream (R65). Model's choices: assumptions 2, 15, 28 and 44. -/
def Obligations.ReelSetAndClearWriteTheReel : Prop :=
  ∀ (s : State) (tag : Byte) (body : Bytes) (l : Lang), s.quiet →
    (s.part.canTake .reelSet tag body →
      ((∀ n, 1 ≤ n → n ≤ 256 → body.length ≠ 1 + 4 * n) →
        ∃ fields, exec (.reelSet tag body) s = .next { s with
          part := { s.part with
            link := s.part.repliedLink .reelSet tag body .badLength fields } }) ∧
      (∀ q, readReel body = some q → 12 ≤ q.lang →
        ∃ fields, exec (.reelSet tag body) s = .next { s with
          part := { s.part with
            link := s.part.repliedLink .reelSet tag body .badValue fields } })) ∧
    (∀ q : ReelReq, s.part.canTake .reelSet tag body → readReel body = some q → q.lang = l.val →
      ((∀ x ∈ q.items, (x.clip < 1024 ∨ x.clip = 65535) ∧ x.jump ≤ 1) →
        (q.items.map ReelItem.cue).Nodup →
        ∃ reel : List (Nat × ReelEntry),
          exec (.reelSet tag body) s = .next { s with
            part := { s.part.setLanguage l { s.part.language l with reel := reel } with
              link := s.part.repliedLink .reelSet tag body .ok (e16 reel.length) } } ∧
          (∀ x ∈ q.items, ∀ c : ClipId, x.clip = c.val →
            tfind reel x.cue = some ⟨c, decide (x.jump = 1)⟩) ∧
          (∀ x ∈ q.items, x.clip = 65535 → tfind reel x.cue = none) ∧
          (∀ n, (∀ x ∈ q.items, x.cue ≠ n) →
            tfind reel n = tfind (s.part.language l).reel n)) ∧
      ((∃ x ∈ q.items, 1024 ≤ x.clip ∧ x.clip ≠ 65535) ∨ ¬ (q.items.map ReelItem.cue).Nodup →
        exec (.reelSet tag body) s = .next { s with
          part := { s.part with
            link := s.part.repliedLink .reelSet tag body .badValue
              (s.part.reelFields body) } })) ∧
    (s.part.canTake .reelClear tag body → body.length = 1 →
      (12 ≤ b8 body 0 → exec (.reelClear tag body) s = .next { s with
        part := { s.part with link := s.part.repliedLink .reelClear tag body .badValue [] } }) ∧
      (b8 body 0 = l.val → exec (.reelClear tag body) s = .next { s with
        part := { s.part.setLanguage l { s.part.language l with reel := [] } with
          link := s.part.repliedLink .reelClear tag body .ok [] } }))

/-- A CUE to streams that are PARKED, or PLAYING or SUSPENDED with an entry without the jump flag (R67, R68): a
PARKED stream's play list becomes the one entry; another stream's gains it as its newest WAITING entry, unless
one of the same cue waits, and loses its oldest when 4 would wait; disabled languages and those with an empty
place are not touched; the reply lists the affected languages. Model's choices: assumptions 2, 16 and 28. -/
def Obligations.CueWaitsInTheAffectedPlayLists : Prop :=
  ∀ (s : State) (tag n : Byte), s.quiet → s.part.canTake .cue tag [n] →
    (∀ l r, (s.part.language l).enabled = true →
      tfind (s.part.language l).reel n.toNat = some r →
      (s.part.language l).stream = .parked ∨
        (((s.part.language l).stream = .playing ∨ (s.part.language l).stream = .suspended) ∧
          r.jump = false)) →
    let affected := (List.finRange 12).filter fun l =>
      (s.part.language l).enabled && (tfind (s.part.language l).reel n.toNat).isSome
    let reply : Bytes := 0 :: e8 affected.length ++ affected.flatMap fun l => e8 l.val
    ∃ t, exec (.cue tag [n]) s = .next t ∧ t.dram = s.dram ∧ t.pending = s.pending ∧
      (∀ l, l ∉ affected → t.part.language l = s.part.language l) ∧
      (∀ l r, l ∈ affected → tfind (s.part.language l).reel n.toNat = some r →
        let x := s.part.language l
        let e : Entry := ⟨n, r.clip, r.jump, none, false⟩
        t.part.language l = { x with
          waiting :=
            if x.stream = .parked then [e]
            else if ∃ w ∈ x.waiting, w.cue = n then x.waiting
            else if 3 ≤ x.waiting.length then x.waiting.drop 1 ++ [e]
            else x.waiting ++ [e] }) ∧
      t.part = { s.part with
        lang := { s.part.lang with langs := t.part.lang.langs }, link := t.part.link } ∧
      ((⟨Kind.byte .cue, tag, reply, true⟩ : Reply) ∈ t.part.link.replies ∨
        t.part.link.transmitting = some ⟨Kind.byte .cue, tag, reply⟩)

/-- A CUE that affects one language (R68 to R70): its IDLE stream goes on with the entry, PLAYING and started at
sample 0 when the hold on its clip is granted; a jump into a PLAYING stream whose reader is RUNNING cuts the
clip at the first phrase mark at or after the reader's position and waits alone. A report of a channel reader to
the Commentary Scheduler (R71, R72) is discarded unless a started CURRENT entry stands in its stream; else the
entry is removed, a REFUSED one with a STREAM notice SKIPPED-ABSENT or SKIPPED-RETIRING. That such a notice
carries the stream's state as it stands before the stream goes on is no rule's: the byte is the model's choice
(assumption 22). A PLAYING stream then goes on with its oldest WAITING entry, whose clip takes a hold or whose
START is refused with a report in turn, or is IDLE with none; a SUSPENDED one keeps its WAITING entries. So a
reader that plays its READY clip to the end in a sample period leaves its stream IDLE, or PLAYING the oldest
WAITING entry, when the command is over, and the clip as it was but for the hold released, its last one included
(R32); a WAITING entry's clip, which may be the same one, takes its hold after that. Model's choices: assumptions
2, 11 and 28. -/
def Obligations.CueStartsIdleStreamsAndJumpsAtMarks : Prop :=
  (∀ (s : State) (tag n : Byte) (l : Lang) (r : ReelEntry), s.quiet →
    s.part.canTake .cue tag [n] → (s.part.language l).enabled = true →
    tfind (s.part.language l).reel n.toNat = some r →
    (∀ m, m ≠ l → (s.part.language m).enabled = false ∨
      tfind (s.part.language m).reel n.toNat = none) →
    (s.part.reader (chan l)).owner = .commentary → (s.part.language l).resume = none →
    let x := s.part.language l
    let k := s.part.clip r.clip
    (x.stream = .idle → x.current = none → x.waiting = [] → s.part.lang.hold = false →
      s.part.active = true → (s.part.reader (chan l)).clip = none →
      (k.state = .loading ∨ k.state = .ready) → k.hold < 15 → k.pastEnd 0 = false →
      ∃ t, exec (.cue tag [n]) s = .next t ∧ t.dram = s.dram ∧
        t.part.language l = { x with
          stream := .playing, current := some ⟨n, r.clip, r.jump, none, true⟩, waiting := [] } ∧
        (∀ m, m ≠ l → t.part.language m = s.part.language m) ∧
        t.part.clip r.clip = { k with hold := k.hold + 1 } ∧
        (∀ d, d ≠ r.clip → t.part.clip d = s.part.clip d) ∧
        (let y := t.part.reader (chan l)
         y.state = .priming ∧ y.owner = .commentary ∧ y.clip = some r.clip ∧ y.position = 0 ∧
          y.nextBlock = 0 ∧ y.buffer = [] ∧ y.stopPoint = none ∧
          y.wait = (decide (k.state = .loading) && !k.playable)) ∧
        (∀ q, q ≠ chan l → t.part.reader q = s.part.reader q) ∧
        t.part.seats = s.part.seats ∧ t.part.ann = s.part.ann) ∧
    (∀ (e : Entry) (m : Nat), x.stream = .playing → x.current = some e → e.cut = none →
      r.jump = true → (s.part.reader (chan l)).state = .running →
      m ∈ (s.part.clip e.clip).marks → (s.part.reader (chan l)).position ≤ m →
      (s.part.clip e.clip).marks.Pairwise (· < ·) →
      (∀ m' ∈ (s.part.clip e.clip).marks, m' < m → m' < (s.part.reader (chan l)).position) →
      ∃ t, exec (.cue tag [n]) s = .next t ∧ t.dram = s.dram ∧
        t.part.language l = { x with
          current := some { e with cut := some m }
          waiting := [⟨n, r.clip, true, none, false⟩] } ∧
        (∀ o, o ≠ l → t.part.language o = s.part.language o) ∧
        t.part.reader (chan l) = { s.part.reader (chan l) with stopPoint := some m } ∧
        (∀ q, q ≠ chan l → t.part.reader q = s.part.reader q) ∧
        t.part.store = s.part.store ∧ t.part.seats = s.part.seats ∧ t.part.ann = s.part.ann)) ∧
  -- a report to the Commentary Scheduler
  (∀ (p : Part) (l : Lang) (kind : ReportKind),
    let x := p.language l
    let q := p.takeReport ⟨chan l, .commentary, kind⟩
    let told := match kind with
      | .completed | .cut | .abandoned => p.link
      | .refused .clipRetiring => p.link.noted (.stream l x.stream .skippedRetiring) p.time
      | .refused .clipFree | .refused .holdLimit =>
        p.link.noted (.stream l x.stream .skippedAbsent) p.time
    ((∀ e, x.current = some e → e.started = false) → q = p) ∧
    (∀ e, x.current = some e → e.started = true →
      (x.stream ≠ .playing → q = { p.setLanguage l { x with current := none } with link := told }) ∧
      (x.stream = .playing → x.waiting = [] →
        q = { p.setLanguage l { x with stream := .idle, current := none } with link := told }) ∧
      (∀ w rest, x.stream = .playing → x.waiting = w :: rest → p.active = true →
        (p.reader (chan l)).owner = .commentary → (p.reader (chan l)).clip = none →
        let k := p.clip w.clip
        let next : Language := { x with current := some { w with started := true }, waiting := rest }
        ((k.state = .loading ∨ k.state = .ready) → k.hold < 15 → k.pastEnd 0 = false →
          q.language l = next ∧ (∀ m, m ≠ l → q.language m = p.language m) ∧
          (let y := q.reader (chan l)
           y.state = .priming ∧ y.owner = .commentary ∧ y.clip = some w.clip ∧ y.position = 0 ∧
            y.buffer = [] ∧ y.stopPoint = none) ∧
          (∀ o, o ≠ chan l → q.reader o = p.reader o) ∧
          q.clip w.clip = { k with hold := k.hold + 1 } ∧
          (∀ d, d ≠ w.clip → q.clip d = p.clip d) ∧
          q.bank.reports = p.bank.reports ∧ q.link = told ∧ q.seats = p.seats ∧ q.ann = p.ann) ∧
        (∀ cause : RefuseCause,
          (k.state = .free ∧ cause = .clipFree) ∨ (k.state = .retiring ∧ cause = .clipRetiring) ∨
            ((k.state = .loading ∨ k.state = .ready) ∧ 15 ≤ k.hold ∧ cause = .holdLimit) →
          q = { p.setLanguage l next with
            bank := { p.bank with
              reports := p.bank.reports ++ [⟨chan l, .commentary, .refused cause⟩] }
            link := told })))) ∧
  -- from the sample period in which the clip has been played to its end
  ∀ (s : State) (l : Lang) (e : Entry) (c : ClipId), s.quiet →
    let x := s.part.language l
    let y := s.part.reader (chan l)
    x.stream = .playing → x.current = some e → e.started = true → y.owner = .commentary →
    y.state = .running → y.clip = some c → y.stopPoint = none →
    (s.part.clip c).pastEnd y.position = true → (s.part.clip c).state = .ready →
    1 ≤ (s.part.clip c).hold → s.part.active = true →
    (∀ o, o ≠ chan l → (s.part.reader o).clip = none) →
    ∃ t, exec .samplePeriod s = .next t ∧ t.dram = s.dram ∧ t.pending = s.pending ∧
      (∀ m, m ≠ l → t.part.language m = s.part.language m) ∧ t.part.bank.reports = [] ∧
      (x.waiting = [] →
        t.part.language l = { x with stream := .idle, current := none } ∧
        t.part.reader (chan l) = Reader.idle .commentary ∧
        t.part.clip c = { s.part.clip c with hold := (s.part.clip c).hold - 1 } ∧
        ∀ d, d ≠ c → t.part.clip d = s.part.clip d) ∧
      (∀ w rest, x.waiting = w :: rest →
        ((s.part.clip w.clip).state = .loading ∨ (s.part.clip w.clip).state = .ready) →
        (s.part.clip w.clip).hold < 15 → (s.part.clip w.clip).pastEnd 0 = false →
        t.part.language l = { x with
          current := some { w with started := true }, waiting := rest } ∧
        (t.part.reader (chan l)).state = .priming ∧
        (t.part.reader (chan l)).clip = some w.clip ∧ (t.part.reader (chan l)).position = 0 ∧
        (w.clip = c → t.part.clip c = s.part.clip c) ∧
        (w.clip ≠ c →
          t.part.clip c = { s.part.clip c with hold := (s.part.clip c).hold - 1 } ∧
          t.part.clip w.clip = { s.part.clip w.clip with hold := (s.part.clip w.clip).hold + 1 }) ∧
        ∀ d, d ≠ c → d ≠ w.clip → t.part.clip d = s.part.clip d)

/-! ### Announcements -/

/-- SET-DEFINE of a set that is neither queued nor playing, with every named clip READY and no count above 64,
writes the record with its values held to their ranges and moves the set-reference counts from the old contents
to the new; SET-REMOVE of a defined set gives them back and returns the record to its cold values (R34, R79,
R80). Model's choices: assumptions 2 and 28. -/
def Obligations.SetDefineAndRemoveCountReferences : Prop :=
  ∀ (s : State) (tag : Byte) (body : Bytes) (i : SetId), s.quiet →
    s.part.ann.queued i = false → s.part.ann.plays i = false →
    (∀ (q : SetReq) (x : AnnSet), s.part.canTake .setDefine tag body → readSet body = some q →
      q.record = some (i, x) →
      let old := if (s.part.annSet i).defined then (s.part.annSet i).namedClips else []
      let refs := fun c : ClipId =>
        (s.part.clip c).setRefs - old.count c + x.namedClips.count c
      (∀ c ∈ x.namedClips, (s.part.clip c).state = .ready ∧ refs c ≤ 64) →
      x.defined = true ∧ x.repeats = max 1 (min 3 q.repeats) ∧ x.expiry = min 600 q.expiry ∧
        (x.lift : Int) = max 0 (min 12 q.lift) ∧
        x.tail = (if q.tail = 255 then 3 else min 10 q.tail) ∧
      ∃ t, exec (.setDefine tag body) s = .next t ∧ t.dram = s.dram ∧ t.pending = s.pending ∧
        t.part.annSet i = x ∧ (∀ j, j ≠ i → t.part.annSet j = s.part.annSet j) ∧
        (∀ c, t.part.clip c = { s.part.clip c with setRefs := refs c }) ∧
        t.part = { s.part with
          store := { s.part.store with clips := t.part.store.clips }
          ann := { s.part.ann with sets := t.part.ann.sets }
          link := s.part.repliedLink .setDefine tag body
            (if q.clamped then .clamped else .ok) (e8 i.val ++ [0xFF, 0xFF]) }) ∧
    (s.part.canTake .setRemove tag body → body.length = 1 → b8 body 0 = i.val →
      (s.part.annSet i).defined = true →
      ∃ t, exec (.setRemove tag body) s = .next t ∧ t.dram = s.dram ∧ t.pending = s.pending ∧
        t.part.annSet i = AnnSet.cold ∧ (∀ j, j ≠ i → t.part.annSet j = s.part.annSet j) ∧
        (∀ c, t.part.clip c = { s.part.clip c with
          setRefs := (s.part.clip c).setRefs - (s.part.annSet i).namedClips.count c }) ∧
        t.part = { s.part with
          store := { s.part.store with clips := t.part.store.clips }
          ann := { s.part.ann with sets := t.part.ann.sets }
          link := s.part.repliedLink .setRemove tag body .ok [] })

/-- ANNOUNCE (R82, R83): of a set queued or playing it is MERGED and changes neither; while an announcement
plays that it neither cuts nor follows, its entry joins the safety group's end or the tail; with 8 entries a
STOP entry displaces the newest SERVICE entry and a SAFETY entry the newest entry of the general group, the
displaced set being dropped with a notice and named in the reply; and with no entry to displace it is refused
FULL. Model's choices: assumptions 2 and 28. -/
def Obligations.AnnounceMergesQueuesOrDisplaces : Prop :=
  ∀ (s : State) (tag : Byte) (body : Bytes) (i : SetId), s.quiet →
    s.part.canTake .announce tag body → body.length = 1 → b8 body 0 = i.val →
    (s.part.annSet i).defined = true →
    let q := s.part.ann.queue
    let cls := (s.part.annSet i).cls
    let e := s.part.newEntry i tag
    let busy := ∃ r, s.part.ann.playing = some r ∧
      (cls ≠ .safety ∨ (r.entry.cls = .safety ∧ r.phase ≠ .tail)) ∧
      (r.phase = .tail → ∀ x ∈ q, x.cls ≠ .safety)
    let with_ := fun (q' : List QEntry) (fields : Bytes) =>
      exec (.announce tag body) s = .next { s with
        part := { s.part with
          ann := { s.part.ann with queue := q' }
          link := s.part.repliedLink .announce tag body .ok fields } }
    (s.part.ann.queued i = true ∨ s.part.ann.plays i = true →
      exec (.announce tag body) s = .next { s with
        part := { s.part with
          link := s.part.repliedLink .announce tag body .merged
            (e8 i.val ++ [s.part.ann.place i, 0xFF]) } }) ∧
    (s.part.ann.queued i = false → s.part.ann.plays i = false → busy → q.length < 8 →
      (cls ≠ .safety → with_ (q ++ [e]) (e8 i.val ++ e8 q.length ++ [0xFF])) ∧
      (cls = .safety →
        let group := q.takeWhile fun x => x.cls = .safety
        with_ (group ++ e :: q.drop group.length) (e8 i.val ++ e8 group.length ++ [0xFF]))) ∧
    (s.part.ann.queued i = false → s.part.ann.plays i = false → q.length = 8 →
      (cls = .service ∨ (cls = .stop ∧ ∀ x ∈ q, x.cls ≠ .service) ∨
        (cls = .safety ∧ ∀ x ∈ q, x.cls = .safety)) →
      exec (.announce tag body) s = .next { s with
        part := { s.part with
          link := s.part.repliedLink .announce tag body .full
            (e8 i.val ++ [0xFF, 0xFF]) } }) ∧
    (∀ (a b : List QEntry) (x : QEntry), s.part.ann.queued i = false →
      s.part.ann.plays i = false → busy → q.length = 8 → q = a ++ x :: b →
      let displaced := fun (q' : List QEntry) (place : Nat) =>
        exec (.announce tag body) s = .next { s with
          part := { s.part with
            ann := { s.part.ann with
              queue := q', last := some ⟨x.set, .dropped, some .displaced, s.part.time⟩ }
            link := (((s.part.takenLink .announce tag body).noted
              (.announce x.set .dropped (some .displaced)) s.part.time).answer .announce tag
                (0 :: e8 i.val ++ e8 place ++ e8 x.set.val)).pump } }
      (cls = .stop → x.cls = .service → (∀ y ∈ b, y.cls ≠ .service) →
        displaced (a ++ b ++ [e]) 7) ∧
      (cls = .safety → x.cls ≠ .safety → (∀ y ∈ b, y.cls = .safety) →
        let group := (a ++ b).takeWhile fun y => y.cls = .safety
        displaced (group ++ e :: (a ++ b).drop group.length) group.length))

/-- ANNOUNCE starts its set at once when nothing plays and nothing waits (R49, R73, R82, R86, R87, R97, R98):
the Playing Record holds the entry in CHIME, the chime reader primes on every slot's behalf, the readers belong
to ANNOUNCEMENT, each channel reader that was playing has left its hold in a resume record, the PLAYING streams
are SUSPENDED, and DECK-ALERT is asserted for a SAFETY set. A set without a chime clip starts in SPEECH (R86).
The end of the chime starts the first repetition (R87), which gives every enabled language the set's clip for
it, else the one for its fallback, else the default clip, and the PA its own clip or the PA language's (R88).
Model's choices: assumptions 2, 11 and 28. -/
def Obligations.AnnounceStartsTheChime : Prop :=
  (∀ (s : State) (tag : Byte) (body : Bytes) (i : SetId) (c : ClipId), s.quiet →
    s.part.canTake .announce tag body → body.length = 1 → b8 body 0 = i.val →
    let x := s.part.annSet i
    let k := s.part.clip c
    x.defined = true → x.chimeClip = some c → s.part.ann.queue = [] →
    s.part.ann.playing = none → s.part.active = true →
    (k.state = .loading ∨ k.state = .ready) → k.hold < 15 → k.pastEnd 0 = false →
    (∀ l, (s.part.reader (chan l)).owner = .commentary) → (s.part.reader 13).clip = none →
    ∃ t, exec (.announce tag body) s = .next t ∧ t.dram = s.dram ∧ t.pending = s.pending ∧
      t.part.ann.playing = some ⟨s.part.newEntry i tag, .chime, 1, [], false, true, none⟩ ∧
      t.part.ann.queue = [] ∧ t.part.ann.sets = s.part.ann.sets ∧
      t.part.ann.last = s.part.ann.last ∧
      t.part.ann.deckAlert = (decide (x.cls = .safety) || s.part.ann.safetyFault) ∧
      t.part.bank.chimeRouting = true ∧
      ((t.part.reader 13).state = .priming ∧ (t.part.reader 13).clip = some c ∧
        (t.part.reader 13).position = 0 ∧ (t.part.reader 13).owner = .announcement) ∧
      (t.part.clip c).hold = k.hold + 1 ∧ (∀ d, d ≠ c → t.part.clip d = s.part.clip d) ∧
      (t.part.reader 12).owner = .announcement ∧
      (∀ l : Lang, t.part.reader (chan l) =
        (if (s.part.reader (chan l)).clip = none then
          { s.part.reader (chan l) with owner := .announcement }
        else Reader.idle .announcement)) ∧
      t.part.lang.hold = true ∧
      (∀ l : Lang, let y := s.part.language l
        (t.part.language l).stream = (if y.stream = .playing then .suspended else y.stream) ∧
        (∀ d, (s.part.reader (chan l)).clip = some d →
          (t.part.language l).resume = some ⟨d, markAtOrBelow (s.part.clip d).marks
            (s.part.reader (chan l)).position⟩) ∧
        ((s.part.reader (chan l)).clip = none → (t.part.language l).resume = y.resume)) ∧
      t.part.level.cls = some x.cls ∧ t.part.level.phase = some .chime ∧
      t.part.level.lift = x.lift ∧
      t.part.light.activeCue = (match x.lightCue with
        | some n => some (n, s.part.time)
        | none => s.part.light.activeCue) ∧
      t.part.time = s.part.time ∧ t.part.strings = s.part.strings ∧
      t.part.supply = s.part.supply) ∧
  ∀ p : Part, p.active = true →
    -- the start of a set without a chime clip
    (∀ e rest, p.ann.playing = none → p.ann.queue = e :: rest →
      let x := p.annSet e.set
      x.chimeClip = none → p.clipsReady x → (∀ l, (p.reader (chan l)).owner = .commentary) →
      (p.reader 12).clip = none →
      let q := p.offerStart
      q.ann.playing = some ⟨e, .speech, 1, p.enabledLangs, true, false, none⟩ ∧
      q.ann.queue = rest ∧ q.speaksFor x p ∧ q.bank.chimeRouting = p.bank.chimeRouting ∧
      q.level.told e.cls .speech x.lift ∧ q.lang.hold = true) ∧
    -- the end of the chime
    (∀ r, p.ann.playing = some r → r.phase = .chime →
      let x := p.annSet r.entry.set
      p.speechReadersIdle → p.clipsReady x →
      let q := p.announcementReport 13
      q.ann = { p.ann with playing := some { r with
        phase := .speech, chimeSpeaking := false, channels := p.enabledLangs
        paSpeaking := true } } ∧
      q.speaksFor x p ∧ q.bank.chimeRouting = false ∧ q.level.told r.entry.cls .speech x.lift ∧
      q.lang = p.lang ∧ q.light = p.light ∧ q.link = p.link)

/-- ANNOUNCE of a SAFETY set while a STOP or SERVICE announcement is in CHIME or SPEECH cuts it (R93, R94): the
cut entry stands at the head of the general group, the SAFETY set plays, DECK-ALERT is asserted, and no resume
signal passes. In a full queue the newest entry has made room for the SAFETY set (R83). A cut entry whose
deadline has been reached is DROPPED with reason EXPIRED instead; where 8 entries stand with the SAFETY set
among them, the newest SERVICE entry is DROPPED with reason DISPLACED to make room for it, or with none it is so
DROPPED itself; each of these raises its notice, before the STARTED of the SAFETY set. A SAFETY entry at the
head of the queue cuts a TAIL short: the announcement in it is DONE, the SAFETY set starts, and the streams that
play again are SUSPENDED anew (R92, R73). Model's choices: assumptions 2, 11 and 28. -/
def Obligations.SafetyCutsAndReinserts : Prop :=
  (∀ (s : State) (tag : Byte) (body : Bytes) (i : SetId) (c : ClipId) (r : Playing), s.quiet →
    s.part.canTake .announce tag body → body.length = 1 → b8 body 0 = i.val →
    let x := s.part.annSet i
    let k := s.part.clip c
    x.defined = true → x.cls = .safety → x.chimeClip = some c →
    s.part.ann.playing = some r → r.entry.cls ≠ .safety → r.phase ≠ .tail → r.entry.set ≠ i →
    s.part.ann.queue.length ≤ 8 → s.part.ann.queued i = false →
    (∀ e ∈ s.part.ann.queue, e.cls ≠ .safety) →
    s.part.active = true → (k.state = .loading ∨ k.state = .ready) → k.hold < 15 →
    k.pastEnd 0 = false →
    (∀ q, (s.part.reader q).owner = .announcement) →
    ∃ t, exec (.announce tag body) s = .next t ∧ t.dram = s.dram ∧ t.pending = s.pending ∧
      t.part.ann.playing = some ⟨s.part.newEntry i tag, .chime, 1, [], false, true, none⟩ ∧
      (let arrived := s.part.ann.queue.take 7
       let made := (s.part.ann.queue.drop 7).head?
       let expired := ∃ d, r.entry.deadline = some d ∧ atOrAfter s.part.time d = true
       let left := fun (queue : List QEntry) (last : LastEnding) (dropped : List Notice) =>
         t.part.ann.queue = queue ∧ t.part.ann.last = some last ∧
         ((∀ q d, (s.part.reader q).clip = some d → (s.part.clip d).state ≠ .retiring) →
           t.part.link =
             (((made.toList.map fun g => Notice.announce g.set .dropped (some .displaced)) ++
                [Notice.announce r.entry.set .cut none] ++ dropped ++
                [Notice.announce i .started none]).foldl
               (fun k n => k.noted n s.part.time) (s.part.takenLink .announce tag body) |>.answer
                 .announce tag (0 :: e8 i.val ++ [0xFE] ++ o8 (made.map fun g => g.set.val))).pump)
       (expired → left arrived ⟨r.entry.set, .dropped, some .expired, s.part.time⟩
         [.announce r.entry.set .dropped (some .expired)]) ∧
       (¬ expired → arrived.length < 7 →
         left (r.entry :: arrived) ⟨r.entry.set, .cut, none, s.part.time⟩ []) ∧
       (¬ expired → arrived.length = 7 → (∀ y ∈ arrived, y.cls ≠ .service) →
         left arrived ⟨r.entry.set, .dropped, some .displaced, s.part.time⟩
           [.announce r.entry.set .dropped (some .displaced)]) ∧
       (∀ a y b, ¬ expired → arrived.length = 7 → arrived = a ++ y :: b → y.cls = .service →
         (∀ z ∈ b, z.cls ≠ .service) →
         left (r.entry :: (a ++ b)) ⟨y.set, .dropped, some .displaced, s.part.time⟩
           [.announce y.set .dropped (some .displaced)])) ∧
      t.part.ann.deckAlert = true ∧ t.part.bank.chimeRouting = true ∧
      ((t.part.reader 13).state = .priming ∧ (t.part.reader 13).clip = some c ∧
        (t.part.reader 13).position = 0) ∧
      (∀ q, q ≠ 13 → (s.part.reader q).clip ≠ none →
        t.part.reader q = Reader.idle .announcement) ∧
      t.part.lang = s.part.lang ∧ t.part.strings = s.part.strings ∧
      t.part.supply = s.part.supply ∧ t.part.time = s.part.time) ∧
  ∀ (p : Part) (r : Playing) (e : QEntry) (rest : List QEntry) (c : ClipId), p.active = true →
    p.ann.playing = some r → r.phase = .tail → p.ann.queue = e :: rest → e.cls = .safety →
    let x := p.annSet e.set
    x.chimeClip = some c → (p.clip c).state = .ready → 2 ≤ (p.clip c).loaded →
    (p.clip c).hold < 15 → (∀ l, (p.reader (chan l)).owner = .commentary) →
    (p.reader 13).clip = none →
    let q := p.offerStart
    q.ann = { p.ann with
      queue := rest, playing := some ⟨e, .chime, 1, [], false, true, none⟩
      last := some ⟨r.entry.set, .done, none, p.time⟩, deckAlert := true } ∧
    (q.reader 13).primes c ∧ q.bank.chimeRouting = true ∧ q.level.told .safety .chime x.lift ∧
    q.lang.hold = true ∧
    (∀ l, (q.reader (chan l)).owner = .announcement ∧ (q.reader (chan l)).clip = none ∧
      ((p.language l).stream = .playing → (q.language l).stream = .suspended)) ∧
    q.light.activeCue = x.lightCue.map fun n => (n, p.time)

/-- How announcements leave the queue and the Playing Record: a cancel and an expiry of an entry that waits
behind an announcement not in TAIL (R84, R95), the end of the tail, a cancel in TAIL, and a cancel in CHIME or
SPEECH, each with an empty queue (R91, R96, R98, R99). A reader's report, and the disabling of a language (R90),
take its part away from a repetition; when none is left the next repetition starts or, after the last, TAIL
begins (R89, R91): the channel readers go back (R50), and each SUSPENDED stream is taken up from its resume
record on the hold that the record kept, with its stop mark, or from its oldest WAITING entry, or is IDLE (R75).
A tail of 0 s ends at once. Model's choices: assumptions 2, 3, 11, 28 and 43. -/
def Obligations.AnnouncementsEnd : Prop :=
  (∀ (s : State) (tag : Byte) (body : Bytes) (i : SetId) (r : Playing), s.quiet →
    s.part.ann.playing = some r →
    let a := s.part.ann
    let rest := a.queue.filter fun e => e.set ≠ i
    let silent := fun t : State =>
      t.part.ann.playing = none ∧ t.part.ann.queue = [] ∧
        t.part.ann.deckAlert = a.safetyFault ∧ t.part.light.activeCue = none ∧
        (t.part.reader 12).owner = .none ∧ (t.part.reader 13).owner = .none ∧
        t.part.level.cls = none ∧ t.part.level.phase = none ∧ t.part.level.lift = 0
    (∀ n, s.part.canTake .announceCancel tag body → body.length = 1 → b8 body 0 = i.val →
      r.phase ≠ .tail → queuePlace i a.queue = some n →
      ∃ t, exec (.announceCancel tag body) s = .next t ∧ t.dram = s.dram ∧
        t.pending = s.pending ∧
        t.part = { s.part with
          ann := { a with
            queue := rest, last := some ⟨i, .dropped, some .cancelled, s.part.time⟩ }
          link := t.part.link } ∧
        ((⟨Kind.byte .announceCancel, tag, 0 :: e8 i.val ++ e8 n, true⟩ : Reply) ∈
            t.part.link.replies ∨
          t.part.link.transmitting =
            some ⟨Kind.byte .announceCancel, tag, 0 :: e8 i.val ++ e8 n⟩)) ∧
    (∀ (e : QEntry) (d : PartTime), r.phase ≠ .tail → e ∈ a.queue → e.set = i →
      (∀ e' ∈ a.queue, e'.set = i → e' = e) → e.deadline = some d →
      ∃ t, exec (.announceEntryExpiry i) s = .next t ∧ t.dram = s.dram ∧
        t.pending = s.pending ∧
        t.part.ann = { a with
          queue := rest, last := some ⟨i, .dropped, some .expired, t.part.time⟩ } ∧
        t.part = { (s.part.reach d) with ann := t.part.ann, link := t.part.link }) ∧
    (∀ d, r.phase = .tail → r.tailEnd = some d → a.queue = [] →
      ∃ t, exec .tailEnd s = .next t ∧ t.dram = s.dram ∧ t.pending = s.pending ∧ silent t ∧
        t.part.time = (s.part.reach d).time ∧
        t.part.ann.last = some ⟨r.entry.set, .done, none, t.part.time⟩ ∧
        (∀ l, t.part.reader (chan l) = s.part.reader (chan l)) ∧
        t.part.lang = s.part.lang ∧ t.part.store = s.part.store ∧
        t.part.supply = s.part.supply ∧ t.part.strings = s.part.strings) ∧
    (s.part.canTake .announceCancel tag body → body.length = 1 → b8 body 0 = i.val →
      r.entry.set = i → a.queue = [] →
      ∃ t, exec (.announceCancel tag body) s = .next t ∧ t.dram = s.dram ∧
        t.pending = s.pending ∧ silent t ∧
        t.part.ann.last = some ⟨i, .dropped, some .cancelled, s.part.time⟩ ∧
        (r.phase = .tail → t.part.lang = s.part.lang ∧ t.part.store = s.part.store) ∧
        (r.phase ≠ .tail → t.part.lang.hold = false ∧ t.part.bank.chimeRouting = false ∧
          ∀ l, (t.part.reader (chan l)).owner = .commentary))) ∧
  ∀ p : Part, p.active = true →
    (∀ r, p.ann.playing = some r →
      let x := p.annSet r.entry.set
      -- a part of a repetition ends and others go on
      (∀ l : Lang,
        let rest := r.channels.filter fun m => decide (m ≠ l)
        (r.phase = .speech → rest ≠ [] ∨ r.paSpeaking = true →
          p.announcementReport (chan l) = p.setPlaying (some { r with channels := rest }) ∧
          (l ∈ r.channels →
            let q := p.languageDisabled l
            q.ann = { p.ann with playing := some { r with channels := rest } } ∧
            q.bank.reports = p.bank.reports ∧ (q.reader (chan l)).clip = none ∧
            ∀ o, o ≠ chan l → q.reader o = p.reader o)) ∧
        (r.phase ≠ .speech ∨ l ∉ r.channels → p.languageDisabled l = p)) ∧
      (r.phase = .speech → r.channels ≠ [] →
        p.announcementReport 12 = p.setPlaying (some { r with paSpeaking := false })) ∧
      -- the last part of a repetition ends
      (∀ o : ReaderId, r.phase = .speech →
        ((o = 12 ∧ r.channels = []) ∨
          ∃ l, o = chan l ∧ r.paSpeaking = false ∧ ∀ m ∈ r.channels, m = l) →
        let q := p.announcementReport o
        (r.repetition < x.repeats → p.speechReadersIdle → p.clipsReady x →
          q.ann = { p.ann with playing := some { r with
            repetition := r.repetition + 1, channels := p.enabledLangs, paSpeaking := true } } ∧
          q.speaksFor x p ∧ q.level = p.level ∧ q.lang = p.lang ∧ q.light = p.light) ∧
        (x.repeats ≤ r.repetition → x.tail ≠ 0 →
          (∀ e, p.ann.queue.head? = some e → e.cls ≠ .safety) →
          q.ann = { p.ann with
            playing := some { r with
              phase := .tail, channels := [], paSpeaking := false, chimeSpeaking := false
              tailEnd := some (later p.time (1000 * x.tail)) }
            deckAlert := decide (r.entry.cls = .safety) || p.ann.safetyFault } ∧
          q.level.told r.entry.cls .tail 0 ∧ q.light = p.light ∧ q.lang.hold = false ∧
          q.reader 12 = p.reader 12 ∧ q.reader 13 = p.reader 13 ∧
          ∀ l, let y := p.language l
            (q.reader (chan l)).owner = .commentary ∧
            (y.stream ≠ .suspended → q.language l = y) ∧
            (∀ d, y.stream = .suspended → y.resume = some d →
              q.language l = { y with
                stream := .playing, resume := none
                current := y.current.map fun e => { e with started := true } } ∧
              ((p.clip d.clip).state = .ready → (p.clip d.clip).pastEnd d.sample = false →
                (q.reader (chan l)).state = .priming ∧
                (q.reader (chan l)).clip = some d.clip ∧
                (q.reader (chan l)).position = d.sample ∧
                (q.reader (chan l)).stopPoint = y.current.bind Entry.cut)) ∧
            (∀ e rest, y.stream = .suspended → y.resume = none → y.waiting = e :: rest →
              q.language l = { y with
                stream := .playing, current := some { e with started := true }
                waiting := rest }) ∧
            (y.stream = .suspended → y.resume = none → y.waiting = [] →
              q.language l = { y with stream := .idle, current := none })) ∧
        (x.repeats ≤ r.repetition → x.tail = 0 → p.ann.queue = [] →
          q.ann = { p.ann with
            playing := none, last := some ⟨r.entry.set, .done, none, p.time⟩
            deckAlert := p.ann.safetyFault } ∧
          (q.reader 12).owner = .none ∧ (q.reader 13).owner = .none ∧ q.lang.hold = false ∧
          q.level.cls = none ∧ q.level.phase = none))) ∧
    -- a resume with its notice
    (∀ l d, (p.language l).stream = .suspended → (p.language l).resume = some d →
      (p.clip d.clip).state = .ready → (p.clip d.clip).pastEnd d.sample = false →
      (p.reader (chan l)).clip = none →
      (p.takeUp l).link = p.link.noted (.stream l .playing .resumed) p.time ∧
      ∀ c, (p.takeUp l).clip c = p.clip c)

/-! ### Seat strings and sockets -/

/-- STRING-SET on a string with no exchange in progress applies the population at once (R110 to R112): the seats
beyond a lowered one are UNCONFIGURED with release polls to go out, those within a raised one are SEEKING, and
the reply carries the population and both numbers; with an exchange in progress the population waits. When that
exchange ends, by a valid answer or by the timeout, the answer or miss is taken as with no population pending,
and then the population is applied and the waiting STRING-SET gets the same reply: the seats taken out of use
are UNCONFIGURED, the ones taken in SEEKING, and every other seat is as the exchange left it. The round goes on
at the next position while that lies below the new population, at once or, with release polls to go out, after
them; else it ends, and when 20 ms have passed since the round start the next one begins at once, and ends as it
begins with population 0 (R104). A round that waits behind release polls, with no exchange in progress, keeps its
position when the lowered population comes to lie at or below it: R111 ends a round at the end of an exchange in
progress only, and this case is the model's choice (assumption 51). Model's choices: assumptions 2, 28 and 51. -/
def Obligations.StringSetAppliesOrWaits : Prop :=
  (∀ (s : State) (tag : Byte) (body : Bytes) (i : StringId), s.quiet →
      s.part.canTake .stringSet tag body → body.length = 2 → b8 body 0 = i.val →
      let x := s.part.string i
      let new := min 24 (b8 body 1)
      let place := fun k : SeatId => k.val % 24
      let on := fun k : SeatId => k.val / 24 = i.val
      (x.exchange = true →
        exec (.stringSet tag body) s = .next { s with
          part := { s.part.setString i { x with pendingPopulation := some new } with
            link := (s.part.takenLink .stringSet tag body).pump } }) ∧
      (x.exchange = false →
        ∃ t, exec (.stringSet tag body) s = .next t ∧ t.dram = s.dram ∧ t.pending = s.pending ∧
          t.part.string i = { x with
            population := new, pendingPopulation := none
            releasing := x.releasing ++ List.range' new (x.population - new) } ∧
          (∀ j, j ≠ i → t.part.string j = s.part.string j) ∧
          (∀ k : SeatId,
            (on k → new ≤ place k → place k < x.population →
              (t.part.seat k).node = .unconfigured ∧ (t.part.seat k).missCount = 0 ∧
              (t.part.seat k).baselines = none ∧
              ((s.part.seat k).socket.state ≠ .lockedOut →
                (t.part.seat k).socket.state = .unpowered)) ∧
            (on k → x.population ≤ place k → place k < new →
              (t.part.seat k).node = .seeking ∧ (t.part.seat k).socket = (s.part.seat k).socket) ∧
            (¬ on k ∨ (place k < new ∧ place k < x.population) ∨
                (new ≤ place k ∧ x.population ≤ place k) →
              t.part.seat k = s.part.seat k) ∧
            (t.part.seat k).language = (s.part.seat k).language ∧
            (t.part.seat k).volume = (s.part.seat k).volume) ∧
          (let reply : Bytes := (if 24 < b8 body 1 then 1 else 0) :: e8 i.val ++ e8 new ++
            e8 (x.population - new) ++ e8 (new - x.population)
           (⟨Kind.byte .stringSet, tag, reply, true⟩ : Reply) ∈ t.part.link.replies ∨
            t.part.link.transmitting = some ⟨Kind.byte .stringSet, tag, reply⟩) ∧
          t.part.time = s.part.time ∧ t.part.ann = s.part.ann ∧
          t.part.supply = s.part.supply ∧ t.part.level = s.part.level ∧
          t.part.light = s.part.light)) ∧
  -- an exchange that ends with a population pending
  (∀ (s : State) (i : StringId) (n new : Nat) (w : Slot) (cmd : Instr), s.quiet →
    let x := s.part.string i
    let old := x.population
    x.exchange = true → x.roundPosition = some n → n < 24 →
    x.pendingPopulation = some new → new ≤ 24 →
    w ∈ s.part.link.slots → w.kind = .stringSet → w.progress = .taken →
    (∀ y ∈ s.part.link.slots, y.kind = .stringSet → y.progress = .taken → y = w) →
    (cmd = .answerTimeout i ∨ ∃ bytes a, readAnswer n bytes = some a ∧ cmd = .nodeAnswer i bytes) →
    -- the same exchange with no population pending
    let s₀ : State :=
      { s with part := s.part.setString i { x with pendingPopulation := none } }
    let releasing := x.releasing ++ List.range' new (old - new)
    let late := atOrAfter s.part.time (later x.roundStart 20) = true
    ∃ t₀ t, exec cmd s₀ = .next t₀ ∧ exec cmd s = .next t ∧
      t.dram = s.dram ∧ t.pending = s.pending ∧ t.part.time = s.part.time ∧
      (let y := t.part.string i
       y.population = new ∧ y.pendingPopulation = none ∧ y.releasing = releasing ∧
        (n + 1 < new →
          y.roundPosition = some (n + 1) ∧ y.roundStart = x.roundStart ∧
          (y.exchange = true ↔ releasing = [])) ∧
        (new ≤ n + 1 → ¬ late →
          y.roundPosition = none ∧ y.roundStart = x.roundStart ∧ y.exchange = false) ∧
        (new ≤ n + 1 → late → new = 0 →
          y.roundPosition = none ∧ y.roundStart = s.part.time ∧ y.exchange = false) ∧
        (new ≤ n + 1 → late → new ≠ 0 →
          y.roundPosition = some 0 ∧ y.roundStart = s.part.time ∧
          (y.exchange = true ↔ releasing = []))) ∧
      (∀ j, j ≠ i → t.part.string j = s.part.string j) ∧
      (∀ k : SeatId,
        let on := k.val / 24 = i.val
        let place := k.val % 24
        let z₀ := t₀.part.seat k
        let z := t.part.seat k
        (on → new ≤ place → place < old →
          z.node = .unconfigured ∧ z.missCount = 0 ∧ z.baselines = none ∧
          (z₀.socket.state = .lockedOut → z.socket = z₀.socket) ∧
          (z₀.socket.state ≠ .lockedOut → z.socket.state = .unpowered)) ∧
        (on → old ≤ place → place < new →
          z.node = .seeking ∧ z.missCount = 0 ∧ z.baselines = none ∧ z.socket = z₀.socket) ∧
        (¬ on ∨ (place < new ∧ place < old) ∨ (new ≤ place ∧ old ≤ place) →
          z.node = z₀.node ∧ z.missCount = z₀.missCount ∧ z.baselines = z₀.baselines ∧
          z.socket = z₀.socket) ∧
        z.language = z₀.language ∧ z.volume = z₀.volume) ∧
      (let reply : Bytes := (if 24 < b8 w.body 1 then 1 else 0) :: e8 i.val ++ e8 new ++
        e8 (old - new) ++ e8 (new - old)
       (⟨Kind.byte .stringSet, w.tag, reply, true⟩ : Reply) ∈ t.part.link.replies ∨
        t.part.link.transmitting = some ⟨Kind.byte .stringSet, w.tag, reply⟩))

/-- A round begins 20 ms after the round before it at the earliest (R104, R105): the round start is the part
time, and the poll of position 0 is built from its seat, with socket power ON only for an ONLINE node whose
socket may be powered, and sent; with population 0 the round ends as it begins. When a string's release polls
have been sent and no exchange is in progress, the round that waited goes on with its position's poll (R111).
Model's choices: assumptions 3 and 28. -/
def Obligations.RoundsBuildTheirPolls : Prop :=
  (∀ (s : State) (i : StringId) (k : SeatId), s.quiet → s.part.active = true →
    k.val = 24 * i.val →
    let x := s.part.string i
    let z := s.part.seat k
    let q := s.part.reach (later x.roundStart 20)
    x.scanning = true → x.roundPosition = none → x.releasing = [] →
    (x.population = 0 →
      exec (.roundStart i) s = .next { s with
        part := { q.setString i { x with roundStart := q.time } with
          link := s.part.link.pump } }) ∧
    (x.population ≠ 0 →
      let power := decide (z.node = .online) &&
        ((decide (z.socket.state = .unpowered) && decide (s.part.supply.shed ≠ .critical)) ||
          decide (z.socket.state = .settling) || decide (z.socket.state = .empty) ||
          decide (z.socket.state = .attached))
      let gain := if z.node = .online then z.pending else .mute
      let led := if z.node = .online then
        (match z.socket.state with
          | .attached => if z.volume = 0 then Led.off else .steady
          | .faulted => .slow
          | .lockedOut => .fast
          | _ => .off)
        else .off
      exec (.roundStart i) s = .next { s with
        part := { (q.setString i { x with
          roundStart := q.time, roundPosition := some 0, exchange := true
          lastPoll := some ⟨0, power, led, z.language, gain⟩ }).setSeat k
            { z with carried := some (power, gain) } with
          link := s.part.link.pump } })) ∧
  (∀ (s : State) (i : StringId), s.quiet → (s.part.string i).releasing ≠ [] →
    let x := s.part.string i
    (x.exchange = true ∨ x.roundPosition = none →
      exec (.releasePollsSent i) s = .next { s with
        part := { s.part.setString i { x with releasing := [] } with
          link := s.part.link.pump } }) ∧
    (∀ (n : Nat) (k : SeatId), x.exchange = false → x.roundPosition = some n →
      n < x.population → n < 24 → k.val = 24 * i.val + n →
      ∃ t, exec (.releasePollsSent i) s = .next t ∧ t.dram = s.dram ∧ t.pending = s.pending ∧
        (t.part.string i).releasing = [] ∧ (t.part.string i).exchange = true ∧
        (t.part.string i).roundPosition = some n ∧
        (t.part.string i).lastPoll = some ((s.part.seat k).poll n s.part.supply.shed) ∧
        (∀ j, j ≠ i → t.part.string j = s.part.string j) ∧
        (∀ j, j ≠ k → t.part.seat j = s.part.seat j) ∧
        t.part = { s.part.served with strings := t.part.strings, seats := t.part.seats }))

/-- A valid answer of a node (R103, R106, R107, R113 to R115, R121, R122): a SEEKING or LOST node is ONLINE with
the answer's counters as baselines; an ONLINE node's miss count is 0, its volume moves by the presses, held to
0..15, and its language moves one step through the enabled languages, the lowest following the highest, for each
language press; the poll's socket power is acknowledged, and an acknowledged ON makes an UNPOWERED socket
SETTLING for 400 ms with its average begun anew by the sample; the sample is stored; and the exchange ends, its
string's round going on or ending. Model's choices: assumption 28. -/
def Obligations.NodeAnswersAreTaken : Prop :=
  ∀ (s : State) (i : StringId) (k : SeatId) (n : Nat) (bytes : Bytes) (a : Answer), s.quiet →
    (s.part.string i).exchange = true → (s.part.string i).roundPosition = some n →
    k.val = 24 * i.val + n → n < 24 → readAnswer n bytes = some a →
    (s.part.string i).pendingPopulation = none → (s.part.string i).population ≤ 24 →
    (s.part.seat k).node ≠ .unconfigured →
    ∃ t, exec (.nodeAnswer i bytes) s = .next t ∧ t.dram = s.dram ∧ t.pending = s.pending ∧
      let z := s.part.seat k
      let on := (List.finRange 12).filter fun l => (s.part.language l).enabled
      let step := fun l : Lang => (on.find? fun m => decide (l < m)).getD (on.headD l)
      (t.part.seat k).node = .online ∧ (t.part.seat k).missCount = 0 ∧
      (t.part.seat k).baselines = some a.counters ∧
      (t.part.seat k).socket.lastSample = a.sample ∧
      (∀ b, z.node = .online → z.baselines = some b →
        ((t.part.seat k).volume : Int) =
          max 0 (min 15 ((z.volume : Int) + ((a.counters.up - b.up).toNat : Int) -
            ((a.counters.down - b.down).toNat : Int))) ∧
        (t.part.seat k).language = step^[(a.counters.lang - b.lang).toNat] z.language) ∧
      (z.node ≠ .online → (t.part.seat k).volume = z.volume ∧
        (t.part.seat k).language = z.language) ∧
      (∀ power gain, z.carried = some (power, gain) →
        (t.part.seat k).acknowledged = gain ∧ (t.part.seat k).socket.ackOn = power ∧
        (power = true → a.sample < 8000 →
          (z.socket.state = .unpowered ∨ (z.socket.state = .settling ∧
            z.socket.settleEnd = none ∧ z.socket.classifying = false)) →
          (t.part.seat k).socket = { z.socket with
            state := .settling, ackOn := true, settleEnd := some (later s.part.time 400)
            classifying := false, average := some a.sample, run := none, peak := a.sample
            lastSample := a.sample })) ∧
      (∀ j, j ≠ k → (t.part.seat j).node = (s.part.seat j).node ∧
        (t.part.seat j).socket = (s.part.seat j).socket ∧
        (t.part.seat j).language = (s.part.seat j).language ∧
        (t.part.seat j).volume = (s.part.seat j).volume) ∧
      (n + 1 < (s.part.string i).population →
        (t.part.string i).roundPosition = some (n + 1) ∧
        ((s.part.string i).releasing = [] → (t.part.string i).exchange = true)) ∧
      ((s.part.string i).population ≤ n + 1 →
        atOrAfter s.part.time (later (s.part.string i).roundStart 20) = false →
        (t.part.string i).roundPosition = none ∧ (t.part.string i).exchange = false) ∧
      ((s.part.string i).population ≤ n + 1 → (s.part.string i).population ≠ 0 →
        atOrAfter s.part.time (later (s.part.string i).roundStart 20) = true →
        (t.part.string i).roundPosition = some 0 ∧
        (t.part.string i).roundStart = s.part.time) ∧
      (∀ j, j ≠ i → t.part.string j = s.part.string j) ∧
      t.part.time = s.part.time ∧ t.part.supply = s.part.supply

/-- An exchange without a valid answer (R106, R108): invalid bytes are discarded and the exchange goes on; at
the answer timeout an ONLINE node's miss count rises by 1, and at the third miss in succession the node is LOST
and its socket UNPOWERED unless it is locked out. Model's choices: assumption 28. -/
def Obligations.MissedAnswersLoseTheNode : Prop :=
  ∀ (s : State) (i : StringId) (k : SeatId) (n : Nat), s.quiet →
    (s.part.string i).exchange = true → (s.part.string i).roundPosition = some n →
    k.val = 24 * i.val + n → n < 24 →
    (∀ bytes, exec (.invalidAnswer i bytes) s = .next s) ∧
    (∀ bytes, readAnswer n bytes = none →
      exec (.nodeAnswer i bytes) s = .next { s with part := s.part.served }) ∧
    ((s.part.string i).pendingPopulation = none →
      ∃ t, exec (.answerTimeout i) s = .next t ∧ t.dram = s.dram ∧ t.pending = s.pending ∧
        let z := s.part.seat k
        (z.node = .online → z.missCount < 2 →
          (t.part.seat k).node = .online ∧ (t.part.seat k).missCount = z.missCount + 1 ∧
          (t.part.seat k).socket = z.socket) ∧
        (z.node = .online → 2 ≤ z.missCount →
          (t.part.seat k).node = .lost ∧
          (z.socket.state ≠ .lockedOut → (t.part.seat k).socket.state = .unpowered) ∧
          (z.socket.state = .lockedOut → (t.part.seat k).socket = z.socket)) ∧
        (z.node ≠ .online → (t.part.seat k).node = z.node ∧
          (t.part.seat k).missCount = z.missCount ∧ (t.part.seat k).socket = z.socket) ∧
        (t.part.seat k).baselines = z.baselines ∧ (t.part.seat k).volume = z.volume ∧
        (t.part.seat k).language = z.language ∧
        (∀ j, j ≠ k → (t.part.seat j).node = (s.part.seat j).node ∧
          (t.part.seat j).socket = (s.part.seat j).socket) ∧
        (∀ j, j ≠ i → t.part.string j = s.part.string j) ∧
        t.part.time = s.part.time)

/-- A socket's timers (R124, R128): at its settle end it begins classifying; at its cool-down end a FAULTED
socket is SETTLING, or UNPOWERED while the shed state is CRITICAL, with a SEAT notice. Model's choices:
assumptions 3 and 28. -/
def Obligations.SocketTimersEnd : Prop :=
  ∀ (s : State) (k : SeatId) (d : PartTime), s.quiet →
    let z := s.part.seat k
    (z.socket.settleEnd = some d →
      exec (.settleEnd k) s = .next { s with
        part := { (s.part.reach d).setSeat k { z with
          socket := { z.socket with settleEnd := none, classifying := true } } with
          link := s.part.link.pump } }) ∧
    (z.socket.coolEnd = some d →
      let state := if s.part.supply.shed = .critical then SocketState.unpowered else .settling
      exec (.coolDownEnd k) s = .next { s with
        part := { (s.part.reach d).setSeat k { z with
          socket := { z.socket with coolEnd := none, state := state } } with
          link := (s.part.link.noted (.seat k state z.language z.volume none)
            (s.part.reach d).time).pump } })

/-- The seat requests (R132 to R134): SEAT-SET of one seat, or of all 96 with the seat field 255, writes an
enabled language and a volume held to 15 in the seats it treats and in no other, recomputes the codes of those
it changes, moves the audience of an ATTACHED seat, and answers with the number of seats changed; each changed
language and each changed volume raises a SEAT notice; SEAT-QUERY reports the record, field by field, and with
CLEAR empties the peak alone; SEAT-RELEASE returns a locked-out socket to UNPOWERED with no history, and is
WRONG-STATE for any other; and a request that its first failing check refuses changes nothing but the link.
Model's choices: assumptions 2, 11, 13, 14, 15, 16, 28, 30, 45 and 55. -/
def Obligations.SeatRequestsActOnTheirSeat : Prop :=
  ∀ (s : State) (tag : Byte) (body : Bytes), s.quiet →
    let p := s.part
    let answered := fun (i : Instr) (k : Kind) (st : Status) (fields : Bytes) =>
      p.canTake k tag body →
        exec i s = .next { s with part := { p with link := p.repliedLink k tag body st fields } }
    let refused := fun (i : Instr) (k : Kind) (st : Status) => ∃ fields, answered i k st fields
    (body.length ≠ 3 → refused (.seatSet tag body) .seatSet .badLength) ∧
    (body.length = 3 →
      (96 ≤ b8 body 0 ∧ b8 body 0 ≠ 255) ∨ 12 ≤ b8 body 1 ∨
        (∃ l : Lang, b8 body 1 = l.val ∧ (p.language l).enabled = false) →
      refused (.seatSet tag body) .seatSet .badValue) ∧
    (body.length ≠ 2 → refused (.seatQuery tag body) .seatQuery .badLength) ∧
    (body.length = 2 → 96 ≤ b8 body 0 ∨ 2 ≤ b8 body 1 →
      refused (.seatQuery tag body) .seatQuery .badValue) ∧
    (body.length ≠ 1 → refused (.seatRelease tag body) .seatRelease .badLength) ∧
    (body.length = 1 → 96 ≤ b8 body 0 → refused (.seatRelease tag body) .seatRelease .badValue) ∧
    (∀ (l : Lang) (seats : List SeatId), p.canTake .seatSet tag body → body.length = 3 →
      b8 body 1 = l.val → (p.language l).enabled = true →
      (b8 body 0 = 255 ∧ seats = List.finRange 96) ∨ (∃ k : SeatId, b8 body 0 = k.val ∧ seats = [k]) →
      let v := min 15 (b8 body 2)
      let changed := seats.filter fun j => (p.seat j).language ≠ l ∨ (p.seat j).volume ≠ v
      let reason := fun j => if (p.seat j).socket.state = .faulted ∨ (p.seat j).socket.state = .lockedOut
        then (p.seat j).socket.fault.map FaultRecord.reason else none
      let moved := seats.filter fun j =>
        (p.seat j).language ≠ l ∧ (p.seat j).socket.state = .attached
      let reply : Bytes :=
        (if 15 < b8 body 2 then 1 else 0) :: (e8 (b8 body 0) ++ e8 changed.length)
      ∃ t, exec (.seatSet tag body) s = .next t ∧ t.dram = s.dram ∧ t.pending = s.pending ∧
        (∀ j, j ∈ changed → t.part.seat j = { p.seat j with
          language := l, volume := v
          pending := if (p.seat j).socket.state = .attached then
            seatCode p.level v (p.language l).trim else .mute }) ∧
        (∀ j, j ∉ changed → t.part.seat j = p.seat j) ∧
        (∀ m, (t.part.language m).audience =
          if m = l then (p.language m).audience + moved.length
          else (p.language m).audience -
            (moved.filter fun j => (p.seat j).language = m).length) ∧
        ((⟨Kind.byte .seatSet, tag, reply, true⟩ : Reply) ∈ t.part.link.replies ∨
          t.part.link.transmitting = some ⟨Kind.byte .seatSet, tag, reply⟩) ∧
        (moved = [] → t.part = { p with
          seats := t.part.seats
          link := ((seats.flatMap fun j =>
              (if (p.seat j).language = l then []
                else [Notice.seat j (p.seat j).socket.state l (p.seat j).volume
                  (reason j)]) ++
              (if (p.seat j).volume = v then []
                else [Notice.seat j (p.seat j).socket.state l v
                  (reason j)])).foldl
            (fun k n => k.noted n p.time) (p.takenLink .seatSet tag body) |>.answer .seatSet tag
              reply).pump }) ∧
        t.part.strings = p.strings ∧ t.part.supply = p.supply ∧ t.part.light = p.light ∧
        t.part.level = p.level ∧ t.part.time = p.time) ∧
    (∀ k : SeatId, b8 body 0 = k.val →
      let z := p.seat k
      let left := fun d : Option PartTime =>
        o16 (d.map fun d => if atOrAfter p.time d then 0 else (d - p.time).toNat)
      let led := if z.node = .online then
          (match z.socket.state with
            | .attached => if z.volume = 0 then 0 else 1
            | .faulted => 2
            | .lockedOut => 3
            | .unpowered | .settling | .empty => 0)
        else 0
      let on := z.node = .online ∧ (z.socket.state = .settling ∨ z.socket.state = .empty ∨
        z.socket.state = .attached ∨ (z.socket.state = .unpowered ∧ p.supply.shed ≠ .critical))
      (p.canTake .seatQuery tag body → body.length = 2 → b8 body 1 ≤ 1 →
        exec (.seatQuery tag body) s = .next { s with
          part := { p.setSeat k { z with
            socket := { z.socket with peak := if b8 body 1 = 0 then 0 else z.socket.peak } } with
            link := p.repliedLink .seatQuery tag body .ok
              (e8 (k.val / 24) ++ e8 (k.val % 24) ++ e8 z.node.code ++ e8 z.missCount ++
                e8 z.language.val ++ e8 z.volume ++ [z.pending.byte, z.acknowledged.byte] ++
                e8 led ++ e8 z.socket.state.code ++
                [if on then 0 else 1, if z.socket.ackOn = true then 0 else 1] ++
                left z.socket.settleEnd ++ left z.socket.coolEnd ++ o16 z.socket.average ++
                e16 z.socket.peak ++ e16 z.socket.lastSample ++
                (match z.socket.run with
                  | none => eAbsent 2
                  | some (x, n) => e8 x.code ++ e8 n) ++
                (match z.socket.fault with
                  | none => eAbsent 1 ++ oTime none ++ eAbsent 4
                  | some f => e8 f.reason.code ++ oTime (some f.time) ++ e16 f.sample ++
                      e16 f.average) ++
                e8 z.socket.history.length ++ z.socket.history.flatMap eTime) } }) ∧
      (p.canTake .seatRelease tag body → body.length = 1 →
        (z.socket.state = .lockedOut →
          exec (.seatRelease tag body) s = .next { s with
            part := { p.setSeat k { z with
              socket := { z.socket with state := .unpowered, history := [] } } with
              link := (((p.takenLink .seatRelease tag body).noted
                (.seat k .unpowered z.language z.volume none) p.time).answer .seatRelease tag
                  (0 :: e8 k.val ++ e8 0)).pump } }) ∧
        (z.socket.state ≠ .lockedOut →
          exec (.seatRelease tag body) s = .next { s with
            part := { p with
              link := p.repliedLink .seatRelease tag body .wrongState
                (e8 k.val ++ e8 z.socket.state.code) } })))

/-- A sample of 8,000 or more from a powered socket faults it with reason OVERCURRENT (R122, R123, R127): its
fault record and history are written, and it is LOCKED_OUT when its third fault in the history came within
600,000 ms of the oldest, else FAULTED for 30,000 ms. A smaller sample of a classifying socket gives an
indication from the new average, below 60, 60 to 2,400 or above, and the second equal one in a row makes the
socket EMPTY, ATTACHED, or faulted with reason LEAK (R125, R126). A socket that becomes ATTACHED joins its
seat's language and one that leaves it leaves the language (R60): the audience count moves by 1; a PARKED stream
without an entry that gains its first listener is IDLE, and with one it is PLAYING, or SUSPENDED under the hold
(R62); a stream that loses its last listener is PARKED with its newest WAITING entry alone and its reader
stopped (R61). -/
def Obligations.OvercurrentFaultsTheSocket : Prop :=
  (∀ (p : Part) (k : SeatId) (sample : Nat),
    let s := p.seat k
    let z := s.socket
    let q := p.takeSample k sample
    let a := match z.average with
      | none => sample
      | some o => ((o : Int) + ((sample : Int) - o) / 4).toNat
    let history := if z.history.length < 3 then z.history ++ [p.time]
      else z.history.drop (z.history.length - 2) ++ [p.time]
    let locked := history.length = 3 ∧ ∃ h, history.head? = some h ∧ (p.time - h).toNat ≤ 600000
    let taken := { z with average := some a, peak := max z.peak sample, lastSample := sample }
    let faulted := fun reason : FaultReason =>
      (q.seat k).socket = { taken with
        state := if locked then .lockedOut else .faulted
        fault := some ⟨reason, p.time, sample, a⟩, history := history
        coolEnd := if locked then none else some (p.time + 30000)
        settleEnd := none, run := none, classifying := false } ∧
      (q.seat k).language = s.language ∧ (q.seat k).volume = s.volume ∧
      (q.seat k).node = s.node ∧ (z.state = .attached → (q.seat k).pending = .mute ∧
        q.lang = (p.leave s.language).lang)
    let x := if a < 60 then Indication.empty else if a ≤ 2400 then .headset else .leak
    (z.state = .empty ∨ z.state = .attached ∨ (z.state = .settling ∧ z.ackOn = true)) →
    (∀ j, j ≠ k → q.seat j = p.seat j) ∧
    (8000 ≤ sample → faulted .overcurrent) ∧
    (sample < 8000 → z.classifying = false → q = p.setSeat k { s with socket := taken }) ∧
    (sample < 8000 → z.classifying = true →
      ((∀ n, z.run ≠ some (x, n)) →
        q = p.setSeat k { s with socket := { taken with run := some (x, 1) } }) ∧
      (∀ n, z.run = some (x, n) →
        ((x = .headset ∧ z.state = .attached) ∨ (x = .empty ∧ z.state = .empty) →
          q = p.setSeat k { s with socket := { taken with run := some (x, 2) } }) ∧
        (x = .leak → faulted .leak) ∧
        (x = .headset → z.state ≠ .attached →
          (q.seat k) = { s with
            socket := { taken with state := .attached, run := none }
            pending := seatCode p.level s.volume (p.language s.language).trim } ∧
          q.lang = (p.join s.language).lang) ∧
        (x = .empty → z.state ≠ .empty →
          (q.seat k).socket = { taken with state := .empty, run := none } ∧
          (z.state = .attached → (q.seat k).pending = .mute ∧
            q.lang = (p.leave s.language).lang) ∧
          (z.state = .settling → q.lang = p.lang))))) ∧
  (∀ (p : Part) (l : Lang),
    let y := p.language l
    let stays := y.stream = .off ∨ y.stream = .parked
    (∀ m, m ≠ l → (p.join l).language m = p.language m ∧ (p.leave l).language m = p.language m) ∧
    (y.audience ≠ 0 ∨ y.stream ≠ .parked →
      p.join l = p.setLanguage l { y with audience := y.audience + 1 }) ∧
    (y.audience = 0 → y.stream = .parked → (y.waiting = [] ∨ p.lang.hold = true) →
      let stream := if y.waiting = [] then StreamState.idle else .suspended
      p.join l = { p.setLanguage l { y with audience := 1, stream := stream } with
        link := p.link.noted (.stream l stream .resumed) p.time }) ∧
    (∀ e rest, y.audience = 0 → y.stream = .parked → y.waiting = e :: rest → p.lang.hold = false →
      (p.reader (chan l)).owner = .commentary →
      (p.join l).language l = { y with
        audience := 1, stream := .playing, current := some { e with started := true }
        waiting := rest }) ∧
    (2 ≤ y.audience ∨ stays →
      p.leave l = p.setLanguage l { y with audience := y.audience - 1 }) ∧
    (y.audience = 1 → ¬ stays →
      (p.leave l).language l = { y with
        audience := 0, stream := .parked, current := none
        waiting := y.waiting.drop (y.waiting.length - 1), resume := none } ∧
      (p.leave l).reader (chan l) =
        (if (p.reader (chan l)).owner = .commentary ∧ (p.reader (chan l)).clip ≠ none then
          Reader.idle .commentary else p.reader (chan l)) ∧
      ∀ r, r ≠ chan l → (p.leave l).reader r = p.reader r))

/-! ### Listening level -/

/-- SPEED stores the speed held to 150, clears the stale flag and sets the stale end 10 s ahead, and recomputes
every code when the noise term changes (R137); LEVEL-SET holds each given limit to its range, keeps the others,
and recomputes what the changed ones reach (R139). When part time reaches the stale end, the stale end becomes
absent and the speed-stale flag is set; the speed keeps its value, no code is recomputed and nothing else of the
part but the time and the link is touched; while the stale end is absent no expiry comes (R138). Model's
choices: assumptions 1, 2, 3 and 28. -/
def Obligations.SpeedLevelSetAndStaleEndReachTheCodes : Prop :=
  ∀ (s : State) (tag : Byte) (body : Bytes), s.quiet →
    let l := s.part.level
    let code := fun (l' : LevelUnit) (z : Seat) =>
      if z.socket.state = .attached then
        seatCode l' z.volume (s.part.language z.language).trim else .mute
    (s.part.canTake .speed tag body → body.length = 1 →
      let speed := min 150 (b8 body 0)
      let noise := min (speed / 4) 18
      let changed := noise ≠ min (l.speed / 4) 18
      let l' := { l with
        speed := speed, stale := false, staleEnd := some (later s.part.time 10000) }
      ∃ t, exec (.speed tag body) s = .next t ∧ t.dram = s.dram ∧ t.pending = s.pending ∧
        t.part.level = { l' with paCode := if changed then l'.paCodeNow else l.paCode } ∧
        (∀ i, t.part.seat i = { s.part.seat i with
          pending := if changed then code l' (s.part.seat i) else (s.part.seat i).pending }) ∧
        t.part = { s.part with
          level := t.part.level, seats := t.part.seats
          link := s.part.repliedLink .speed tag body
            (if 150 < b8 body 0 then .clamped else .ok) (e8 speed ++ e8 noise) }) ∧
    (s.part.canTake .levelSet tag body → body.length = 4 →
      let held := fun (n : Nat) (old low high : Int) =>
        if bs8 body n = -128 then old else max low (min high (bs8 body n))
      let cap := held 0 l.cap (-24) 12
      let floor := held 1 l.safetyFloor (-40) 0
      let base := held 2 l.paBase (-60) 0
      let paCap := held 3 l.paCap (-24) 12
      let l' := { l with cap := cap, safetyFloor := floor, paBase := base, paCap := paCap }
      let seats := cap ≠ l.cap ∨ (floor ≠ l.safetyFloor ∧ l.safetyCondition = true)
      let clamped := [(0, cap), (1, floor), (2, base), (3, paCap)].any fun n =>
        decide (bs8 body n.1 ≠ -128) && decide (n.2 ≠ bs8 body n.1)
      ∃ t, exec (.levelSet tag body) s = .next t ∧ t.dram = s.dram ∧ t.pending = s.pending ∧
        t.part.level = { l' with
          paCode := if base ≠ l.paBase ∨ paCap ≠ l.paCap then l'.paCodeNow else l.paCode } ∧
        (∀ i, t.part.seat i = { s.part.seat i with
          pending := if seats then code l' (s.part.seat i) else (s.part.seat i).pending }) ∧
        t.part = { s.part with
          level := t.part.level, seats := t.part.seats
          link := s.part.repliedLink .levelSet tag body (if clamped then .clamped else .ok)
            (s8 cap ++ s8 floor ++ s8 base ++ s8 paCap) }) ∧
    ∃ t, exec .speedStaleExpiry s = .next t ∧ t.dram = s.dram ∧ t.pending = s.pending ∧
      (∀ d, l.staleEnd = some d →
        atOrAfter t.part.time d = true ∧
        t.part = { s.part with
          time := t.part.time, link := t.part.link
          level := { l with staleEnd := none, stale := true } }) ∧
      (l.staleEnd = none → t.part = { s.part with link := t.part.link }) ∧
      t.part.link.slots.length ≤ s.part.link.slots.length ∧
      t.part.link.linkError = s.part.link.linkError

/-- The effective level of a zone (R163): the active scene's level, replaced under the active cue by the greater
of it and x for LEVEL x, by x in the on-halves and 0 in the off-halves for FLASH x; held to the ceiling of the
shed state for a GENERAL zone, raised to its minimum for a SAFETY zone; 0 in SHORT, in OPEN with preset OFF and
when disabled. A GENERAL zone never exceeds the ceiling, LEVEL never dims a zone, and a cue begins in an
on-half. That an even count of half-boundaries is an on-half is the model's reading (assumption 19). -/
def Obligations.EffectiveLevelFollowsTheSteps : Prop :=
  ∀ (l : Light) (z : ZoneId),
    let zone := vget l.zones z
    let scene := vget (vget l.scenes l.active).levels z
    let ceiling := match l.shed with
      | .normal => 100
      | .low => 60
      | .critical => 30
    let step3 := fun base => if zone.safety = true then max base zone.minimum else min base ceiling
    let shown := zone.enabled = true ∧
      (zone.fault = .ok ∨ (zone.fault = .openFault ∧ zone.keep = true))
    (¬ shown → l.effective z = 0) ∧
    (shown → l.activeCue = none → l.effective z = step3 scene) ∧
    (∀ c began, shown → l.activeCue = some (c, began) →
      (vget (vget l.cues c) z = .none → l.effective z = step3 scene) ∧
      (∀ x, vget (vget l.cues c) z = .level x →
        l.effective z = step3 (max scene x) ∧ step3 scene ≤ l.effective z) ∧
      (∀ x half, vget (vget l.cues c) z = .flash x half →
        l.effective z = step3 (if zone.halves % 2 = 0 then x else 0))) ∧
    (zone.safety = false → l.effective z ≤ ceiling) ∧
    (∀ now c x half, shown → vget (vget l.cues c) z = .flash x half →
      (vget (l.beginCue now c).zones z).halves = 0 ∧
      (l.beginCue now c).effective z = step3 x ∧
      (vget (l.beginCue now c).zones z).target = step3 x)

/-- The gain code of an ATTACHED seat (R142, R143): its base from the volume step and the safety condition, the
trim, the noise term and the lift added, held to the cap, less the shed reduction, held at -60, plus 60; MUTE at
volume 0 without the safety condition. With the cap in its range the code is 0..72, and with a shed reduction of
at most 12 it never exceeds cap - reduction + 60. The PA code (R146) is MUTE with no announcement phase; in
CHIME, SPEECH and TAIL it is the PA base plus the noise term and the lift, held to the PA cap, less the shed
reduction, held at -60, plus 60, and 0..72 with the PA cap in its range. The LED mode of the poll to an ONLINE
node (R117) is STEADY for an ATTACHED socket with volume 1..15, SLOW for a FAULTED one, FAST for a LOCKED_OUT
one and OFF otherwise, ATTACHED with volume 0 included whatever the safety condition. The poll to a SEEKING or
LOST node carries OFF, and a release poll's command byte is 0, which is OFF. -/
def Obligations.SeatCodeFollowsTheStages : Prop :=
  ∀ (l : LevelUnit) (volume : Nat) (trim : Int),
    let safety := l.cls = some .safety ∧ (l.phase = some .chime ∨ l.phase = some .speech)
    (volume = 0 → ¬ safety → seatCode l volume trim = .mute) ∧
    (¬ (volume = 0 ∧ ¬ safety) →
      let base : Int :=
        if volume = 0 then l.safetyFloor
        else if l.cls = some .safety ∧ (l.phase = some .chime ∨ l.phase = some .speech) then
          max (4 * (volume : Int) - 60) l.safetyFloor
        else 4 * (volume : Int) - 60
      let g2 : Int := base + trim + ((min (l.speed / 4) 18 : Nat) : Int) + (l.lift : Int)
      let g3 := min g2 l.cap
      let g4 := g3 - (l.shed : Int)
      let g := max g4 (-60)
      ∃ n : Nat, seatCode l volume trim = .code n ∧ (n : Int) = g + 60 ∧
        (l.cap ≤ 12 → n ≤ 72) ∧
        (-24 ≤ l.cap → l.shed ≤ 12 → (n : Int) ≤ l.cap - (l.shed : Int) + 60)) ∧
    (l.phase = none → l.paCodeNow = .mute) ∧
    (∀ ph : Phase, l.phase = some ph →
      let p2 : Int := l.paBase + ((min (l.speed / 4) 18 : Nat) : Int) + (l.lift : Int)
      let p3 := min p2 l.paCap
      let p4 := p3 - (l.shed : Int)
      let g := max p4 (-60)
      ∃ n : Nat, l.paCodeNow = .code n ∧ (n : Int) = g + 60 ∧ (l.paCap ≤ 12 → n ≤ 72)) ∧
    (∀ (position : Nat) (slot : Lang), (releasePollBytes position slot)[1]? = some 0) ∧
    ∀ (z : Seat) (position : Nat) (shed : Shed),
      (z.poll position shed).led =
        if z.node = .online ∧ z.socket.state = .attached ∧ 1 ≤ z.volume then .steady
        else if z.node = .online ∧ z.socket.state = .faulted then .slow
        else if z.node = .online ∧ z.socket.state = .lockedOut then .fast
        else .off

/-! ### Deck supply -/

/-- The judgements of the supply (R153, R154): a voltage average is judged from the voltage state as it stands,
which falls at a threshold and rises 500 mV above it, the first row that applies deciding; a current average
from the current state, LOW above the budget and NORMAL again 1,000 mA below it; while an average is unset no
judgement is made. The shed state is found again after each judgement that a sample makes, the worse of the two
states. -/
def Obligations.SupplyJudgementsFollowTheTables : Prop :=
  ∀ s : Supply,
    (s.voltageAverage = none → s.judgeVoltageNow = s) ∧
    (∀ a, s.voltageAverage = some a → ∃ new, s.judgeVoltageNow = { s with voltageState := new } ∧
      (s.voltageState = .normal →
        new = if a < s.vCrit then .critical else if a < s.vLow then .low else .normal) ∧
      (s.voltageState = .low →
        new = if a < s.vCrit then .critical else if a ≥ s.vLow + 500 then .normal else .low) ∧
      (s.voltageState = .critical →
        new = if a ≥ s.vLow + 500 then .normal else if a ≥ s.vCrit + 500 then .low
          else .critical)) ∧
    (s.currentAverage = none → s.judgeCurrentNow = s) ∧
    (∀ a, s.currentAverage = some a → 1000 ≤ s.budget →
      ∃ low, s.judgeCurrentNow = { s with currentLow := low } ∧
        (s.currentLow = false → (low = true ↔ a > s.budget)) ∧
        (s.currentLow = true → (low = false ↔ a ≤ s.budget - 1000)) ∧
        (s.budget = 30000 →
          (s.currentLow = false → a = 30001 → low = true) ∧
          (s.currentLow = true → 29001 ≤ a → a ≤ 30000 → low = true) ∧
          (s.currentLow = true → a = 29000 → low = false))) ∧
    worse .normal false = .normal ∧ worse .normal true = .low ∧
    (∀ low, worse .low low = .low ∧ worse .critical low = .critical) ∧
    ∀ (w : State) (x : Nat), w.quiet → w.part.supply.running = true → w.part.supply = s →
      (∃ t, exec (.voltageSample x) w = .next t ∧
        t.part.supply.voltageState = (s.takeVoltage x).judgeVoltageNow.voltageState ∧
        t.part.supply.shed = worse t.part.supply.voltageState s.currentLow) ∧
      ∃ t, exec (.currentSample x) w = .next t ∧
        t.part.supply.currentLow = (s.takeCurrent x).judgeCurrentNow.currentLow ∧
        t.part.supply.shed = worse s.voltageState t.part.supply.currentLow

/-- A voltage sample at the half-way point and a deck current sample at the end of the converter's interval
(R149, R151 to R155): the saturated sample enters its average, the new average is judged, the current sample
also moves the peak and begins the next interval with the conversion of the next zone, beside which that of the
zone of the ended interval goes on while it has given no sample and the zone was lit within that interval (R150);
an unchanged shed state tells nobody, a changed one raises a SUPPLY notice and reaches the Level Unit and the
Lighting Controller, whose GENERAL zones follow their recomputed targets by fading (R164). Model's choices:
assumptions 3, 18, 27 and 28. -/
def Obligations.SupplySamplesAreJudged : Prop :=
  ∀ (s : State) (x : Nat), s.quiet → s.part.supply.running = true →
    let u := s.part.supply
    let mean := fun (old : Option Nat) (v : Nat) => match old with
      | none => v
      | some a => ((a : Int) + ((v : Int) - (a : Int)) / ((2 ^ u.shift : Nat) : Int)).toNat
    let told := fun (d : PartTime) (u' : Supply) (t : State) =>
      t.dram = s.dram ∧ t.pending = s.pending ∧ t.part.supply = u' ∧
      t.part.time = (s.part.reach d).time ∧ t.part.store = s.part.store ∧
      t.part.bank = s.part.bank ∧ t.part.lang = s.part.lang ∧ t.part.ann = s.part.ann ∧
      t.part.strings = s.part.strings ∧
      (u'.shed = u.shed → t.part = { (s.part.reach d) with
        supply := u', link := s.part.link.pump }) ∧
      (u'.shed ≠ u.shed →
        t.part.link = (s.part.link.noted
          (.supply u.shed u'.shed u'.voltageAverage u'.currentAverage) t.part.time).pump ∧
        t.part.light.shed = u'.shed ∧ t.part.level.shed = u'.shed.reduction ∧
        t.part.level.paCode = t.part.level.paCodeNow ∧
        (∀ i, (t.part.seat i).pending =
          if (s.part.seat i).socket.state = .attached then
            seatCode t.part.level (s.part.seat i).volume
              (s.part.language (s.part.seat i).language).trim
          else .mute) ∧
        (∀ z, (s.part.zone z).safety = true → t.part.zone z = s.part.zone z) ∧
        (∀ z, (s.part.zone z).safety = false → t.part.zone z =
          (s.part.zone z).recomputedTo t.part.time
            (vget s.part.light.scenes s.part.light.active).fade (t.part.light.effective z)))
    (∃ t, exec (.voltageSample x) s = .next t ∧
      let v := min 40000 x
      let a := mean u.voltageAverage v
      let state := judgeVoltage u.voltageState u.vLow u.vCrit a
      told (later u.intervalStart (u.intervalLength / 2)) { u with
        lastVoltage := some v, voltageAverage := some a, voltageState := state
        shed := worse state u.currentLow } t) ∧
    (∃ t, exec (.currentSample x) s = .next t ∧
      let c := min 60000 x
      let a := mean u.currentAverage c
      let low := judgeCurrent u.currentLow u.budget a
      let stop := later u.intervalStart u.intervalLength
      let next : ZoneId := ⟨(u.zoneIndex.val + 1) % 8, by omega⟩
      let z := s.part.zone u.zoneIndex
      let lit := (s.part.active = true ∧ z.enabled = true ∧ z.fault ≠ .shortFault ∧ 1 ≤ z.level) ∨
        ∃ x ∈ z.leftAt, (x.2 - u.intervalStart).toNat ≤ (t.part.time - u.intervalStart).toNat
      ∃ kept : Option PartTime,
        (lit → kept = vget u.conversions u.zoneIndex) ∧ (¬ lit → kept = none) ∧
        told stop { u with
          lastCurrent := some c, currentAverage := some a, peak := max u.peak c
          currentLow := low, shed := worse u.voltageState low
          intervalStart := stop, intervalLength := u.scan, zoneIndex := next
          conversions := Vector.ofFn fun k => if k = next then some stop
            else if k = u.zoneIndex then kept else none } t)

/-- SUPPLY-SET holds each given setting to its range, repairs the pair Vlow and Vcrit, keeps the averages and
the samples, judges the present averages again where their settings changed, and finds the shed state after each
judgement, raising a SUPPLY notice at each change of it (R155, R156); SUPPLY-PEAK-CLEAR reports the peak and
empties it alone (R158). Model's choices: assumptions 2, 28 and 47. -/
def Obligations.SupplyRequestsWriteTheirFields : Prop :=
  ∀ (s : State) (tag : Byte) (body : Bytes), s.quiet →
    let u := s.part.supply
    (s.part.canTake .supplySet tag body → body.length = 8 →
      let held16 := fun (n old low high : Nat) =>
        if b16 body n = 65535 then old else max low (min high (b16 body n))
      let vLow := held16 0 u.vLow 16000 30000
      let vCrit := held16 2 u.vCrit 16000 30000
      let budget := held16 4 u.budget 1000 60000
      let scan := if b8 body 6 = 255 then u.scan else if b8 body 6 ≤ 10 then 10
        else if b8 body 6 ≤ 20 then 20 else 40
      let shift := if b8 body 7 = 255 then u.shift else max 1 (min 4 (b8 body 7))
      let vLow' := if vCrit < vLow then vLow else if vLow < 16500 then 16500 else vLow
      let vCrit' := if vCrit < vLow then vCrit else if vLow < 16500 then 16000 else vLow - 500
      let clamped := (b16 body 0 ≠ 65535 ∧ vLow ≠ b16 body 0) ∨
        (b16 body 2 ≠ 65535 ∧ vCrit ≠ b16 body 2) ∨ (b16 body 4 ≠ 65535 ∧ budget ≠ b16 body 4) ∨
        (b8 body 6 ≠ 255 ∧ scan ≠ b8 body 6) ∨ (b8 body 7 ≠ 255 ∧ shift ≠ b8 body 7) ∨
        vLow' ≠ vLow ∨ vCrit' ≠ vCrit
      ∃ t, exec (.supplySet tag body) s = .next t ∧ t.dram = s.dram ∧ t.pending = s.pending ∧
        let u' := t.part.supply
        let moved := vLow' ≠ u.vLow ∨ vCrit' ≠ u.vCrit
        let between := if moved then worse u'.voltageState u.currentLow else u.shed
        let told := fun (old new : Shed) (l : Link) =>
          if new = old then l
          else l.noted (.supply old new u.voltageAverage u.currentAverage) s.part.time
        u' = { u with
          vLow := vLow', vCrit := vCrit', budget := budget, scan := scan, shift := shift
          voltageState := u'.voltageState, currentLow := u'.currentLow, shed := u'.shed } ∧
        u'.voltageState = (match u.voltageAverage with
          | some a => if moved then judgeVoltage u.voltageState vLow' vCrit' a else u.voltageState
          | none => u.voltageState) ∧
        u'.currentLow = (match u.currentAverage with
          | some a => if budget ≠ u.budget then judgeCurrent u.currentLow budget a
              else u.currentLow
          | none => u.currentLow) ∧
        u'.shed = worse u'.voltageState u'.currentLow ∧
        t.part.link = ((told between u'.shed (told u.shed between
          (s.part.takenLink .supplySet tag body))).answer .supplySet tag
            ((if clamped then 1 else 0) :: (e16 vLow' ++ e16 vCrit' ++ e16 budget ++ e8 scan ++
              e8 shift))).pump ∧
        (between = u.shed → u'.shed = u.shed →
          t.part = { s.part with supply := u', link := t.part.link }) ∧
        (s.part.shedRight → t.part.shedRight) ∧
        t.part.bank = s.part.bank ∧ t.part.store = s.part.store ∧
        t.part.ann = s.part.ann) ∧
    (s.part.canTake .supplyPeakClear tag body → body ≠ [] →
      ∃ fields, exec (.supplyPeakClear tag body) s = .next { s with
        part := { s.part with
          link := s.part.repliedLink .supplyPeakClear tag body .badLength fields } }) ∧
    (s.part.canTake .supplyPeakClear tag body → body = [] →
      exec (.supplyPeakClear tag body) s = .next { s with
        part := { s.part with
          supply := { u with peak := 0 }
          link := s.part.repliedLink .supplyPeakClear tag body .ok (e16 u.peak) } })

/-! ### Lighting -/

/-- A zone sample (R150, R166, R169 to R171) is the first of its zone's conversion, which began with the zone's
interval and goes on in the next one for an on-phase that outlasts it; it is taken of a level of 1 or more at which
the zone's output is driven, or which it left since that interval began. One of a zone without a conversion under
way, or of any other level, changes nothing. It is stored for its zone with that level, saturated at 60,000, and the
conversion is over. Of a zone that has come to be disabled or in SHORT it is not judged. Above
250 % of nominal it makes the zone SHORT and dark; at a level of 10 % or more it moves the average and the open
count, and a second OPEN judgement makes the zone OPEN: dark with preset OFF, and with preset KEEP its level
following its target as before. Each new fault raises a ZONE notice, and one of a SAFETY zone asserts
DECK-ALERT. Model's choices: assumptions 18, 27, 28 and 38. -/
def Obligations.ZoneSamplesAreJudged : Prop :=
  ∀ (s : State) (i : ZoneId) (mA level : Nat), s.quiet → s.part.supply.running = true →
    let z := s.part.zone i
    let c := min 60000 mA
    let lit := z.enabled = true ∧ z.fault ≠ .shortFault
    let driven := if s.part.active = true ∧ lit then z.level else 0
    let taken := 1 ≤ level ∧ ∃ start, vget s.part.supply.conversions i = some start ∧
      (level = driven ∨
        ∃ d, tfind z.leftAt level = some d ∧ (d - start).toNat ≤ (s.part.time - start).toNat)
    let stored : Supply := { s.part.supply with
      zoneSamples := vset s.part.supply.zoneSamples i (some ⟨c, level⟩)
      conversions := vset s.part.supply.conversions i none }
    let faulted := fun (f : ZoneFault) (t : State) =>
      t.part.link = (s.part.link.noted (.zone i f) s.part.time).pump ∧
        (z.safety = true → t.part.ann.deckAlert = true)
    let sound := fun t : State =>
      t.part.link = s.part.link.pump ∧ t.part.ann = s.part.ann
    (¬ taken → exec (.zoneSample ⟨i, mA⟩ level) s = .next { s with part := s.part.served }) ∧
    (taken → ¬ lit → exec (.zoneSample ⟨i, mA⟩ level) s = .next { s with
      part := { s.part with supply := stored, link := s.part.link.pump } }) ∧
    (taken → lit →
      ∃ t, exec (.zoneSample ⟨i, mA⟩ level) s = .next t ∧ t.dram = s.dram ∧ t.pending = s.pending ∧
        t.part.supply = stored ∧
        (∀ j, j ≠ i → t.part.zone j = s.part.zone j) ∧
        (5 * z.nominal < 2 * c →
          t.part.zone i = Zone.darkenedAt { z with fault := .shortFault } s.part.time ∧
          faulted .shortFault t) ∧
        (2 * c ≤ 5 * z.nominal → level < 10 → t.part.zone i = z ∧ sound t) ∧
        (2 * c ≤ 5 * z.nominal → 10 ≤ level →
          let a := match z.average with
            | none => c
            | some o => if z.averageLevel = some level then
                ((o : Int) + ((c : Int) - (o : Int)) / 2).toNat else c
          let count := if 4 * a < z.nominal * level / 100 then min 2 (z.openCount + 1) else 0
          let judged : Zone := { z with average := some a, averageLevel := some level, openCount := count }
          (count < 2 ∨ z.fault = .openFault → t.part.zone i = judged ∧ sound t) ∧
          (count = 2 → z.fault = .ok → z.keep = false →
            t.part.zone i = Zone.darkenedAt { judged with fault := .openFault } s.part.time ∧
            faulted .openFault t) ∧
          (count = 2 → z.fault = .ok → z.keep = true →
            t.part.zone i = Zone.recomputedTo { judged with fault := .openFault } s.part.time
              (vget s.part.light.scenes s.part.light.active).fade (s.part.light.effective i) ∧
            faulted .openFault t)) ∧
        t.part = { s.part with
          supply := t.part.supply, light := { s.part.light with zones := t.part.light.zones }
          ann := t.part.ann, link := t.part.link })

/-- ZONE-SET writes the zone's configuration held to its ranges, clears its fault with a ZONE notice, restarts
its average when the nominal current changes or the zone is disabled, puts a disabled zone dark, and lets the
level of an enabled one follow its recomputed target by fading; no other zone is touched, and DECK-ALERT stays
right (R98, R164, R165, R171, R172). Model's choices: assumptions 2, 13, 18, 27, 28, 38 and 45. -/
def Obligations.ZoneSetConfiguresAndClearsTheFault : Prop :=
  ∀ (s : State) (tag : Byte) (body : Bytes) (i : ZoneId), s.quiet →
    s.part.canTake .zoneSet tag body → body.length = 7 → b8 body 0 = i.val →
    b8 body 1 ≤ 1 → b8 body 2 ≤ 1 → b8 body 6 ≤ 1 →
    let z := s.part.zone i
    let nominal := max 50 (min 20000 (b16 body 4))
    let restart := b8 body 1 = 1 ∨ nominal ≠ z.nominal
    let clamped := 100 < b8 body 3 ∨ nominal ≠ b16 body 4
    let configured : Zone := { z with
      enabled := decide (b8 body 1 = 0), safety := decide (b8 body 2 = 1)
      minimum := min 100 (b8 body 3), nominal := nominal, keep := decide (b8 body 6 = 1)
      fault := .ok
      average := if restart then none else z.average
      averageLevel := if restart then none else z.averageLevel
      openCount := if restart then 0 else z.openCount }
    ∃ t, exec (.zoneSet tag body) s = .next t ∧ t.dram = s.dram ∧ t.pending = s.pending ∧
      let y := t.part.zone i
      y.target = t.part.light.effective i ∧
      (b8 body 1 = 1 → y = configured.darkenedAt s.part.time) ∧
      (b8 body 1 = 0 → y = configured.recomputedTo s.part.time
        (vget s.part.light.scenes s.part.light.active).fade (t.part.light.effective i)) ∧
      (∀ j, j ≠ i → t.part.zone j = s.part.zone j) ∧
      t.part.light = { s.part.light with zones := t.part.light.zones } ∧
      (s.part.alertRight → t.part.alertRight) ∧
      t.part.link =
        ((if z.fault = .ok then s.part.takenLink .zoneSet tag body
          else (s.part.takenLink .zoneSet tag body).noted (.zone i .ok) s.part.time).answer
            .zoneSet tag ((if clamped then 1 else 0) ::
              (eFlag y.enabled ++ eFlag y.safety ++ e8 y.minimum ++ e16 y.nominal ++
                eFlag y.keep ++ e8 y.target ++ e8 y.level ++ e8 y.fault.code ++ o16 y.average ++
                e8 y.openCount))).pump ∧
      t.part = { s.part with light := t.part.light, ann := t.part.ann, link := t.part.link }

/-- SCENE-SET stores a scene with its levels held to 100 and, when it is the active one, recomputes every
target, the levels following by fading; SCENE-SELECT makes a scene active and does the same, and of the active
one changes nothing; LIGHTCUE-SET stores a cue that is not active, and is WRONG-STATE for the active one (R164,
R165, R173 to R175). Model's choices: assumptions 2, 15, 18, 27, 28 and 46. -/
def Obligations.SceneAndCueRequestsWriteTheirTables : Prop :=
  ∀ (s : State) (tag : Byte) (body : Bytes), s.quiet →
    let l := s.part.light
    let followed := fun t : State => ∀ z, t.part.zone z = (s.part.zone z).recomputedTo s.part.time
      (vget t.part.light.scenes t.part.light.active).fade (t.part.light.effective z)
    (∀ n : Fin 8, s.part.canTake .sceneSet tag body → body.length = 10 → b8 body 0 = n.val →
      ∃ t, exec (.sceneSet tag body) s = .next t ∧ t.dram = s.dram ∧ t.pending = s.pending ∧
        let x := vget t.part.light.scenes n
        (∀ z, vget x.levels z = min 100 (b8 body (1 + z.val))) ∧ x.fade = b8 body 9 ∧
        (∀ m, m ≠ n → vget t.part.light.scenes m = vget l.scenes m) ∧
        (n ≠ l.active → t.part.light.zones = l.zones) ∧
        (n = l.active → followed t) ∧
        t.part = { s.part with
          light := { l with scenes := t.part.light.scenes, zones := t.part.light.zones }
          link := s.part.repliedLink .sceneSet tag body
            (if ∃ z : Fin 8, 100 < b8 body (1 + z.val) then .clamped else .ok)
            (x.levels.toList.flatMap e8 ++ e8 x.fade) }) ∧
    (∀ n : Fin 8, s.part.canTake .sceneSelect tag body → body.length = 1 → b8 body 0 = n.val →
      ∃ t, exec (.sceneSelect tag body) s = .next t ∧ t.dram = s.dram ∧ t.pending = s.pending ∧
        (n = l.active → t.part.light = l) ∧ (n ≠ l.active → followed t) ∧
        t.part = { s.part with
          light := { l with active := n, zones := t.part.light.zones }
          link := s.part.repliedLink .sceneSelect tag body .ok
            (e8 n.val ++ e8 (vget l.scenes n).fade) }) ∧
    (∀ c : Fin 16, s.part.canTake .lightcueSet tag body → body.length = 33 → b8 body 0 = c.val →
      (∀ z : Fin 8, b8 body (1 + 4 * z.val) ≤ 2) →
      ((∀ a, l.activeCue = some a → a.1 ≠ c) →
        ∃ t, exec (.lightcueSet tag body) s = .next t ∧ t.dram = s.dram ∧
          t.pending = s.pending ∧
          (∀ z : Fin 8, vget (vget t.part.light.cues c) z =
            let x := min 100 (b8 body (2 + 4 * z.val))
            let half := max 250 (min 2000 (b16 body (3 + 4 * z.val) / 50 * 50))
            if b8 body (1 + 4 * z.val) = 0 then .none
            else if b8 body (1 + 4 * z.val) = 1 then .level x else .flash x half) ∧
          (∀ d, d ≠ c → vget t.part.light.cues d = vget l.cues d) ∧
          t.part = { s.part with
            light := { l with cues := t.part.light.cues }, link := t.part.link }) ∧
      (∀ began, l.activeCue = some (c, began) →
        exec (.lightcueSet tag body) s = .next { s with
          part := { s.part with
            link := s.part.repliedLink .lightcueSet tag body .wrongState
              ((vget l.cues c).toList.flatMap CueItem.fields) } }))

/-- A fade step moves a zone's level 1 toward its target and sets the next step one step interval later, or none
at the target; with a step interval of 0, read again, the level is the target at once (R165). A flash
half-boundary begins the zone's next half, with its target recomputed and a changed level following at once
(R168); no other zone moves. Model's choices: assumptions 3, 18, 19, 27 and 28. -/
def Obligations.FadesStepAndFlashesAlternate : Prop :=
  ∀ (s : State) (i : ZoneId) (d : PartTime), s.quiet →
    let z := s.part.zone i
    let l := s.part.light
    (z.stepDue = some d →
      let interval := (vget l.scenes l.active).fade
      let level := if interval = 0 then z.target
        else if z.level < z.target then z.level + 1
        else if z.target < z.level then z.level - 1 else z.level
      exec (.fadeStep i) s = .next { s with
        part := { (s.part.reach d).setZone i { z.drivenAt d level with
          stepDue := if level = z.target then none else some (later d interval) } with
          link := s.part.link.pump } }) ∧
    (∀ (c : Fin 16) (began : PartTime) (x half : Nat), l.activeCue = some (c, began) →
      vget (vget l.cues c) i = .flash x half → d = later began ((z.halves + 1) * half) →
      ∃ t, exec (.flashHalfBoundary i) s = .next t ∧ t.dram = s.dram ∧ t.pending = s.pending ∧
        let y := t.part.zone i
        y.halves = z.halves + 1 ∧
        y.target = z.effective l.shed (if z.halves % 2 = 1 then x else 0) ∧
        (y.target ≠ z.target → y.level = y.target ∧ y.stepDue = none) ∧
        (y.target = z.target → z.level = z.target → y.level = z.level) ∧
        y = { z.drivenAt (s.part.reach d).time y.level with
          halves := y.halves, target := y.target, stepDue := y.stepDue } ∧
        (∀ j, j ≠ i → t.part.zone j = s.part.zone j) ∧
        t.part = { (s.part.reach d) with
          light := { l with zones := t.part.light.zones }, link := s.part.link.pump })

/-! ### The link -/

/-- A complete frame (R178, R179, R184, R187): a length above 1,040 or a wrong check is a frame error; otherwise
the first failing check of acceptance refuses it, with the status alone in the refusal queue or, when 8 wait
there, as a frame error OVERRUN; and a frame that passes all four checks takes a slot, in which a warm reset
holds back a request of a block. The part admits every kind in RUNNING; PART-IDENT, PART-STATUS, PART-RESET and
WAKE in STANDBY and while standby is being entered; PART-IDENT and PART-STATUS in STARTING and WAKING. Model's
choices: assumptions 28 and 32. -/
def Obligations.FramesAreAcceptedOrRefused : Prop :=
  ∀ (s : State) (kind tag : Byte) (body : Bytes), s.quiet → s.part.mem.state ≠ .off →
    let l := { s.part.link with receiver := .hunting }
    let good := frameCheck kind tag body
    let gives := fun (check : BitVec 16) (l' : Link) =>
      exec (.frameReceived kind tag body check) s =
        .next { s with part := { s.part with link := l'.pump } }
    let error := fun (c : ErrorCause) => { l with
      linkError := true, errorCause := if l.linkError then l.errorCause else some c }
    let refused := fun (st : Status) =>
      if l.refusals.length < 8 then
        { l with replies := l.replies ++ [⟨kind, tag, [st.byte], false⟩] }
      else error .overrun
    let badTag := tag = 0 ∨ ∃ x ∈ l.slots, x.tag = tag
    let refusal := fun k : Kind =>
      if k = .partIdent ∨ k = .partStatus then none
      else match s.part.mem.state with
        | .off | .initialising => some Status.notReady
        | .ready => if l.entering = true ∧ k ≠ .partReset ∧ k ≠ .wake then some .inStandby else none
        | .selfRefresh => if k ≠ .partReset ∧ k ≠ .wake then some .inStandby else none
    let ofLinkPort := fun k : Kind =>
      k = .partIdent ∨ k = .partStatus ∨ k = .partReset ∨ k = .standby ∨ k = .wake
    (∀ check, 1040 < body.length → gives check (error .length)) ∧
    (∀ check, body.length ≤ 1040 → check ≠ good → gives check (error .check)) ∧
    (body.length ≤ 1040 → 4 ≤ l.slots.length → gives good (refused .full)) ∧
    (body.length ≤ 1040 → l.slots.length < 4 → badTag → gives good (refused .badTag)) ∧
    (body.length ≤ 1040 → l.slots.length < 4 → ¬ badTag →
      (kind.toNat = 0 ∨ 37 < kind.toNat) → gives good (refused .badKind)) ∧
    (∀ k, body.length ≤ 1040 → l.slots.length < 4 → ¬ badTag → kind = Kind.byte k →
      (∀ st, refusal k = some st → gives good (refused st)) ∧
      (refusal k = none →
        gives good { l with
          slots := l.slots ++
            [⟨k, tag, body, if l.resetting = true ∧ ¬ ofLinkPort k then .held else .intake⟩] }))

/-- The receiver's other events and the transmitter (R178, R181, R183): a sync byte makes the receiver IN-FRAME;
a length above 1,040 and, inside a frame, a gap or a missing stop bit set LINK-ERROR with the first cause kept;
and at the end of a frame the reply that became ready first is sent and frees its slot, or else the oldest
notice, which carries NOTICE-LOST and clears it. That a length error is taken while HUNTING as well as IN-FRAME is
the model's choice (assumption 32). Model's choices: assumptions 13, 28 and 32. -/
def Obligations.ReceiverEventsAndTransmission : Prop :=
  ∀ s : State, s.quiet →
    let l := s.part.link
    let gives := fun (i : Instr) (l' : Link) =>
      exec i s = .next { s with part := { s.part with link := l' } }
    let error := fun (c : ErrorCause) => { l with
      receiver := .hunting, linkError := true
      errorCause := if l.linkError then l.errorCause else some c }
    (s.part.mem.state ≠ .off →
      gives .syncByteReceived (Link.pump { l with receiver := .inFrame }) ∧
      (∀ n : BitVec 16, 1040 < n.toNat →
        gives (.frameLengthError n) (error .length).pump) ∧
      (l.receiver = .inFrame → gives .frameGapTimeout (error .gap).pump ∧
        gives .frameStopBitError (error .check).pump) ∧
      (l.receiver = .hunting → gives .frameGapTimeout l.pump ∧
        gives .frameStopBitError l.pump)) ∧
    (∀ r rest, l.replies = r :: rest →
      gives .transmitDone { l with
        transmitting := some ⟨r.kind, r.tag, r.body⟩
        replies := rest
        slots := if r.fromSlot then l.slots.filter fun x => x.tag ≠ r.tag else l.slots }) ∧
    (∀ n rest, l.replies = [] → l.notices = n :: rest →
      gives .transmitDone { l with
        transmitting := some ⟨n.content.kind, 0,
          eTime n.time ++ eFlag l.noticeLost ++ n.content.content⟩
        notices := rest, noticeLost := false }) ∧
    (l.replies = [] → l.notices = [] →
      gives .transmitDone { l with transmitting := none })

/-- PART-STATUS reports the part and then clears LINK-ERROR, its cause and NOTICE-LOST (R186); WAKE in STANDBY
begins the start-up with origin WAKE, raises its STORE notice, starts the bus and is answered OK at once, and in
any other state is WRONG-STATE (R9, R54, R189). Model's choices: assumptions 2, 13, 28 and 50. -/
def Obligations.StatusAndWakeAnswerAtOnce : Prop :=
  ∀ (s : State) (tag : Byte), s.quiet →
    let p := s.part
    let m := p.mem
    (p.canTake .partStatus tag [] →
      let l := p.takenLink .partStatus tag []
      exec (.partStatus tag []) s = .next { s with
        part := { p with
          link := Link.pump { l.answer .partStatus tag
            (0 :: e8 p.state.code ++ eFlag l.entering ++ eTime p.time ++ e8 m.state.code ++
              eFlag l.linkError ++ o8 (l.errorCause.map ErrorCause.code) ++
              eFlag l.noticeLost ++ e8 l.slots.length ++ e8 l.notices.length ++
              eFlag p.level.stale ++ e8 p.supply.shed.code ++ eFlag p.ann.deckAlert) with
            linkError := false, errorCause := none, noticeLost := false } } }) ∧
    (p.canTake .wake tag [] → m.state = .selfRefresh →
      exec (.wake tag []) s = .next { s with
        part := { p with
          mem := { m with
            state := .initialising, origin := .wake, stage := .pause, row := 0, owed := 0 }
          bank := { p.bank with busOn := true }
          link := (((p.takenLink .wake tag []).noted (.storeMemory .selfRefresh .initialising)
            p.time).answer .wake tag [0]).pump } }) ∧
    (p.canTake .wake tag [] → m.state ≠ .selfRefresh →
      exec (.wake tag []) s = .next { s with
        part := { p with link := p.repliedLink .wake tag [] .wrongState [] } })

/-- PART-RESET and STANDBY, taken in RUNNING, clear the run-time state and keep the configuration (R36, R53,
R77, R101, R118, R135, R147, R159, R177, R187, R188): no request passes to the blocks, or standby is being
entered; every request that a block holds is answered ABORTED or IN-STANDBY, and so is a running check when no
transfer is in progress; readers, streams, announcements, sockets, averages and faults are cleared, and every
node within its string's population is SEEKING; sets, reels, languages, volumes, limits, the five supply
settings, zone configurations, scenes and cues are kept; the memory keeps its state, row and owed refreshes. At
an entry to standby the notice queue is emptied. Model's choices: assumptions 2, 12, 18, 21, 24, 25 and 28. -/
def Obligations.ResetAndStandbyClearTheRunTimeState : Prop :=
  ∀ (s : State) (tag : Byte), s.quiet → s.part.active = true →
    let p := s.part
    let sent := fun (t : State) (k : Kind) (tag : Byte) (body : Bytes) =>
      (⟨k.byte, tag, body, true⟩ : Reply) ∈ t.part.link.replies ∨
        t.part.link.transmitting = some ⟨k.byte, tag, body⟩
    let cleared := fun (t : State) (status : Status) =>
      t.dram = s.dram ∧ t.pending = s.pending ∧
      (∀ x ∈ p.link.slots, x.kind.owner ≠ .linkPort → x.kind ≠ .storeCheck →
        (x.progress = .intake ∨ x.progress = .taken) → sent t x.kind x.tag [status.byte]) ∧
      (p.store.check.running = true → p.mem.device.busy = false →
        ∃ fields, sent t .storeCheck p.store.check.tag (status.byte :: fields)) ∧
      (t.part.mem.state = .ready ∧ t.part.mem.row = p.mem.row ∧ t.part.mem.owed = p.mem.owed ∧
        ∀ c, vget t.part.mem.waiting c = false) ∧
      t.part.store.job = .none ∧ t.part.store.buffer = [] ∧
      (t.part.bank.readers = Bank.idleReaders ∧ t.part.bank.chimeRouting = false ∧
        t.part.bank.busOn = p.bank.busOn) ∧
      (∀ l, t.part.language l = { p.language l with
        audience := 0, stream := if (p.language l).enabled then .parked else .off
        current := none, waiting := [], resume := none }) ∧
      (t.part.lang.default = p.lang.default ∧ t.part.lang.pa = p.lang.pa ∧
        t.part.lang.hold = false) ∧
      (t.part.ann.sets = p.ann.sets ∧ t.part.ann.queue = [] ∧ t.part.ann.playing = none ∧
        t.part.ann.deckAlert = false) ∧
      (∀ i : StringId, (t.part.string i).population =
        (p.string i).pendingPopulation.getD (p.string i).population) ∧
      (∀ i : SeatId,
        (t.part.seat i).node = (if i.val % 24 < (t.part.string (stringOf i)).population
          then .seeking else .unconfigured) ∧
        (t.part.seat i).missCount = 0 ∧ (t.part.seat i).language = (p.seat i).language ∧
        (t.part.seat i).volume = (p.seat i).volume ∧ (t.part.seat i).pending = .mute ∧
        (t.part.seat i).acknowledged = .mute ∧ (t.part.seat i).baselines = none ∧
        (t.part.seat i).socket = Socket.cold) ∧
      t.part.level = { LevelUnit.cold with
        cap := p.level.cap, safetyFloor := p.level.safetyFloor, paBase := p.level.paBase
        paCap := p.level.paCap } ∧
      (let u := t.part.supply
       u.vLow = p.supply.vLow ∧ u.vCrit = p.supply.vCrit ∧ u.budget = p.supply.budget ∧
        u.scan = p.supply.scan ∧ u.shift = p.supply.shift ∧
        u.lastVoltage = none ∧ u.lastCurrent = none ∧
        u.voltageAverage = none ∧ u.currentAverage = none ∧ u.peak = 0 ∧
        u.voltageState = .normal ∧ u.currentLow = false ∧ u.shed = .normal ∧
        ∀ z, vget u.zoneSamples z = none) ∧
      (t.part.light.scenes = p.light.scenes ∧ t.part.light.cues = p.light.cues ∧
        t.part.light.active = 0 ∧ t.part.light.activeCue = none ∧
        t.part.light.shed = .normal ∧
        ∀ z, let x := t.part.zone z
          let y := p.zone z
          x.enabled = y.enabled ∧ x.safety = y.safety ∧ x.minimum = y.minimum ∧
          x.nominal = y.nominal ∧ x.keep = y.keep ∧ x.fault = .ok ∧ x.average = none ∧
          x.averageLevel = none ∧ x.openCount = 0 ∧ x.leftAt = [] ∧
          x.target = t.part.light.effective z) ∧
      t.part.link.linkError = p.link.linkError ∧ t.part.time = p.time
    (p.canTake .partReset tag [] →
      ∃ t, exec (.partReset tag []) s = .next t ∧ cleared t .aborted ∧
        t.part.link.resetting = true ∧
        t.part.mem.ring = 15 ∧ t.part.supply.running = true ∧
        t.part.supply.intervalStart = p.time ∧ t.part.supply.zoneIndex = 0 ∧
        (∀ z, vget t.part.supply.conversions z = if z = 0 then some p.time else none) ∧
        ∀ i, (t.part.string i).roundStart = p.time) ∧
    (p.canTake .standby tag [] →
      ∃ t, exec (.standby tag []) s = .next t ∧ cleared t .inStandby ∧
        t.part.link.entering = true ∧
        (p.ann.playing = none → p.ann.queue = [] →
          t.part.link.notices = [] ∧ t.part.link.noticeLost = false) ∧
        t.part.active = false ∧ t.part.supply.running = false ∧
        (∀ z, vget t.part.supply.conversions z = none) ∧
        ∀ z, t.part.zoneOutput z = 0 ∧ (t.part.zone z).level = 0 ∧
          (t.part.zone z).stepDue = none)
end

