-- ==== Sys2Proof/Laws/State.lean ====
section
/-! SUPPORT. One lemma for each field that an update of the part leaves alone, true by unfolding. -/

namespace Sys2Proof.Machine

@[simp] theorem Part.setReader_time (p : Part) (r : ReaderId) (x : Reader) : (p.setReader r x).time = p.time := rfl
@[simp] theorem Part.setReader_mem (p : Part) (r : ReaderId) (x : Reader) : (p.setReader r x).mem = p.mem := rfl
@[simp] theorem Part.setReader_store (p : Part) (r : ReaderId) (x : Reader) : (p.setReader r x).store = p.store := rfl
@[simp] theorem Part.setReader_lang (p : Part) (r : ReaderId) (x : Reader) : (p.setReader r x).lang = p.lang := rfl
@[simp] theorem Part.setReader_ann (p : Part) (r : ReaderId) (x : Reader) : (p.setReader r x).ann = p.ann := rfl
@[simp] theorem Part.setReader_strings (p : Part) (r : ReaderId) (x : Reader) : (p.setReader r x).strings = p.strings := rfl
@[simp] theorem Part.setReader_seats (p : Part) (r : ReaderId) (x : Reader) : (p.setReader r x).seats = p.seats := rfl
@[simp] theorem Part.setReader_level (p : Part) (r : ReaderId) (x : Reader) : (p.setReader r x).level = p.level := rfl
@[simp] theorem Part.setReader_supply (p : Part) (r : ReaderId) (x : Reader) : (p.setReader r x).supply = p.supply := rfl
@[simp] theorem Part.setReader_light (p : Part) (r : ReaderId) (x : Reader) : (p.setReader r x).light = p.light := rfl
@[simp] theorem Part.setReader_link (p : Part) (r : ReaderId) (x : Reader) : (p.setReader r x).link = p.link := rfl

@[simp] theorem Part.setClip_time (p : Part) (c : ClipId) (x : Clip) : (p.setClip c x).time = p.time := rfl
@[simp] theorem Part.setClip_mem (p : Part) (c : ClipId) (x : Clip) : (p.setClip c x).mem = p.mem := rfl
@[simp] theorem Part.setClip_bank (p : Part) (c : ClipId) (x : Clip) : (p.setClip c x).bank = p.bank := rfl
@[simp] theorem Part.setClip_lang (p : Part) (c : ClipId) (x : Clip) : (p.setClip c x).lang = p.lang := rfl
@[simp] theorem Part.setClip_ann (p : Part) (c : ClipId) (x : Clip) : (p.setClip c x).ann = p.ann := rfl
@[simp] theorem Part.setClip_strings (p : Part) (c : ClipId) (x : Clip) : (p.setClip c x).strings = p.strings := rfl
@[simp] theorem Part.setClip_seats (p : Part) (c : ClipId) (x : Clip) : (p.setClip c x).seats = p.seats := rfl
@[simp] theorem Part.setClip_level (p : Part) (c : ClipId) (x : Clip) : (p.setClip c x).level = p.level := rfl
@[simp] theorem Part.setClip_supply (p : Part) (c : ClipId) (x : Clip) : (p.setClip c x).supply = p.supply := rfl
@[simp] theorem Part.setClip_light (p : Part) (c : ClipId) (x : Clip) : (p.setClip c x).light = p.light := rfl
@[simp] theorem Part.setClip_link (p : Part) (c : ClipId) (x : Clip) : (p.setClip c x).link = p.link := rfl

@[simp] theorem Part.setPage_time (p : Part) (n : Nat) (x : PageEntry) : (p.setPage n x).time = p.time := rfl
@[simp] theorem Part.setPage_mem (p : Part) (n : Nat) (x : PageEntry) : (p.setPage n x).mem = p.mem := rfl
@[simp] theorem Part.setPage_bank (p : Part) (n : Nat) (x : PageEntry) : (p.setPage n x).bank = p.bank := rfl
@[simp] theorem Part.setPage_lang (p : Part) (n : Nat) (x : PageEntry) : (p.setPage n x).lang = p.lang := rfl
@[simp] theorem Part.setPage_ann (p : Part) (n : Nat) (x : PageEntry) : (p.setPage n x).ann = p.ann := rfl
@[simp] theorem Part.setPage_strings (p : Part) (n : Nat) (x : PageEntry) : (p.setPage n x).strings = p.strings := rfl
@[simp] theorem Part.setPage_seats (p : Part) (n : Nat) (x : PageEntry) : (p.setPage n x).seats = p.seats := rfl
@[simp] theorem Part.setPage_level (p : Part) (n : Nat) (x : PageEntry) : (p.setPage n x).level = p.level := rfl
@[simp] theorem Part.setPage_supply (p : Part) (n : Nat) (x : PageEntry) : (p.setPage n x).supply = p.supply := rfl
@[simp] theorem Part.setPage_light (p : Part) (n : Nat) (x : PageEntry) : (p.setPage n x).light = p.light := rfl
@[simp] theorem Part.setPage_link (p : Part) (n : Nat) (x : PageEntry) : (p.setPage n x).link = p.link := rfl

@[simp] theorem Part.setLanguage_time (p : Part) (l : Lang) (x : Language) : (p.setLanguage l x).time = p.time := rfl
@[simp] theorem Part.setLanguage_mem (p : Part) (l : Lang) (x : Language) : (p.setLanguage l x).mem = p.mem := rfl
@[simp] theorem Part.setLanguage_store (p : Part) (l : Lang) (x : Language) : (p.setLanguage l x).store = p.store := rfl
@[simp] theorem Part.setLanguage_bank (p : Part) (l : Lang) (x : Language) : (p.setLanguage l x).bank = p.bank := rfl
@[simp] theorem Part.setLanguage_ann (p : Part) (l : Lang) (x : Language) : (p.setLanguage l x).ann = p.ann := rfl
@[simp] theorem Part.setLanguage_strings (p : Part) (l : Lang) (x : Language) : (p.setLanguage l x).strings = p.strings := rfl
@[simp] theorem Part.setLanguage_seats (p : Part) (l : Lang) (x : Language) : (p.setLanguage l x).seats = p.seats := rfl
@[simp] theorem Part.setLanguage_level (p : Part) (l : Lang) (x : Language) : (p.setLanguage l x).level = p.level := rfl
@[simp] theorem Part.setLanguage_supply (p : Part) (l : Lang) (x : Language) : (p.setLanguage l x).supply = p.supply := rfl
@[simp] theorem Part.setLanguage_light (p : Part) (l : Lang) (x : Language) : (p.setLanguage l x).light = p.light := rfl
@[simp] theorem Part.setLanguage_link (p : Part) (l : Lang) (x : Language) : (p.setLanguage l x).link = p.link := rfl

@[simp] theorem Part.setSeat_time (p : Part) (i : SeatId) (x : Seat) : (p.setSeat i x).time = p.time := rfl
@[simp] theorem Part.setSeat_mem (p : Part) (i : SeatId) (x : Seat) : (p.setSeat i x).mem = p.mem := rfl
@[simp] theorem Part.setSeat_store (p : Part) (i : SeatId) (x : Seat) : (p.setSeat i x).store = p.store := rfl
@[simp] theorem Part.setSeat_bank (p : Part) (i : SeatId) (x : Seat) : (p.setSeat i x).bank = p.bank := rfl
@[simp] theorem Part.setSeat_lang (p : Part) (i : SeatId) (x : Seat) : (p.setSeat i x).lang = p.lang := rfl
@[simp] theorem Part.setSeat_ann (p : Part) (i : SeatId) (x : Seat) : (p.setSeat i x).ann = p.ann := rfl
@[simp] theorem Part.setSeat_strings (p : Part) (i : SeatId) (x : Seat) : (p.setSeat i x).strings = p.strings := rfl
@[simp] theorem Part.setSeat_level (p : Part) (i : SeatId) (x : Seat) : (p.setSeat i x).level = p.level := rfl
@[simp] theorem Part.setSeat_supply (p : Part) (i : SeatId) (x : Seat) : (p.setSeat i x).supply = p.supply := rfl
@[simp] theorem Part.setSeat_light (p : Part) (i : SeatId) (x : Seat) : (p.setSeat i x).light = p.light := rfl
@[simp] theorem Part.setSeat_link (p : Part) (i : SeatId) (x : Seat) : (p.setSeat i x).link = p.link := rfl

@[simp] theorem Part.setString_time (p : Part) (i : StringId) (x : StringRec) : (p.setString i x).time = p.time := rfl
@[simp] theorem Part.setString_mem (p : Part) (i : StringId) (x : StringRec) : (p.setString i x).mem = p.mem := rfl
@[simp] theorem Part.setString_store (p : Part) (i : StringId) (x : StringRec) : (p.setString i x).store = p.store := rfl
@[simp] theorem Part.setString_bank (p : Part) (i : StringId) (x : StringRec) : (p.setString i x).bank = p.bank := rfl
@[simp] theorem Part.setString_lang (p : Part) (i : StringId) (x : StringRec) : (p.setString i x).lang = p.lang := rfl
@[simp] theorem Part.setString_ann (p : Part) (i : StringId) (x : StringRec) : (p.setString i x).ann = p.ann := rfl
@[simp] theorem Part.setString_seats (p : Part) (i : StringId) (x : StringRec) : (p.setString i x).seats = p.seats := rfl
@[simp] theorem Part.setString_level (p : Part) (i : StringId) (x : StringRec) : (p.setString i x).level = p.level := rfl
@[simp] theorem Part.setString_supply (p : Part) (i : StringId) (x : StringRec) : (p.setString i x).supply = p.supply := rfl
@[simp] theorem Part.setString_light (p : Part) (i : StringId) (x : StringRec) : (p.setString i x).light = p.light := rfl
@[simp] theorem Part.setString_link (p : Part) (i : StringId) (x : StringRec) : (p.setString i x).link = p.link := rfl

@[simp] theorem Part.setZone_time (p : Part) (z : ZoneId) (x : Zone) : (p.setZone z x).time = p.time := rfl
@[simp] theorem Part.setZone_mem (p : Part) (z : ZoneId) (x : Zone) : (p.setZone z x).mem = p.mem := rfl
@[simp] theorem Part.setZone_store (p : Part) (z : ZoneId) (x : Zone) : (p.setZone z x).store = p.store := rfl
@[simp] theorem Part.setZone_bank (p : Part) (z : ZoneId) (x : Zone) : (p.setZone z x).bank = p.bank := rfl
@[simp] theorem Part.setZone_lang (p : Part) (z : ZoneId) (x : Zone) : (p.setZone z x).lang = p.lang := rfl
@[simp] theorem Part.setZone_ann (p : Part) (z : ZoneId) (x : Zone) : (p.setZone z x).ann = p.ann := rfl
@[simp] theorem Part.setZone_strings (p : Part) (z : ZoneId) (x : Zone) : (p.setZone z x).strings = p.strings := rfl
@[simp] theorem Part.setZone_seats (p : Part) (z : ZoneId) (x : Zone) : (p.setZone z x).seats = p.seats := rfl
@[simp] theorem Part.setZone_level (p : Part) (z : ZoneId) (x : Zone) : (p.setZone z x).level = p.level := rfl
@[simp] theorem Part.setZone_supply (p : Part) (z : ZoneId) (x : Zone) : (p.setZone z x).supply = p.supply := rfl
@[simp] theorem Part.setZone_link (p : Part) (z : ZoneId) (x : Zone) : (p.setZone z x).link = p.link := rfl

@[simp] theorem Zone.drive_level (x : Zone) (t : PartTime) (n : Nat) : (x.drive t n).level = n := rfl
@[simp] theorem Zone.drive_enabled (x : Zone) (t : PartTime) (n : Nat) : (x.drive t n).enabled = x.enabled := rfl
@[simp] theorem Zone.drive_safety (x : Zone) (t : PartTime) (n : Nat) : (x.drive t n).safety = x.safety := rfl
@[simp] theorem Zone.drive_minimum (x : Zone) (t : PartTime) (n : Nat) : (x.drive t n).minimum = x.minimum := rfl
@[simp] theorem Zone.drive_nominal (x : Zone) (t : PartTime) (n : Nat) : (x.drive t n).nominal = x.nominal := rfl
@[simp] theorem Zone.drive_keep (x : Zone) (t : PartTime) (n : Nat) : (x.drive t n).keep = x.keep := rfl
@[simp] theorem Zone.drive_target (x : Zone) (t : PartTime) (n : Nat) : (x.drive t n).target = x.target := rfl
@[simp] theorem Zone.drive_stepDue (x : Zone) (t : PartTime) (n : Nat) : (x.drive t n).stepDue = x.stepDue := rfl
@[simp] theorem Zone.drive_fault (x : Zone) (t : PartTime) (n : Nat) : (x.drive t n).fault = x.fault := rfl
@[simp] theorem Zone.drive_average (x : Zone) (t : PartTime) (n : Nat) : (x.drive t n).average = x.average := rfl
@[simp] theorem Zone.drive_averageLevel (x : Zone) (t : PartTime) (n : Nat) : (x.drive t n).averageLevel = x.averageLevel := rfl
@[simp] theorem Zone.drive_openCount (x : Zone) (t : PartTime) (n : Nat) : (x.drive t n).openCount = x.openCount := rfl
@[simp] theorem Zone.drive_halves (x : Zone) (t : PartTime) (n : Nat) : (x.drive t n).halves = x.halves := rfl

@[simp] theorem Part.answer_time (p : Part) (k : Kind) (tag : Byte) (s : Status) (b : Bytes) : (p.answer k tag s b).time = p.time := rfl
@[simp] theorem Part.answer_mem (p : Part) (k : Kind) (tag : Byte) (s : Status) (b : Bytes) : (p.answer k tag s b).mem = p.mem := rfl
@[simp] theorem Part.answer_store (p : Part) (k : Kind) (tag : Byte) (s : Status) (b : Bytes) : (p.answer k tag s b).store = p.store := rfl
@[simp] theorem Part.answer_bank (p : Part) (k : Kind) (tag : Byte) (s : Status) (b : Bytes) : (p.answer k tag s b).bank = p.bank := rfl
@[simp] theorem Part.answer_lang (p : Part) (k : Kind) (tag : Byte) (s : Status) (b : Bytes) : (p.answer k tag s b).lang = p.lang := rfl
@[simp] theorem Part.answer_ann (p : Part) (k : Kind) (tag : Byte) (s : Status) (b : Bytes) : (p.answer k tag s b).ann = p.ann := rfl
@[simp] theorem Part.answer_strings (p : Part) (k : Kind) (tag : Byte) (s : Status) (b : Bytes) : (p.answer k tag s b).strings = p.strings := rfl
@[simp] theorem Part.answer_seats (p : Part) (k : Kind) (tag : Byte) (s : Status) (b : Bytes) : (p.answer k tag s b).seats = p.seats := rfl
@[simp] theorem Part.answer_level (p : Part) (k : Kind) (tag : Byte) (s : Status) (b : Bytes) : (p.answer k tag s b).level = p.level := rfl
@[simp] theorem Part.answer_supply (p : Part) (k : Kind) (tag : Byte) (s : Status) (b : Bytes) : (p.answer k tag s b).supply = p.supply := rfl
@[simp] theorem Part.answer_light (p : Part) (k : Kind) (tag : Byte) (s : Status) (b : Bytes) : (p.answer k tag s b).light = p.light := rfl

@[simp] theorem Part.setPlaying_time (p : Part) (r : Option Playing) : (p.setPlaying r).time = p.time := rfl
@[simp] theorem Part.setPlaying_mem (p : Part) (r : Option Playing) : (p.setPlaying r).mem = p.mem := rfl
@[simp] theorem Part.setPlaying_store (p : Part) (r : Option Playing) : (p.setPlaying r).store = p.store := rfl
@[simp] theorem Part.setPlaying_bank (p : Part) (r : Option Playing) : (p.setPlaying r).bank = p.bank := rfl
@[simp] theorem Part.setPlaying_lang (p : Part) (r : Option Playing) : (p.setPlaying r).lang = p.lang := rfl
@[simp] theorem Part.setPlaying_strings (p : Part) (r : Option Playing) : (p.setPlaying r).strings = p.strings := rfl
@[simp] theorem Part.setPlaying_seats (p : Part) (r : Option Playing) : (p.setPlaying r).seats = p.seats := rfl
@[simp] theorem Part.setPlaying_level (p : Part) (r : Option Playing) : (p.setPlaying r).level = p.level := rfl
@[simp] theorem Part.setPlaying_supply (p : Part) (r : Option Playing) : (p.setPlaying r).supply = p.supply := rfl
@[simp] theorem Part.setPlaying_light (p : Part) (r : Option Playing) : (p.setPlaying r).light = p.light := rfl
@[simp] theorem Part.setPlaying_link (p : Part) (r : Option Playing) : (p.setPlaying r).link = p.link := rfl

@[simp] theorem Part.setQueue_time (p : Part) (q : List QEntry) : (p.setQueue q).time = p.time := rfl
@[simp] theorem Part.setQueue_mem (p : Part) (q : List QEntry) : (p.setQueue q).mem = p.mem := rfl
@[simp] theorem Part.setQueue_store (p : Part) (q : List QEntry) : (p.setQueue q).store = p.store := rfl
@[simp] theorem Part.setQueue_bank (p : Part) (q : List QEntry) : (p.setQueue q).bank = p.bank := rfl
@[simp] theorem Part.setQueue_lang (p : Part) (q : List QEntry) : (p.setQueue q).lang = p.lang := rfl
@[simp] theorem Part.setQueue_strings (p : Part) (q : List QEntry) : (p.setQueue q).strings = p.strings := rfl
@[simp] theorem Part.setQueue_seats (p : Part) (q : List QEntry) : (p.setQueue q).seats = p.seats := rfl
@[simp] theorem Part.setQueue_level (p : Part) (q : List QEntry) : (p.setQueue q).level = p.level := rfl
@[simp] theorem Part.setQueue_supply (p : Part) (q : List QEntry) : (p.setQueue q).supply = p.supply := rfl
@[simp] theorem Part.setQueue_light (p : Part) (q : List QEntry) : (p.setQueue q).light = p.light := rfl
@[simp] theorem Part.setQueue_link (p : Part) (q : List QEntry) : (p.setQueue q).link = p.link := rfl

@[simp] theorem Part.judgeAlert_time (p : Part) : p.judgeAlert.time = p.time := rfl
@[simp] theorem Part.judgeAlert_mem (p : Part) : p.judgeAlert.mem = p.mem := rfl
@[simp] theorem Part.judgeAlert_store (p : Part) : p.judgeAlert.store = p.store := rfl
@[simp] theorem Part.judgeAlert_bank (p : Part) : p.judgeAlert.bank = p.bank := rfl
@[simp] theorem Part.judgeAlert_lang (p : Part) : p.judgeAlert.lang = p.lang := rfl
@[simp] theorem Part.judgeAlert_strings (p : Part) : p.judgeAlert.strings = p.strings := rfl
@[simp] theorem Part.judgeAlert_seats (p : Part) : p.judgeAlert.seats = p.seats := rfl
@[simp] theorem Part.judgeAlert_level (p : Part) : p.judgeAlert.level = p.level := rfl
@[simp] theorem Part.judgeAlert_supply (p : Part) : p.judgeAlert.supply = p.supply := rfl
@[simp] theorem Part.judgeAlert_light (p : Part) : p.judgeAlert.light = p.light := rfl
@[simp] theorem Part.judgeAlert_link (p : Part) : p.judgeAlert.link = p.link := rfl

@[simp] theorem Part.tellSafety_time (p : Part) : p.tellSafety.time = p.time := rfl
@[simp] theorem Part.tellSafety_mem (p : Part) : p.tellSafety.mem = p.mem := rfl
@[simp] theorem Part.tellSafety_store (p : Part) : p.tellSafety.store = p.store := rfl
@[simp] theorem Part.tellSafety_bank (p : Part) : p.tellSafety.bank = p.bank := rfl
@[simp] theorem Part.tellSafety_lang (p : Part) : p.tellSafety.lang = p.lang := rfl
@[simp] theorem Part.tellSafety_strings (p : Part) : p.tellSafety.strings = p.strings := rfl
@[simp] theorem Part.tellSafety_seats (p : Part) : p.tellSafety.seats = p.seats := rfl
@[simp] theorem Part.tellSafety_level (p : Part) : p.tellSafety.level = p.level := rfl
@[simp] theorem Part.tellSafety_supply (p : Part) : p.tellSafety.supply = p.supply := rfl
@[simp] theorem Part.tellSafety_light (p : Part) : p.tellSafety.light = p.light := rfl
@[simp] theorem Part.tellSafety_link (p : Part) : p.tellSafety.link = p.link := rfl

@[simp] theorem Part.setRouting_time (p : Part) (b : Bool) : (p.setRouting b).time = p.time := rfl
@[simp] theorem Part.setRouting_mem (p : Part) (b : Bool) : (p.setRouting b).mem = p.mem := rfl
@[simp] theorem Part.setRouting_store (p : Part) (b : Bool) : (p.setRouting b).store = p.store := rfl
@[simp] theorem Part.setRouting_lang (p : Part) (b : Bool) : (p.setRouting b).lang = p.lang := rfl
@[simp] theorem Part.setRouting_ann (p : Part) (b : Bool) : (p.setRouting b).ann = p.ann := rfl
@[simp] theorem Part.setRouting_strings (p : Part) (b : Bool) : (p.setRouting b).strings = p.strings := rfl
@[simp] theorem Part.setRouting_seats (p : Part) (b : Bool) : (p.setRouting b).seats = p.seats := rfl
@[simp] theorem Part.setRouting_level (p : Part) (b : Bool) : (p.setRouting b).level = p.level := rfl
@[simp] theorem Part.setRouting_supply (p : Part) (b : Bool) : (p.setRouting b).supply = p.supply := rfl
@[simp] theorem Part.setRouting_light (p : Part) (b : Bool) : (p.setRouting b).light = p.light := rfl
@[simp] theorem Part.setRouting_link (p : Part) (b : Bool) : (p.setRouting b).link = p.link := rfl

@[simp] theorem Part.setOwner_time (p : Part) (r : ReaderId) (o : Owner) : (p.setOwner r o).time = p.time := rfl
@[simp] theorem Part.setOwner_mem (p : Part) (r : ReaderId) (o : Owner) : (p.setOwner r o).mem = p.mem := rfl
@[simp] theorem Part.setOwner_store (p : Part) (r : ReaderId) (o : Owner) : (p.setOwner r o).store = p.store := rfl
@[simp] theorem Part.setOwner_lang (p : Part) (r : ReaderId) (o : Owner) : (p.setOwner r o).lang = p.lang := rfl
@[simp] theorem Part.setOwner_ann (p : Part) (r : ReaderId) (o : Owner) : (p.setOwner r o).ann = p.ann := rfl
@[simp] theorem Part.setOwner_strings (p : Part) (r : ReaderId) (o : Owner) : (p.setOwner r o).strings = p.strings := rfl
@[simp] theorem Part.setOwner_seats (p : Part) (r : ReaderId) (o : Owner) : (p.setOwner r o).seats = p.seats := rfl
@[simp] theorem Part.setOwner_level (p : Part) (r : ReaderId) (o : Owner) : (p.setOwner r o).level = p.level := rfl
@[simp] theorem Part.setOwner_supply (p : Part) (r : ReaderId) (o : Owner) : (p.setOwner r o).supply = p.supply := rfl
@[simp] theorem Part.setOwner_light (p : Part) (r : ReaderId) (o : Owner) : (p.setOwner r o).light = p.light := rfl
@[simp] theorem Part.setOwner_link (p : Part) (r : ReaderId) (o : Owner) : (p.setOwner r o).link = p.link := rfl

@[simp] theorem Part.report_time (p : Part) (r : ReaderId) (k : ReportKind) : (p.report r k).time = p.time := rfl
@[simp] theorem Part.report_mem (p : Part) (r : ReaderId) (k : ReportKind) : (p.report r k).mem = p.mem := rfl
@[simp] theorem Part.report_store (p : Part) (r : ReaderId) (k : ReportKind) : (p.report r k).store = p.store := rfl
@[simp] theorem Part.report_lang (p : Part) (r : ReaderId) (k : ReportKind) : (p.report r k).lang = p.lang := rfl
@[simp] theorem Part.report_ann (p : Part) (r : ReaderId) (k : ReportKind) : (p.report r k).ann = p.ann := rfl
@[simp] theorem Part.report_strings (p : Part) (r : ReaderId) (k : ReportKind) : (p.report r k).strings = p.strings := rfl
@[simp] theorem Part.report_seats (p : Part) (r : ReaderId) (k : ReportKind) : (p.report r k).seats = p.seats := rfl
@[simp] theorem Part.report_level (p : Part) (r : ReaderId) (k : ReportKind) : (p.report r k).level = p.level := rfl
@[simp] theorem Part.report_supply (p : Part) (r : ReaderId) (k : ReportKind) : (p.report r k).supply = p.supply := rfl
@[simp] theorem Part.report_light (p : Part) (r : ReaderId) (k : ReportKind) : (p.report r k).light = p.light := rfl
@[simp] theorem Part.report_link (p : Part) (r : ReaderId) (k : ReportKind) : (p.report r k).link = p.link := rfl

@[simp] theorem Part.withdraw_time (p : Part) (c : Fin 16) : (p.withdraw c).time = p.time := rfl
@[simp] theorem Part.withdraw_store (p : Part) (c : Fin 16) : (p.withdraw c).store = p.store := rfl
@[simp] theorem Part.withdraw_bank (p : Part) (c : Fin 16) : (p.withdraw c).bank = p.bank := rfl
@[simp] theorem Part.withdraw_lang (p : Part) (c : Fin 16) : (p.withdraw c).lang = p.lang := rfl
@[simp] theorem Part.withdraw_ann (p : Part) (c : Fin 16) : (p.withdraw c).ann = p.ann := rfl
@[simp] theorem Part.withdraw_strings (p : Part) (c : Fin 16) : (p.withdraw c).strings = p.strings := rfl
@[simp] theorem Part.withdraw_seats (p : Part) (c : Fin 16) : (p.withdraw c).seats = p.seats := rfl
@[simp] theorem Part.withdraw_level (p : Part) (c : Fin 16) : (p.withdraw c).level = p.level := rfl
@[simp] theorem Part.withdraw_supply (p : Part) (c : Fin 16) : (p.withdraw c).supply = p.supply := rfl
@[simp] theorem Part.withdraw_light (p : Part) (c : Fin 16) : (p.withdraw c).light = p.light := rfl
@[simp] theorem Part.withdraw_link (p : Part) (c : Fin 16) : (p.withdraw c).link = p.link := rfl

@[simp] theorem Part.withdrawAll_time (p : Part) : p.withdrawAll.time = p.time := rfl
@[simp] theorem Part.withdrawAll_store (p : Part) : p.withdrawAll.store = p.store := rfl
@[simp] theorem Part.withdrawAll_bank (p : Part) : p.withdrawAll.bank = p.bank := rfl
@[simp] theorem Part.withdrawAll_lang (p : Part) : p.withdrawAll.lang = p.lang := rfl
@[simp] theorem Part.withdrawAll_ann (p : Part) : p.withdrawAll.ann = p.ann := rfl
@[simp] theorem Part.withdrawAll_strings (p : Part) : p.withdrawAll.strings = p.strings := rfl
@[simp] theorem Part.withdrawAll_seats (p : Part) : p.withdrawAll.seats = p.seats := rfl
@[simp] theorem Part.withdrawAll_level (p : Part) : p.withdrawAll.level = p.level := rfl
@[simp] theorem Part.withdrawAll_supply (p : Part) : p.withdrawAll.supply = p.supply := rfl
@[simp] theorem Part.withdrawAll_light (p : Part) : p.withdrawAll.light = p.light := rfl
@[simp] theorem Part.withdrawAll_link (p : Part) : p.withdrawAll.link = p.link := rfl

@[simp] theorem Part.clearReader_time (p : Part) (r : ReaderId) : (p.clearReader r).time = p.time := rfl
@[simp] theorem Part.clearReader_store (p : Part) (r : ReaderId) : (p.clearReader r).store = p.store := rfl
@[simp] theorem Part.clearReader_lang (p : Part) (r : ReaderId) : (p.clearReader r).lang = p.lang := rfl
@[simp] theorem Part.clearReader_ann (p : Part) (r : ReaderId) : (p.clearReader r).ann = p.ann := rfl
@[simp] theorem Part.clearReader_strings (p : Part) (r : ReaderId) : (p.clearReader r).strings = p.strings := rfl
@[simp] theorem Part.clearReader_seats (p : Part) (r : ReaderId) : (p.clearReader r).seats = p.seats := rfl
@[simp] theorem Part.clearReader_level (p : Part) (r : ReaderId) : (p.clearReader r).level = p.level := rfl
@[simp] theorem Part.clearReader_supply (p : Part) (r : ReaderId) : (p.clearReader r).supply = p.supply := rfl
@[simp] theorem Part.clearReader_light (p : Part) (r : ReaderId) : (p.clearReader r).light = p.light := rfl
@[simp] theorem Part.clearReader_link (p : Part) (r : ReaderId) : (p.clearReader r).link = p.link := rfl

@[simp] theorem Part.addHold_time (p : Part) (c : ClipId) : (p.addHold c).time = p.time := rfl
@[simp] theorem Part.addHold_mem (p : Part) (c : ClipId) : (p.addHold c).mem = p.mem := rfl
@[simp] theorem Part.addHold_bank (p : Part) (c : ClipId) : (p.addHold c).bank = p.bank := rfl
@[simp] theorem Part.addHold_lang (p : Part) (c : ClipId) : (p.addHold c).lang = p.lang := rfl
@[simp] theorem Part.addHold_ann (p : Part) (c : ClipId) : (p.addHold c).ann = p.ann := rfl
@[simp] theorem Part.addHold_strings (p : Part) (c : ClipId) : (p.addHold c).strings = p.strings := rfl
@[simp] theorem Part.addHold_seats (p : Part) (c : ClipId) : (p.addHold c).seats = p.seats := rfl
@[simp] theorem Part.addHold_level (p : Part) (c : ClipId) : (p.addHold c).level = p.level := rfl
@[simp] theorem Part.addHold_supply (p : Part) (c : ClipId) : (p.addHold c).supply = p.supply := rfl
@[simp] theorem Part.addHold_light (p : Part) (c : ClipId) : (p.addHold c).light = p.light := rfl
@[simp] theorem Part.addHold_link (p : Part) (c : ClipId) : (p.addHold c).link = p.link := rfl

@[simp] theorem Part.setJob_time (p : Part) (j : Job) (b : Bytes) : (p.setJob j b).time = p.time := rfl
@[simp] theorem Part.setJob_mem (p : Part) (j : Job) (b : Bytes) : (p.setJob j b).mem = p.mem := rfl
@[simp] theorem Part.setJob_bank (p : Part) (j : Job) (b : Bytes) : (p.setJob j b).bank = p.bank := rfl
@[simp] theorem Part.setJob_lang (p : Part) (j : Job) (b : Bytes) : (p.setJob j b).lang = p.lang := rfl
@[simp] theorem Part.setJob_ann (p : Part) (j : Job) (b : Bytes) : (p.setJob j b).ann = p.ann := rfl
@[simp] theorem Part.setJob_strings (p : Part) (j : Job) (b : Bytes) : (p.setJob j b).strings = p.strings := rfl
@[simp] theorem Part.setJob_seats (p : Part) (j : Job) (b : Bytes) : (p.setJob j b).seats = p.seats := rfl
@[simp] theorem Part.setJob_level (p : Part) (j : Job) (b : Bytes) : (p.setJob j b).level = p.level := rfl
@[simp] theorem Part.setJob_supply (p : Part) (j : Job) (b : Bytes) : (p.setJob j b).supply = p.supply := rfl
@[simp] theorem Part.setJob_light (p : Part) (j : Job) (b : Bytes) : (p.setJob j b).light = p.light := rfl
@[simp] theorem Part.setJob_link (p : Part) (j : Job) (b : Bytes) : (p.setJob j b).link = p.link := rfl

@[simp] theorem Part.setCheck_time (p : Part) (k : Check) : (p.setCheck k).time = p.time := rfl
@[simp] theorem Part.setCheck_mem (p : Part) (k : Check) : (p.setCheck k).mem = p.mem := rfl
@[simp] theorem Part.setCheck_bank (p : Part) (k : Check) : (p.setCheck k).bank = p.bank := rfl
@[simp] theorem Part.setCheck_lang (p : Part) (k : Check) : (p.setCheck k).lang = p.lang := rfl
@[simp] theorem Part.setCheck_ann (p : Part) (k : Check) : (p.setCheck k).ann = p.ann := rfl
@[simp] theorem Part.setCheck_strings (p : Part) (k : Check) : (p.setCheck k).strings = p.strings := rfl
@[simp] theorem Part.setCheck_seats (p : Part) (k : Check) : (p.setCheck k).seats = p.seats := rfl
@[simp] theorem Part.setCheck_level (p : Part) (k : Check) : (p.setCheck k).level = p.level := rfl
@[simp] theorem Part.setCheck_supply (p : Part) (k : Check) : (p.setCheck k).supply = p.supply := rfl
@[simp] theorem Part.setCheck_light (p : Part) (k : Check) : (p.setCheck k).light = p.light := rfl
@[simp] theorem Part.setCheck_link (p : Part) (k : Check) : (p.setCheck k).link = p.link := rfl

@[simp] theorem Part.setAnnSet_time (p : Part) (i : SetId) (s : AnnSet) : (p.setAnnSet i s).time = p.time := rfl
@[simp] theorem Part.setAnnSet_mem (p : Part) (i : SetId) (s : AnnSet) : (p.setAnnSet i s).mem = p.mem := rfl
@[simp] theorem Part.setAnnSet_store (p : Part) (i : SetId) (s : AnnSet) : (p.setAnnSet i s).store = p.store := rfl
@[simp] theorem Part.setAnnSet_bank (p : Part) (i : SetId) (s : AnnSet) : (p.setAnnSet i s).bank = p.bank := rfl
@[simp] theorem Part.setAnnSet_lang (p : Part) (i : SetId) (s : AnnSet) : (p.setAnnSet i s).lang = p.lang := rfl
@[simp] theorem Part.setAnnSet_strings (p : Part) (i : SetId) (s : AnnSet) : (p.setAnnSet i s).strings = p.strings := rfl
@[simp] theorem Part.setAnnSet_seats (p : Part) (i : SetId) (s : AnnSet) : (p.setAnnSet i s).seats = p.seats := rfl
@[simp] theorem Part.setAnnSet_level (p : Part) (i : SetId) (s : AnnSet) : (p.setAnnSet i s).level = p.level := rfl
@[simp] theorem Part.setAnnSet_supply (p : Part) (i : SetId) (s : AnnSet) : (p.setAnnSet i s).supply = p.supply := rfl
@[simp] theorem Part.setAnnSet_light (p : Part) (i : SetId) (s : AnnSet) : (p.setAnnSet i s).light = p.light := rfl
@[simp] theorem Part.setAnnSet_link (p : Part) (i : SetId) (s : AnnSet) : (p.setAnnSet i s).link = p.link := rfl

@[simp] theorem Part.setSocket_time (p : Part) (i : SeatId) (k : Socket) : (p.setSocket i k).time = p.time := rfl
@[simp] theorem Part.setSocket_mem (p : Part) (i : SeatId) (k : Socket) : (p.setSocket i k).mem = p.mem := rfl
@[simp] theorem Part.setSocket_store (p : Part) (i : SeatId) (k : Socket) : (p.setSocket i k).store = p.store := rfl
@[simp] theorem Part.setSocket_bank (p : Part) (i : SeatId) (k : Socket) : (p.setSocket i k).bank = p.bank := rfl
@[simp] theorem Part.setSocket_lang (p : Part) (i : SeatId) (k : Socket) : (p.setSocket i k).lang = p.lang := rfl
@[simp] theorem Part.setSocket_ann (p : Part) (i : SeatId) (k : Socket) : (p.setSocket i k).ann = p.ann := rfl
@[simp] theorem Part.setSocket_strings (p : Part) (i : SeatId) (k : Socket) : (p.setSocket i k).strings = p.strings := rfl
@[simp] theorem Part.setSocket_level (p : Part) (i : SeatId) (k : Socket) : (p.setSocket i k).level = p.level := rfl
@[simp] theorem Part.setSocket_supply (p : Part) (i : SeatId) (k : Socket) : (p.setSocket i k).supply = p.supply := rfl
@[simp] theorem Part.setSocket_light (p : Part) (i : SeatId) (k : Socket) : (p.setSocket i k).light = p.light := rfl
@[simp] theorem Part.setSocket_link (p : Part) (i : SeatId) (k : Socket) : (p.setSocket i k).link = p.link := rfl

@[simp] theorem Part.recomputeSeat_time (p : Part) (i : SeatId) : (p.recomputeSeat i).time = p.time := rfl
@[simp] theorem Part.recomputeSeat_mem (p : Part) (i : SeatId) : (p.recomputeSeat i).mem = p.mem := rfl
@[simp] theorem Part.recomputeSeat_store (p : Part) (i : SeatId) : (p.recomputeSeat i).store = p.store := rfl
@[simp] theorem Part.recomputeSeat_bank (p : Part) (i : SeatId) : (p.recomputeSeat i).bank = p.bank := rfl
@[simp] theorem Part.recomputeSeat_lang (p : Part) (i : SeatId) : (p.recomputeSeat i).lang = p.lang := rfl
@[simp] theorem Part.recomputeSeat_ann (p : Part) (i : SeatId) : (p.recomputeSeat i).ann = p.ann := rfl
@[simp] theorem Part.recomputeSeat_strings (p : Part) (i : SeatId) : (p.recomputeSeat i).strings = p.strings := rfl
@[simp] theorem Part.recomputeSeat_level (p : Part) (i : SeatId) : (p.recomputeSeat i).level = p.level := rfl
@[simp] theorem Part.recomputeSeat_supply (p : Part) (i : SeatId) : (p.recomputeSeat i).supply = p.supply := rfl
@[simp] theorem Part.recomputeSeat_light (p : Part) (i : SeatId) : (p.recomputeSeat i).light = p.light := rfl
@[simp] theorem Part.recomputeSeat_link (p : Part) (i : SeatId) : (p.recomputeSeat i).link = p.link := rfl

@[simp] theorem Part.recomputeSeats_time (p : Part) :
    p.recomputeSeats.time = p.time := by simp only [Part.recomputeSeats]
@[simp] theorem Part.recomputeSeats_mem (p : Part) :
    p.recomputeSeats.mem = p.mem := by simp only [Part.recomputeSeats]
@[simp] theorem Part.recomputeSeats_store (p : Part) :
    p.recomputeSeats.store = p.store := by simp only [Part.recomputeSeats]
@[simp] theorem Part.recomputeSeats_bank (p : Part) :
    p.recomputeSeats.bank = p.bank := by simp only [Part.recomputeSeats]
@[simp] theorem Part.recomputeSeats_lang (p : Part) :
    p.recomputeSeats.lang = p.lang := by simp only [Part.recomputeSeats]
@[simp] theorem Part.recomputeSeats_ann (p : Part) :
    p.recomputeSeats.ann = p.ann := by simp only [Part.recomputeSeats]
@[simp] theorem Part.recomputeSeats_strings (p : Part) :
    p.recomputeSeats.strings = p.strings := by simp only [Part.recomputeSeats]
@[simp] theorem Part.recomputeSeats_level (p : Part) :
    p.recomputeSeats.level = p.level := by simp only [Part.recomputeSeats]
@[simp] theorem Part.recomputeSeats_supply (p : Part) :
    p.recomputeSeats.supply = p.supply := by simp only [Part.recomputeSeats]
@[simp] theorem Part.recomputeSeats_light (p : Part) :
    p.recomputeSeats.light = p.light := by simp only [Part.recomputeSeats]
@[simp] theorem Part.recomputeSeats_link (p : Part) :
    p.recomputeSeats.link = p.link := by simp only [Part.recomputeSeats]

@[simp] theorem Part.recomputeLanguage_time (p : Part) (l : Lang) :
    (p.recomputeLanguage l).time = p.time := by simp only [Part.recomputeLanguage]
@[simp] theorem Part.recomputeLanguage_mem (p : Part) (l : Lang) :
    (p.recomputeLanguage l).mem = p.mem := by simp only [Part.recomputeLanguage]
@[simp] theorem Part.recomputeLanguage_store (p : Part) (l : Lang) :
    (p.recomputeLanguage l).store = p.store := by simp only [Part.recomputeLanguage]
@[simp] theorem Part.recomputeLanguage_bank (p : Part) (l : Lang) :
    (p.recomputeLanguage l).bank = p.bank := by simp only [Part.recomputeLanguage]
@[simp] theorem Part.recomputeLanguage_lang (p : Part) (l : Lang) :
    (p.recomputeLanguage l).lang = p.lang := by simp only [Part.recomputeLanguage]
@[simp] theorem Part.recomputeLanguage_ann (p : Part) (l : Lang) :
    (p.recomputeLanguage l).ann = p.ann := by simp only [Part.recomputeLanguage]
@[simp] theorem Part.recomputeLanguage_strings (p : Part) (l : Lang) :
    (p.recomputeLanguage l).strings = p.strings := by simp only [Part.recomputeLanguage]
@[simp] theorem Part.recomputeLanguage_level (p : Part) (l : Lang) :
    (p.recomputeLanguage l).level = p.level := by simp only [Part.recomputeLanguage]
@[simp] theorem Part.recomputeLanguage_supply (p : Part) (l : Lang) :
    (p.recomputeLanguage l).supply = p.supply := by simp only [Part.recomputeLanguage]
@[simp] theorem Part.recomputeLanguage_light (p : Part) (l : Lang) :
    (p.recomputeLanguage l).light = p.light := by simp only [Part.recomputeLanguage]
@[simp] theorem Part.recomputeLanguage_link (p : Part) (l : Lang) :
    (p.recomputeLanguage l).link = p.link := by simp only [Part.recomputeLanguage]

@[simp] theorem Part.recomputePa_time (p : Part) : p.recomputePa.time = p.time := rfl
@[simp] theorem Part.recomputePa_mem (p : Part) : p.recomputePa.mem = p.mem := rfl
@[simp] theorem Part.recomputePa_store (p : Part) : p.recomputePa.store = p.store := rfl
@[simp] theorem Part.recomputePa_bank (p : Part) : p.recomputePa.bank = p.bank := rfl
@[simp] theorem Part.recomputePa_lang (p : Part) : p.recomputePa.lang = p.lang := rfl
@[simp] theorem Part.recomputePa_ann (p : Part) : p.recomputePa.ann = p.ann := rfl
@[simp] theorem Part.recomputePa_strings (p : Part) : p.recomputePa.strings = p.strings := rfl
@[simp] theorem Part.recomputePa_seats (p : Part) : p.recomputePa.seats = p.seats := rfl
@[simp] theorem Part.recomputePa_supply (p : Part) : p.recomputePa.supply = p.supply := rfl
@[simp] theorem Part.recomputePa_light (p : Part) : p.recomputePa.light = p.light := rfl
@[simp] theorem Part.recomputePa_link (p : Part) : p.recomputePa.link = p.link := rfl

@[simp] theorem Part.beginCue_time (p : Part) (c : Fin 16) : (p.beginCue c).time = p.time := rfl
@[simp] theorem Part.beginCue_mem (p : Part) (c : Fin 16) : (p.beginCue c).mem = p.mem := rfl
@[simp] theorem Part.beginCue_store (p : Part) (c : Fin 16) : (p.beginCue c).store = p.store := rfl
@[simp] theorem Part.beginCue_bank (p : Part) (c : Fin 16) : (p.beginCue c).bank = p.bank := rfl
@[simp] theorem Part.beginCue_lang (p : Part) (c : Fin 16) : (p.beginCue c).lang = p.lang := rfl
@[simp] theorem Part.beginCue_ann (p : Part) (c : Fin 16) : (p.beginCue c).ann = p.ann := rfl
@[simp] theorem Part.beginCue_strings (p : Part) (c : Fin 16) : (p.beginCue c).strings = p.strings := rfl
@[simp] theorem Part.beginCue_seats (p : Part) (c : Fin 16) : (p.beginCue c).seats = p.seats := rfl
@[simp] theorem Part.beginCue_level (p : Part) (c : Fin 16) : (p.beginCue c).level = p.level := rfl
@[simp] theorem Part.beginCue_supply (p : Part) (c : Fin 16) : (p.beginCue c).supply = p.supply := rfl
@[simp] theorem Part.beginCue_link (p : Part) (c : Fin 16) : (p.beginCue c).link = p.link := rfl

@[simp] theorem Part.endCue_time (p : Part) : p.endCue.time = p.time := rfl
@[simp] theorem Part.endCue_mem (p : Part) : p.endCue.mem = p.mem := rfl
@[simp] theorem Part.endCue_store (p : Part) : p.endCue.store = p.store := rfl
@[simp] theorem Part.endCue_bank (p : Part) : p.endCue.bank = p.bank := rfl
@[simp] theorem Part.endCue_lang (p : Part) : p.endCue.lang = p.lang := rfl
@[simp] theorem Part.endCue_ann (p : Part) : p.endCue.ann = p.ann := rfl
@[simp] theorem Part.endCue_strings (p : Part) : p.endCue.strings = p.strings := rfl
@[simp] theorem Part.endCue_seats (p : Part) : p.endCue.seats = p.seats := rfl
@[simp] theorem Part.endCue_level (p : Part) : p.endCue.level = p.level := rfl
@[simp] theorem Part.endCue_supply (p : Part) : p.endCue.supply = p.supply := rfl
@[simp] theorem Part.endCue_link (p : Part) : p.endCue.link = p.link := rfl

@[simp] theorem Part.freePage_time (p : Part) (n : Nat) : (p.freePage n).time = p.time := rfl
@[simp] theorem Part.freePage_mem (p : Part) (n : Nat) : (p.freePage n).mem = p.mem := rfl
@[simp] theorem Part.freePage_bank (p : Part) (n : Nat) : (p.freePage n).bank = p.bank := rfl
@[simp] theorem Part.freePage_lang (p : Part) (n : Nat) : (p.freePage n).lang = p.lang := rfl
@[simp] theorem Part.freePage_ann (p : Part) (n : Nat) : (p.freePage n).ann = p.ann := rfl
@[simp] theorem Part.freePage_strings (p : Part) (n : Nat) : (p.freePage n).strings = p.strings := rfl
@[simp] theorem Part.freePage_seats (p : Part) (n : Nat) : (p.freePage n).seats = p.seats := rfl
@[simp] theorem Part.freePage_level (p : Part) (n : Nat) : (p.freePage n).level = p.level := rfl
@[simp] theorem Part.freePage_supply (p : Part) (n : Nat) : (p.freePage n).supply = p.supply := rfl
@[simp] theorem Part.freePage_light (p : Part) (n : Nat) : (p.freePage n).light = p.light := rfl
@[simp] theorem Part.freePage_link (p : Part) (n : Nat) : (p.freePage n).link = p.link := rfl

@[simp] theorem Part.withdrawPage_time (p : Part) (g : Nat) : (p.withdrawPage g).time = p.time := rfl
@[simp] theorem Part.withdrawPage_mem (p : Part) (g : Nat) : (p.withdrawPage g).mem = p.mem := rfl
@[simp] theorem Part.withdrawPage_bank (p : Part) (g : Nat) : (p.withdrawPage g).bank = p.bank := rfl
@[simp] theorem Part.withdrawPage_lang (p : Part) (g : Nat) : (p.withdrawPage g).lang = p.lang := rfl
@[simp] theorem Part.withdrawPage_ann (p : Part) (g : Nat) : (p.withdrawPage g).ann = p.ann := rfl
@[simp] theorem Part.withdrawPage_strings (p : Part) (g : Nat) : (p.withdrawPage g).strings = p.strings := rfl
@[simp] theorem Part.withdrawPage_seats (p : Part) (g : Nat) : (p.withdrawPage g).seats = p.seats := rfl
@[simp] theorem Part.withdrawPage_level (p : Part) (g : Nat) : (p.withdrawPage g).level = p.level := rfl
@[simp] theorem Part.withdrawPage_supply (p : Part) (g : Nat) : (p.withdrawPage g).supply = p.supply := rfl
@[simp] theorem Part.withdrawPage_light (p : Part) (g : Nat) : (p.withdrawPage g).light = p.light := rfl
@[simp] theorem Part.withdrawPage_link (p : Part) (g : Nat) : (p.withdrawPage g).link = p.link := rfl

@[simp] theorem Part.clearStore_time (p : Part) : p.clearStore.time = p.time := rfl
@[simp] theorem Part.clearStore_mem (p : Part) : p.clearStore.mem = p.mem := rfl
@[simp] theorem Part.clearStore_bank (p : Part) : p.clearStore.bank = p.bank := rfl
@[simp] theorem Part.clearStore_lang (p : Part) : p.clearStore.lang = p.lang := rfl
@[simp] theorem Part.clearStore_ann (p : Part) : p.clearStore.ann = p.ann := rfl
@[simp] theorem Part.clearStore_strings (p : Part) : p.clearStore.strings = p.strings := rfl
@[simp] theorem Part.clearStore_seats (p : Part) : p.clearStore.seats = p.seats := rfl
@[simp] theorem Part.clearStore_level (p : Part) : p.clearStore.level = p.level := rfl
@[simp] theorem Part.clearStore_supply (p : Part) : p.clearStore.supply = p.supply := rfl
@[simp] theorem Part.clearStore_light (p : Part) : p.clearStore.light = p.light := rfl
@[simp] theorem Part.clearStore_link (p : Part) : p.clearStore.link = p.link := rfl

@[simp] theorem Part.setResetting_time (p : Part) (b : Bool) : (p.setResetting b).time = p.time := rfl
@[simp] theorem Part.setResetting_mem (p : Part) (b : Bool) : (p.setResetting b).mem = p.mem := rfl
@[simp] theorem Part.setResetting_store (p : Part) (b : Bool) : (p.setResetting b).store = p.store := rfl
@[simp] theorem Part.setResetting_bank (p : Part) (b : Bool) : (p.setResetting b).bank = p.bank := rfl
@[simp] theorem Part.setResetting_lang (p : Part) (b : Bool) : (p.setResetting b).lang = p.lang := rfl
@[simp] theorem Part.setResetting_ann (p : Part) (b : Bool) : (p.setResetting b).ann = p.ann := rfl
@[simp] theorem Part.setResetting_strings (p : Part) (b : Bool) : (p.setResetting b).strings = p.strings := rfl
@[simp] theorem Part.setResetting_seats (p : Part) (b : Bool) : (p.setResetting b).seats = p.seats := rfl
@[simp] theorem Part.setResetting_level (p : Part) (b : Bool) : (p.setResetting b).level = p.level := rfl
@[simp] theorem Part.setResetting_supply (p : Part) (b : Bool) : (p.setResetting b).supply = p.supply := rfl
@[simp] theorem Part.setResetting_light (p : Part) (b : Bool) : (p.setResetting b).light = p.light := rfl

@[simp] theorem Part.setEntering_time (p : Part) (b : Bool) : (p.setEntering b).time = p.time := rfl
@[simp] theorem Part.setEntering_mem (p : Part) (b : Bool) : (p.setEntering b).mem = p.mem := rfl
@[simp] theorem Part.setEntering_store (p : Part) (b : Bool) : (p.setEntering b).store = p.store := rfl
@[simp] theorem Part.setEntering_bank (p : Part) (b : Bool) : (p.setEntering b).bank = p.bank := rfl
@[simp] theorem Part.setEntering_lang (p : Part) (b : Bool) : (p.setEntering b).lang = p.lang := rfl
@[simp] theorem Part.setEntering_ann (p : Part) (b : Bool) : (p.setEntering b).ann = p.ann := rfl
@[simp] theorem Part.setEntering_strings (p : Part) (b : Bool) : (p.setEntering b).strings = p.strings := rfl
@[simp] theorem Part.setEntering_seats (p : Part) (b : Bool) : (p.setEntering b).seats = p.seats := rfl
@[simp] theorem Part.setEntering_level (p : Part) (b : Bool) : (p.setEntering b).level = p.level := rfl
@[simp] theorem Part.setEntering_supply (p : Part) (b : Bool) : (p.setEntering b).supply = p.supply := rfl
@[simp] theorem Part.setEntering_light (p : Part) (b : Bool) : (p.setEntering b).light = p.light := rfl

@[simp] theorem Part.clearNotices_time (p : Part) : p.clearNotices.time = p.time := rfl
@[simp] theorem Part.clearNotices_mem (p : Part) : p.clearNotices.mem = p.mem := rfl
@[simp] theorem Part.clearNotices_store (p : Part) : p.clearNotices.store = p.store := rfl
@[simp] theorem Part.clearNotices_bank (p : Part) : p.clearNotices.bank = p.bank := rfl
@[simp] theorem Part.clearNotices_lang (p : Part) : p.clearNotices.lang = p.lang := rfl
@[simp] theorem Part.clearNotices_ann (p : Part) : p.clearNotices.ann = p.ann := rfl
@[simp] theorem Part.clearNotices_strings (p : Part) : p.clearNotices.strings = p.strings := rfl
@[simp] theorem Part.clearNotices_seats (p : Part) : p.clearNotices.seats = p.seats := rfl
@[simp] theorem Part.clearNotices_level (p : Part) : p.clearNotices.level = p.level := rfl
@[simp] theorem Part.clearNotices_supply (p : Part) : p.clearNotices.supply = p.supply := rfl
@[simp] theorem Part.clearNotices_light (p : Part) : p.clearNotices.light = p.light := rfl

@[simp] theorem Part.freeDevice_time (p : Part) : p.freeDevice.time = p.time := rfl
@[simp] theorem Part.freeDevice_store (p : Part) : p.freeDevice.store = p.store := rfl
@[simp] theorem Part.freeDevice_bank (p : Part) : p.freeDevice.bank = p.bank := rfl
@[simp] theorem Part.freeDevice_lang (p : Part) : p.freeDevice.lang = p.lang := rfl
@[simp] theorem Part.freeDevice_ann (p : Part) : p.freeDevice.ann = p.ann := rfl
@[simp] theorem Part.freeDevice_strings (p : Part) : p.freeDevice.strings = p.strings := rfl
@[simp] theorem Part.freeDevice_seats (p : Part) : p.freeDevice.seats = p.seats := rfl
@[simp] theorem Part.freeDevice_level (p : Part) : p.freeDevice.level = p.level := rfl
@[simp] theorem Part.freeDevice_supply (p : Part) : p.freeDevice.supply = p.supply := rfl
@[simp] theorem Part.freeDevice_light (p : Part) : p.freeDevice.light = p.light := rfl
@[simp] theorem Part.freeDevice_link (p : Part) : p.freeDevice.link = p.link := rfl

@[simp] theorem Part.frameError_time (p : Part) (c : ErrorCause) : (p.frameError c).time = p.time := rfl
@[simp] theorem Part.frameError_mem (p : Part) (c : ErrorCause) : (p.frameError c).mem = p.mem := rfl
@[simp] theorem Part.frameError_store (p : Part) (c : ErrorCause) : (p.frameError c).store = p.store := rfl
@[simp] theorem Part.frameError_bank (p : Part) (c : ErrorCause) : (p.frameError c).bank = p.bank := rfl
@[simp] theorem Part.frameError_lang (p : Part) (c : ErrorCause) : (p.frameError c).lang = p.lang := rfl
@[simp] theorem Part.frameError_ann (p : Part) (c : ErrorCause) : (p.frameError c).ann = p.ann := rfl
@[simp] theorem Part.frameError_strings (p : Part) (c : ErrorCause) : (p.frameError c).strings = p.strings := rfl
@[simp] theorem Part.frameError_seats (p : Part) (c : ErrorCause) : (p.frameError c).seats = p.seats := rfl
@[simp] theorem Part.frameError_level (p : Part) (c : ErrorCause) : (p.frameError c).level = p.level := rfl
@[simp] theorem Part.frameError_supply (p : Part) (c : ErrorCause) : (p.frameError c).supply = p.supply := rfl
@[simp] theorem Part.frameError_light (p : Part) (c : ErrorCause) : (p.frameError c).light = p.light := rfl

@[simp] theorem Part.clearErrors_time (p : Part) : p.clearErrors.time = p.time := rfl
@[simp] theorem Part.clearErrors_mem (p : Part) : p.clearErrors.mem = p.mem := rfl
@[simp] theorem Part.clearErrors_store (p : Part) : p.clearErrors.store = p.store := rfl
@[simp] theorem Part.clearErrors_bank (p : Part) : p.clearErrors.bank = p.bank := rfl
@[simp] theorem Part.clearErrors_lang (p : Part) : p.clearErrors.lang = p.lang := rfl
@[simp] theorem Part.clearErrors_ann (p : Part) : p.clearErrors.ann = p.ann := rfl
@[simp] theorem Part.clearErrors_strings (p : Part) : p.clearErrors.strings = p.strings := rfl
@[simp] theorem Part.clearErrors_seats (p : Part) : p.clearErrors.seats = p.seats := rfl
@[simp] theorem Part.clearErrors_level (p : Part) : p.clearErrors.level = p.level := rfl
@[simp] theorem Part.clearErrors_supply (p : Part) : p.clearErrors.supply = p.supply := rfl
@[simp] theorem Part.clearErrors_light (p : Part) : p.clearErrors.light = p.light := rfl

@[simp] theorem Part.syncReceived_time (p : Part) : p.syncReceived.time = p.time := rfl
@[simp] theorem Part.syncReceived_mem (p : Part) : p.syncReceived.mem = p.mem := rfl
@[simp] theorem Part.syncReceived_store (p : Part) : p.syncReceived.store = p.store := rfl
@[simp] theorem Part.syncReceived_bank (p : Part) : p.syncReceived.bank = p.bank := rfl
@[simp] theorem Part.syncReceived_lang (p : Part) : p.syncReceived.lang = p.lang := rfl
@[simp] theorem Part.syncReceived_ann (p : Part) : p.syncReceived.ann = p.ann := rfl
@[simp] theorem Part.syncReceived_strings (p : Part) : p.syncReceived.strings = p.strings := rfl
@[simp] theorem Part.syncReceived_seats (p : Part) : p.syncReceived.seats = p.seats := rfl
@[simp] theorem Part.syncReceived_level (p : Part) : p.syncReceived.level = p.level := rfl
@[simp] theorem Part.syncReceived_supply (p : Part) : p.syncReceived.supply = p.supply := rfl
@[simp] theorem Part.syncReceived_light (p : Part) : p.syncReceived.light = p.light := rfl

@[simp] theorem Part.frameSent_time (p : Part) : p.frameSent.time = p.time := rfl
@[simp] theorem Part.frameSent_mem (p : Part) : p.frameSent.mem = p.mem := rfl
@[simp] theorem Part.frameSent_store (p : Part) : p.frameSent.store = p.store := rfl
@[simp] theorem Part.frameSent_bank (p : Part) : p.frameSent.bank = p.bank := rfl
@[simp] theorem Part.frameSent_lang (p : Part) : p.frameSent.lang = p.lang := rfl
@[simp] theorem Part.frameSent_ann (p : Part) : p.frameSent.ann = p.ann := rfl
@[simp] theorem Part.frameSent_strings (p : Part) : p.frameSent.strings = p.strings := rfl
@[simp] theorem Part.frameSent_seats (p : Part) : p.frameSent.seats = p.seats := rfl
@[simp] theorem Part.frameSent_level (p : Part) : p.frameSent.level = p.level := rfl
@[simp] theorem Part.frameSent_supply (p : Part) : p.frameSent.supply = p.supply := rfl
@[simp] theorem Part.frameSent_light (p : Part) : p.frameSent.light = p.light := rfl

@[simp] theorem Part.resetStrings_time (p : Part) : p.resetStrings.time = p.time := rfl
@[simp] theorem Part.resetStrings_mem (p : Part) : p.resetStrings.mem = p.mem := rfl
@[simp] theorem Part.resetStrings_store (p : Part) : p.resetStrings.store = p.store := rfl
@[simp] theorem Part.resetStrings_bank (p : Part) : p.resetStrings.bank = p.bank := rfl
@[simp] theorem Part.resetStrings_lang (p : Part) : p.resetStrings.lang = p.lang := rfl
@[simp] theorem Part.resetStrings_ann (p : Part) : p.resetStrings.ann = p.ann := rfl
@[simp] theorem Part.resetStrings_level (p : Part) : p.resetStrings.level = p.level := rfl
@[simp] theorem Part.resetStrings_supply (p : Part) : p.resetStrings.supply = p.supply := rfl
@[simp] theorem Part.resetStrings_light (p : Part) : p.resetStrings.light = p.light := rfl
@[simp] theorem Part.resetStrings_link (p : Part) : p.resetStrings.link = p.link := rfl

end Sys2Proof.Machine
end

