-- ==== Sys2Proof/Laws/Ops.lean ====
section
/-! SUPPORT. Laws of the named operations: fixed arrays, sparse tables, clip memory, the Free List's runs,
part time, and what the records of the part read as after they are written. -/

namespace Sys2Proof.Machine

/-! ### Fixed arrays -/

section
variable {α : Type} {n : Nat}

@[simp] theorem vget_vset_same (v : Vector α n) (i : Fin n) (x : α) : vget (vset v i x) i = x := by
  simp [vget, vset]

theorem vget_vset (v : Vector α n) (i j : Fin n) (x : α) :
    vget (vset v i x) j = if j = i then x else vget v j := by
  by_cases h : j = i
  · subst h; simp
  · have : i.val ≠ j.val := fun e => h (Fin.ext e.symm)
    simp [vget, vset, h, Vector.getElem_set_ne _ _ this]

@[simp] theorem vget_vset_ne (v : Vector α n) {i j : Fin n} (x : α) (h : j ≠ i) :
    vget (vset v i x) j = vget v j := by simp [vget_vset, h]

@[simp] theorem vget_vmap (f : Fin n → α → α) (v : Vector α n) (i : Fin n) :
    vget (vmap f v) i = f i (vget v i) := by simp [vget, vmap]

@[simp] theorem vget_replicate (x : α) (i : Fin n) : vget (Vector.replicate n x) i = x := by
  simp [vget]

@[simp] theorem vget_ofFn (f : Fin n → α) (i : Fin n) : vget (Vector.ofFn f) i = f i := by
  simp [vget]

theorem vector_ext {v w : Vector α n} (h : ∀ i, vget v i = vget w i) : v = w :=
  Vector.ext fun i hi => h ⟨i, hi⟩

@[simp] theorem vset_vget (v : Vector α n) (i : Fin n) : vset v i (vget v i) = v := by
  apply vector_ext; intro j; rw [vget_vset]; split <;> simp_all

@[simp] theorem vset_vset (v : Vector α n) (i : Fin n) (x y : α) :
    vset (vset v i x) i y = vset v i y := by
  apply vector_ext; intro j; simp only [vget_vset]; split <;> simp_all

end

/-! ### Sparse tables -/

section
variable {α : Type}

theorem tfind_tput (t : List (Nat × α)) (n m : Nat) (x : α) :
    tfind (tput t n x) m = if m = n then some x else tfind t m := by
  induction t with
  | nil => simp [tput, tfind]
  | cons e t ih =>
    obtain ⟨k, y⟩ := e
    unfold tput
    split
    · simp [tfind]
    · split
      · rename_i h; subst h; simp only [tfind]; split <;> simp_all
      · simp only [tfind, ih]; split <;> simp_all [eq_comm]

theorem tfind_tdel (t : List (Nat × α)) (n m : Nat) :
    tfind (tdel t n) m = if m = n then none else tfind t m := by
  induction t with
  | nil => simp [tdel, tfind]
  | cons e t ih =>
    obtain ⟨k, y⟩ := e
    unfold tdel
    split
    · rename_i h; subst h; rw [ih]; simp only [tfind]; split <;> simp_all
    · simp only [tfind, ih]; split <;> simp_all [eq_comm]

theorem tget_tset [DecidableEq α] (d : α) (t : List (Nat × α)) (n m : Nat) (x : α) :
    tget d (tset d t n x) m = if m = n then x else tget d t m := by
  unfold tget tset
  by_cases h : x = d
  · rw [if_pos h, tfind_tdel]; by_cases hm : m = n <;> simp [hm, h]
  · rw [if_neg h, tfind_tput]; by_cases hm : m = n <;> simp [hm]

/-- The numbers listed are above a bound and rise strictly. -/
def risingFrom : Nat → List (Nat × α) → Prop
  | _, [] => True
  | b, (k, _) :: t => b ≤ k ∧ risingFrom (k + 1) t

theorem tableSorted_cons (k : Nat) (x : α) (t : List (Nat × α)) :
    tableSorted ((k, x) :: t) = true ↔ risingFrom (k + 1) t := by
  induction t generalizing k x with
  | nil => simp [tableSorted, risingFrom]
  | cons e t ih =>
    obtain ⟨k', y⟩ := e
    simp only [tableSorted, Bool.and_eq_true, decide_eq_true_eq, ih, risingFrom]
    exact Iff.rfl

theorem tableSorted_iff (t : List (Nat × α)) : tableSorted t = true ↔ risingFrom 0 t := by
  cases t with
  | nil => simp [tableSorted, risingFrom]
  | cons e t => obtain ⟨k, x⟩ := e; rw [tableSorted_cons]; simp [risingFrom]

theorem risingFrom_mono {a b : Nat} (h : a ≤ b) (t : List (Nat × α)) :
    risingFrom b t → risingFrom a t := by
  cases t with
  | nil => exact id
  | cons e t => intro hb; exact ⟨le_trans h hb.1, hb.2⟩

theorem risingFrom_tput {b : Nat} (t : List (Nat × α)) (n : Nat) (x : α) (hn : b ≤ n)
    (h : risingFrom b t) : risingFrom b (tput t n x) := by
  induction t generalizing b with
  | nil => exact ⟨hn, trivial⟩
  | cons e t ih =>
    obtain ⟨k, y⟩ := e
    unfold tput
    split
    · rename_i hk; exact ⟨hn, hk, h.2⟩
    · split
      · rename_i hk; subst hk; exact ⟨hn, h.2⟩
      · rename_i h1 h2; exact ⟨h.1, ih (by omega) h.2⟩

theorem risingFrom_tdel {b : Nat} (t : List (Nat × α)) (n : Nat) (h : risingFrom b t) :
    risingFrom b (tdel t n) := by
  induction t generalizing b with
  | nil => trivial
  | cons e t ih =>
    obtain ⟨k, y⟩ := e
    unfold tdel
    split
    · exact risingFrom_mono (le_trans h.1 (Nat.le_succ k)) _ (ih h.2)
    · exact ⟨h.1, ih h.2⟩

theorem tableSorted_tput (t : List (Nat × α)) (n : Nat) (x : α) (h : tableSorted t = true) :
    tableSorted (tput t n x) = true := by
  rw [tableSorted_iff] at *; exact risingFrom_tput t n x (Nat.zero_le n) h

theorem tableSorted_tdel (t : List (Nat × α)) (n : Nat) (h : tableSorted t = true) :
    tableSorted (tdel t n) = true := by
  rw [tableSorted_iff] at *; exact risingFrom_tdel t n h

theorem tableSorted_tset [DecidableEq α] (d : α) (t : List (Nat × α)) (n : Nat) (x : α)
    (h : tableSorted t = true) : tableSorted (tset d t n x) = true := by
  unfold tset; split
  · exact tableSorted_tdel t n h
  · exact tableSorted_tput t n x h

end

/-! ### Clip memory -/

theorem all_tput {α : Type} (f : Nat × α → Bool) (t : List (Nat × α)) (n : Nat) (x : α)
    (h : t.all f = true) (hx : f (n, x) = true) : (tput t n x).all f = true := by
  induction t with
  | nil => simp [tput, hx]
  | cons e t ih =>
    obtain ⟨k, y⟩ := e
    simp only [List.all_cons, Bool.and_eq_true] at h
    unfold tput
    split
    · simp [hx, h.1, h.2]
    · split
      · simp [hx, h.2]
      · simp [h.1, ih h.2]

/-- A write keeps the canonical form of clip memory. -/
theorem Memory.wf_write (m : List Host.Cell) (a : Nat) (bytes : Bytes) (h : Memory.wf m = true) :
    Memory.wf (Memory.write m a bytes) = true := by
  induction bytes generalizing m a with
  | nil => exact h
  | cons b bs ih =>
    unfold Memory.write
    apply ih
    split
    · rename_i ha
      simp only [Memory.wf, Bool.and_eq_true] at h ⊢
      exact ⟨tableSorted_tput m a b h.1, all_tput _ m a b h.2 (by simpa using ha)⟩
    · exact h

/-- A byte read after a write: one of the bytes written, or what stood there before. -/
theorem Memory.read_write (m : List Host.Cell) (a : Nat) (bytes : Bytes) (x : Nat) :
    Memory.read (Memory.write m a bytes) x =
      if a ≤ x ∧ x < a + bytes.length ∧ x < Config.pages * Config.pageBytes then
        bytes[x - a]?
      else Memory.read m x := by
  induction bytes generalizing m a with
  | nil =>
    have : ¬ (a ≤ x ∧ x < a + ([] : Bytes).length ∧ x < Config.pages * Config.pageBytes) := by
      simp only [List.length_nil]; omega
    rw [if_neg this]; rfl
  | cons b bs ih =>
    rw [Memory.write, ih, List.length_cons]
    by_cases h1 : a + 1 ≤ x ∧ x < a + 1 + bs.length ∧ x < Config.pages * Config.pageBytes
    · rw [if_pos h1, if_pos (by omega)]
      obtain ⟨k, hk⟩ : ∃ k, x = a + 1 + k := ⟨x - (a + 1), by omega⟩
      subst hk
      rw [show a + 1 + k - (a + 1) = k by omega, show a + 1 + k - a = k + 1 by omega]
      simp
    · rw [if_neg h1]
      by_cases h2 : a ≤ x ∧ x < a + (bs.length + 1) ∧ x < Config.pages * Config.pageBytes
      · have hx : x = a := by omega
        subst hx
        rw [if_pos h2, if_pos h2.2.2, Memory.read, tfind_tput, if_pos rfl]; simp
      · rw [if_neg h2]
        split
        · rename_i ha
          simp only [Memory.read]
          rw [tfind_tput, if_neg]; omega
        · rfl

/-- A read of `n` bytes, byte by byte. -/
theorem Memory.readBytes_ok (m : List Host.Cell) (a n : Nat) (bytes : Bytes)
    (h : Memory.readBytes m a n = .ok bytes) :
    bytes.length = n ∧ ∀ i < n, Memory.read m (a + i) = bytes[i]? := by
  induction n generalizing a bytes with
  | zero => simp only [Memory.readBytes, Except.ok.injEq] at h; subst h; simp
  | succ n ih =>
    unfold Memory.readBytes at h
    split at h
    · cases h
    · rename_i b hb
      split at h
      · cases h
      · rename_i bs hbs
        injection h with h; subst h
        obtain ⟨h1, h2⟩ := ih _ _ hbs
        refine ⟨by simp [h1], fun i hi => ?_⟩
        cases i with
        | zero => simpa using hb
        | succ i =>
          have := h2 i (by omega)
          rw [show a + (i + 1) = a + 1 + i by omega, this]; simp

/-! ### The Free List -/

theorem runsPages_length (l : List PageRun) : (runsPages l).length = runsLength l := by
  induction l with
  | nil => rfl
  | cons r rs ih => simp [runsPages, runsLength, ih]

theorem runsPages_push (l : List PageRun) (p : Nat) :
    runsPages (runsPush l p) = runsPages l ++ [p] := by
  induction l with
  | nil => simp [runsPush, runsPages]
  | cons r rs ih =>
    cases rs with
    | nil =>
      unfold runsPush
      split
      · rename_i h; simp [runsPages, List.range'_concat, h]
      · simp [runsPages]
    | cons r' rs => rw [runsPush, runsPages, ih]; simp [runsPages]

theorem runsPop_none (l : List PageRun) : runsPop l = none ↔ runsPages l = [] := by
  induction l with
  | nil => simp [runsPop, runsPages]
  | cons r rs ih =>
    obtain ⟨s, c⟩ := r
    rcases c with _ | _ | n
    · simpa [runsPop, runsPages] using ih
    · simp [runsPop, runsPages]
    · simp [runsPop, runsPages, List.range'_succ]

theorem runsPop_some (l rest : List PageRun) (p : Nat) (h : runsPop l = some (p, rest)) :
    runsPages l = p :: runsPages rest := by
  induction l with
  | nil => simp [runsPop] at h
  | cons r rs ih =>
    obtain ⟨s, c⟩ := r
    rcases c with _ | _ | n
    · simp only [runsPop] at h; simpa [runsPages] using ih h
    · simp only [runsPop, Option.some.injEq, Prod.mk.injEq] at h
      obtain ⟨rfl, rfl⟩ := h; simp [runsPages]
    · simp only [runsPop, Option.some.injEq, Prod.mk.injEq] at h
      obtain ⟨rfl, rfl⟩ := h; simp [runsPages, List.range'_succ]

/-! ### Records read after a write -/

@[simp] theorem Part.reader_setReader (p : Part) (r : ReaderId) (x : Reader) :
    (p.setReader r x).reader r = x := by simp [Part.reader, Part.setReader]

theorem Part.reader_setReader_ne (p : Part) {r q : ReaderId} (x : Reader) (h : q ≠ r) :
    (p.setReader r x).reader q = p.reader q := by simp [Part.reader, Part.setReader, h]

theorem Part.clip_setClip (p : Part) (c d : ClipId) (x : Clip) :
    (p.setClip c x).clip d = if d = c then x else p.clip d := by
  simp only [Part.clip, Part.setClip, tget_tset, Fin.ext_iff]

@[simp] theorem Part.clip_setClip_same (p : Part) (c : ClipId) (x : Clip) :
    (p.setClip c x).clip c = x := by simp [Part.clip_setClip]

theorem Part.pageEntry_setPage (p : Part) (n m : Nat) (x : PageEntry) :
    (p.setPage n x).pageEntry m = if m = n then x else p.pageEntry m := by
  simp only [Part.pageEntry, Part.setPage, tget_tset]

@[simp] theorem Part.language_setLanguage (p : Part) (l : Lang) (x : Language) :
    (p.setLanguage l x).language l = x := by simp [Part.language, Part.setLanguage]

theorem Part.language_setLanguage_ne (p : Part) {l m : Lang} (x : Language) (h : m ≠ l) :
    (p.setLanguage l x).language m = p.language m := by simp [Part.language, Part.setLanguage, h]

@[simp] theorem Part.seat_setSeat (p : Part) (i : SeatId) (x : Seat) :
    (p.setSeat i x).seat i = x := by simp [Part.seat, Part.setSeat]

theorem Part.seat_setSeat_ne (p : Part) {i j : SeatId} (x : Seat) (h : j ≠ i) :
    (p.setSeat i x).seat j = p.seat j := by simp [Part.seat, Part.setSeat, h]

@[simp] theorem Part.string_setString (p : Part) (i : StringId) (x : StringRec) :
    (p.setString i x).string i = x := by simp [Part.string, Part.setString]

@[simp] theorem Part.zone_setZone (p : Part) (z : ZoneId) (x : Zone) :
    (p.setZone z x).zone z = x := by simp [Part.zone, Part.setZone]

@[simp] theorem Part.setSeat_setSeat (p : Part) (i : SeatId) (x y : Seat) :
    (p.setSeat i x).setSeat i y = p.setSeat i y := by simp [Part.setSeat]

@[simp] theorem Part.setString_setString (p : Part) (i : StringId) (x y : StringRec) :
    (p.setString i x).setString i y = p.setString i y := by simp [Part.setString]

@[simp] theorem Part.setLanguage_setLanguage (p : Part) (l : Lang) (x y : Language) :
    (p.setLanguage l x).setLanguage l y = p.setLanguage l y := by simp [Part.setLanguage]

@[simp] theorem Part.setReader_setReader (p : Part) (r : ReaderId) (x y : Reader) :
    (p.setReader r x).setReader r y = p.setReader r y := by simp [Part.setReader]

@[simp] theorem Part.setZone_setZone (p : Part) (z : ZoneId) (x y : Zone) :
    (p.setZone z x).setZone z y = p.setZone z y := by simp [Part.setZone]

/-! ### Text fields -/

@[simp] theorem eText_length (t : Bytes) : (eText t).length = t.length + 1 := by
  simp [eText, e8]

/-- A text whose value a reply does not have is its length byte alone (assumption 60). -/
@[simp] theorem eNoText_eq : eNoText = [0] := rfl

/-! ### Part time -/

theorem Part.reach_eq (p : Part) (d : PartTime) :
    p.reach d = { p with time := if atOrAfter p.time d then p.time else d } := by
  unfold Part.reach; split <;> rfl

@[simp] theorem atOrAfter_self (t : PartTime) : atOrAfter t t = true := by simp [atOrAfter]

end Sys2Proof.Machine
end

