-- ==== Sys2Proof/Laws/Commands.lean ====
section
/-! SUPPORT. Laws of the shape that commands have: the end of a command, the arrival and the taking of a
request, and what may raise a notice. -/

namespace Sys2Proof.Machine

/-! ### Outcomes and steps -/

theorem step_front (s : State) (c : Instr) (rest : List Instr) (h : s.pending = c :: rest) :
    step s = exec c { s with pending := rest } := by simp [step, h]

theorem step_idle (s : State) (h : s.pending = []) : step s = .next s.idle := by simp [step, h]

/-- A step that answers a next state is an idle step or a command. -/
theorem step_cases (s t : State) (h : step s = .next t) :
    (s.pending = [] ∧ t = s.idle) ∨
      ∃ c rest, s.pending = c :: rest ∧ exec c { s with pending := rest } = .next t := by
  unfold step at h
  split at h
  · rename_i hp; injection h with h; exact .inl ⟨hp, h.symm⟩
  · rename_i c rest hp; exact .inr ⟨c, rest, hp, h⟩

/-! ### The end of a command -/

theorem Part.eq_of_reports (p : Part) (h : p.bank.reports = []) :
    { p with bank := { p.bank with reports := [] } } = p := by
  obtain ⟨time, mem, store, bank, lang, ann, strings, seats, level, supply, light, link⟩ := p
  obtain ⟨readers, routing, on, frame, reports⟩ := bank
  simp only at h; subst h; rfl

@[simp] theorem Part.drain_quiet (n : Nat) (p : Part) (h : p.bank.reports = []) : p.drain n = p := by
  cases n with
  | zero => exact p.eq_of_reports h
  | succ n => simp [Part.drain, h]

/-- No report is left at the end of a command. -/
@[simp] theorem Part.drain_reports (n : Nat) (p : Part) : (p.drain n).bank.reports = [] := by
  induction n generalizing p with
  | zero => rfl
  | succ n ih =>
    unfold Part.drain
    split
    · assumption
    · exact ih _

theorem Part.finish_reports (p : Part) : p.finish.bank.reports = [] := by simp [Part.finish]

theorem Part.finish_quiet (p : Part) (h : p.bank.reports = []) :
    p.finish = { p with link := p.link.pump } := by
  unfold Part.finish; rw [Part.drain_quiet 1024 p h]

@[simp] theorem State.onPart_dram (s : State) (f : Part → Part) : (s.onPart f).dram = s.dram := rfl

@[simp] theorem State.onPart_pending (s : State) (f : Part → Part) :
    (s.onPart f).pending = s.pending := rfl

theorem State.onPart_part (s : State) (f : Part → Part) : (s.onPart f).part = (f s.part).finish := rfl

/-- A command that gives no report to take. -/
theorem State.onPart_quiet (s : State) (f : Part → Part) (h : (f s.part).bank.reports = []) :
    s.onPart f = { s with part := { f s.part with link := (f s.part).link.pump } } := by
  simp only [State.onPart, Part.finish_quiet _ h]

/-! ### Requests -/

/-- An arriving frame changes the link alone. -/
theorem Part.accept_only_link (k tag : Byte) (body : Bytes) (p : Part) :
    p.accept k tag body = { p with link := (p.accept k tag body).link } := by
  unfold Part.accept
  simp only
  split
  · rfl
  · split
    · rfl
    · split
      · rfl
      · split <;> rfl

/-- The taking of a request, its arrival included. -/
theorem Part.request_taken (k : Kind) (tag : Byte) (body : Bytes) (take : Part → Part) (p : Part)
    (h : p.canTake k tag body) :
    p.request k tag body take = take { p with link := p.takenLink k tag body } := by
  obtain ⟨h0, h1⟩ := h
  unfold Part.request Part.takenLink
  unfold Part.offered at h1 ⊢
  rw [if_neg h0]
  by_cases hp : p.link.pendingRequest k tag body = true
  · simp only [hp, if_true] at h1 ⊢; simp [h1]
  · simp only [hp, if_false, Bool.false_eq_true] at h1 ⊢
    rw [if_pos h1]
    congr 1
    rw [Part.accept_only_link]

/-- A request that cannot be taken now arrives and no more. -/
theorem Part.request_waits (k : Kind) (tag : Byte) (body : Bytes) (take : Part → Part) (p : Part)
    (h : p.mem.state ≠ .off) (hn : (p.offered k tag body).next k tag body = false) :
    p.request k tag body take = { p with link := p.offered k tag body } := by
  unfold Part.request
  unfold Part.offered at hn ⊢
  rw [if_neg h]
  by_cases hp : p.link.pendingRequest k tag body = true
  · simp only [hp, if_true] at hn ⊢; simp [hn]
  · simp only [hp, if_false, Bool.false_eq_true] at hn ⊢
    rw [if_neg (by simp [hn])]
    rw [Part.accept_only_link]

/-- A taken request whose meaning gives no report. -/
theorem State.onPart_taken (s : State) (k : Kind) (tag : Byte) (body : Bytes) (take : Part → Part)
    (h : s.part.canTake k tag body)
    (hq : (take { s.part with link := s.part.takenLink k tag body }).bank.reports = []) :
    s.onPart (Part.request k tag body take) =
      { s with
        part :=
          { take { s.part with link := s.part.takenLink k tag body } with
            link :=
              (take { s.part with link := s.part.takenLink k tag body }).link.pump } } := by
  have e := Part.request_taken k tag body take s.part h
  rw [State.onPart_quiet _ _ (by rw [e]; exact hq), e]

/-- A taken request that is answered and changes nothing else. -/
theorem State.onPart_answered (s : State) (k : Kind) (tag : Byte) (body : Bytes) (st : Status)
    (fields : Bytes) (take : Part → Part) (h : s.part.canTake k tag body) (hq : s.quiet)
    (e : take { s.part with link := s.part.takenLink k tag body } =
      Part.answer k tag st fields { s.part with link := s.part.takenLink k tag body }) :
    s.onPart (Part.request k tag body take) =
      { s with part := { s.part with link := s.part.repliedLink k tag body st fields } } := by
  rw [State.onPart_taken _ _ _ _ _ h (by rw [e]; exact hq), e]; rfl

/-! ### Notices -/

/-- A notice changes the link alone. -/
theorem Part.raise_only_link (c : Notice) (p : Part) :
    p.raise c = { p with link := p.link.noted c p.time } := by
  unfold Part.raise Link.noted; split <;> rfl

/-! ### Bounds of the link -/

theorem Link.enter_length (l : Link) (n : QNotice) (h : l.notices.length ≤ 32) :
    (l.enter n).notices.length ≤ 32 := by
  have hm : ∀ (q : List QNotice) (ns : List QNotice), mergeNotice n q = some ns →
      ns.length = q.length := by
    intro q
    induction q with
    | nil => intro ns h; simp [mergeNotice] at h
    | cons x q ih =>
      intro ns h
      unfold mergeNotice at h
      split at h
      · injection h with h; subst h; rfl
      · rw [Option.map_eq_some_iff] at h
        obtain ⟨a, ha, rfl⟩ := h
        simp [ih a ha]
  unfold Link.enter
  split
  · rename_i ns hn; simpa [hm _ _ hn] using h
  · split
    · simp only [List.length_append, List.length_cons, List.length_nil]; omega
    · exact h

end Sys2Proof.Machine
end

