-- ==== Sys2Proof/Laws/Frames.lean ====
section
/-! SUPPORT. What the operations of the readers can do to the part: the relation `ReadersOnly`, that every one of
them keeps it, and what a fetch, a prime and the end of a reader do. -/

namespace Sys2Proof.Machine

/-! ### Notices -/

/-- Only notices have been raised on the link, within the queue's 32 places. -/
structure Link.Noted (l m : Link) : Prop where
  rest : m = { l with notices := m.notices, noticeLost := m.noticeLost }
  bound : l.notices.length ≤ 32 → m.notices.length ≤ 32

theorem Link.Noted.refl (l : Link) : l.Noted l := ⟨rfl, id⟩

theorem Link.Noted.trans {l m n : Link} (h : l.Noted m) (k : m.Noted n) : l.Noted n :=
  ⟨by rw [k.rest, h.rest], fun x => k.bound (h.bound x)⟩

theorem Link.noted_enter (l : Link) (n : QNotice) : l.Noted (l.enter n) := by
  refine ⟨?_, Link.enter_length l n⟩
  unfold Link.enter
  split
  · rfl
  · split <;> rfl

theorem Link.noted_noted (l : Link) (n : Notice) (t : PartTime) : l.Noted (l.noted n t) := by
  unfold Link.noted
  split
  · exact .refl l
  · exact l.noted_enter _

/-! ### The relation -/

/-- The clip record of a reader operation's result: all but the holds stands, unless a RETIRING clip has been
freed (R32, R33). -/
def Clip.Held (x y : Clip) : Prop :=
  y = { x with hold := y.hold } ∨ (x.state = .retiring ∧ y = { Clip.empty with hold := y.hold })

theorem Clip.Held.refl (x : Clip) : x.Held x := .inl rfl

theorem Clip.Held.trans {x y z : Clip} (h : x.Held y) (k : y.Held z) : x.Held z := by
  rcases h with h | ⟨h, h'⟩ <;> rcases k with k | ⟨k, k'⟩
  · left; rw [k, h]
  · right; exact ⟨by rw [h] at k; exact k, k'⟩
  · right; exact ⟨h, by rw [k, h']⟩
  · rw [h'] at k; simp [Clip.empty] at k

theorem Clip.Held.not_retiring {x y : Clip} (h : x.Held y) (hx : x.state ≠ .retiring) :
    y = { x with hold := y.hold } := h.resolve_right fun k => hx k.1

/-- What the operations of readers may do: the readers but their owners, new reports, requests at the arbiter, the
holds of clips with the freeing of RETIRING ones, and notices. -/
structure Part.ReadersOnly (p q : Part) : Prop where
  time : q.time = p.time
  lang : q.lang = p.lang
  ann : q.ann = p.ann
  strings : q.strings = p.strings
  seats : q.seats = p.seats
  level : q.level = p.level
  supply : q.supply = p.supply
  light : q.light = p.light
  mem : q.mem = { p.mem with waiting := q.mem.waiting, device := q.mem.device }
  busy : q.mem.device.busy = p.mem.device.busy
  store : q.store = { p.store with
    clips := q.store.clips, pageMap := q.store.pageMap, freeList := q.store.freeList }
  clips : ∀ c, (p.clip c).Held (q.clip c)
  bank : q.bank = { p.bank with readers := q.bank.readers, reports := q.bank.reports }
  owners : ∀ r, (q.reader r).owner = (p.reader r).owner
  reports : ∃ l, q.bank.reports = p.bank.reports ++ l
  link : p.link.Noted q.link

theorem Part.ReadersOnly.refl (p : Part) : p.ReadersOnly p :=
  ⟨rfl, rfl, rfl, rfl, rfl, rfl, rfl, rfl, rfl, rfl, rfl, fun c => .refl _, rfl, fun _ => rfl,
    ⟨[], by simp⟩, .refl _⟩

theorem Part.ReadersOnly.trans {p q r : Part} (h : p.ReadersOnly q) (k : q.ReadersOnly r) :
    p.ReadersOnly r where
  time := k.time.trans h.time
  lang := k.lang.trans h.lang
  ann := k.ann.trans h.ann
  strings := k.strings.trans h.strings
  seats := k.seats.trans h.seats
  level := k.level.trans h.level
  supply := k.supply.trans h.supply
  light := k.light.trans h.light
  mem := by rw [k.mem, h.mem]
  busy := k.busy.trans h.busy
  store := by rw [k.store, h.store]
  clips c := (h.clips c).trans (k.clips c)
  bank := by rw [k.bank, h.bank]
  owners x := (k.owners x).trans (h.owners x)
  reports := by
    obtain ⟨l, hl⟩ := h.reports
    obtain ⟨m, hm⟩ := k.reports
    exact ⟨l ++ m, by rw [hm, hl, List.append_assoc]⟩
  link := h.link.trans k.link

/-- A fold of operations that keep the relation keeps it. -/
theorem Part.ReadersOnly.foldl {α : Type} (f : Part → α → Part)
    (h : ∀ (p : Part) (x : α), p.ReadersOnly (f p x))
    (l : List α) (p : Part) : p.ReadersOnly (l.foldl f p) := by
  induction l generalizing p with
  | nil => exact .refl p
  | cons x l ih => exact (h p x).trans (ih _)

/-! ### Clips and holds -/

theorem Part.readersOnly_setClip (p : Part) (c : ClipId) (x : Clip) (h : (p.clip c).Held x) :
    p.ReadersOnly (p.setClip c x) :=
  ⟨rfl, rfl, rfl, rfl, rfl, rfl, rfl, rfl, rfl, rfl, rfl,
    fun d => by
      rw [Part.clip_setClip]
      split
      · rename_i hd; subst hd; exact h
      · exact .refl _,
    rfl, fun _ => rfl, ⟨[], by simp⟩, .refl _⟩

theorem Part.readersOnly_raise (p : Part) (n : Notice) : p.ReadersOnly (p.raise n) := by
  rw [Part.raise_only_link]
  exact ⟨rfl, rfl, rfl, rfl, rfl, rfl, rfl, rfl, rfl, rfl, rfl, fun _ => .refl _, rfl,
    fun _ => rfl, ⟨[], by simp⟩, Link.noted_noted _ _ _⟩

theorem Part.readersOnly_freePage (p : Part) (n : Nat) : p.ReadersOnly (p.freePage n) :=
  ⟨rfl, rfl, rfl, rfl, rfl, rfl, rfl, rfl, rfl, rfl, rfl, fun _ => .refl _, rfl, fun _ => rfl,
    ⟨[], by simp [Part.freePage]⟩, .refl _⟩

/-- Freeing pages touches no clip record, appends the pages to the Free List and empties their entries. -/
theorem Part.freePages (pages : List Nat) (p : Part) :
    let q := pages.foldl (fun q n => q.freePage n) p
    runsPages q.store.freeList = runsPages p.store.freeList ++ pages ∧
      (∀ n, q.pageEntry n = if n ∈ pages then PageEntry.empty else p.pageEntry n) ∧
      q = { p with store := { p.store with
        pageMap := q.store.pageMap, freeList := q.store.freeList } } := by
  induction pages generalizing p with
  | nil => simp
  | cons x l ih =>
    obtain ⟨h1, h2, h3⟩ := ih (p.freePage x)
    simp only [List.foldl_cons]
    refine ⟨?_, ?_, ?_⟩
    · rw [h1]
      have : (p.freePage x).store.freeList = runsPush p.store.freeList x := rfl
      rw [this, runsPages_push, List.append_assoc]; rfl
    · intro n
      rw [h2]
      have : (p.freePage x).pageEntry n = (p.setPage x PageEntry.empty).pageEntry n := rfl
      rw [this, Part.pageEntry_setPage]
      by_cases hx : n = x <;> simp [hx]
    · rw [h3]; rfl

/-- R33: the clip's record is empty, its pages stand at the Free List tail, and no other clip is touched. -/
theorem Part.clearClip_spec (c : ClipId) (p : Part) :
    let pages := chainPages p.store.pageMap (p.clip c).pageCount (p.clip c).firstPage
    let q := p.clearClip c
    q.clip c = Clip.empty ∧ (∀ d, d ≠ c → q.clip d = p.clip d) ∧
      runsPages q.store.freeList = runsPages p.store.freeList ++ pages ∧
      (∀ n, q.pageEntry n = if n ∈ pages then PageEntry.empty else p.pageEntry n) ∧
      q = { p with store := { p.store with
        clips := q.store.clips, pageMap := q.store.pageMap, freeList := q.store.freeList } } := by
  obtain ⟨h1, h2, h3⟩ := Part.freePages
    (chainPages p.store.pageMap (p.clip c).pageCount (p.clip c).firstPage) p
  refine ⟨by simp [Part.clearClip], fun d hd => ?_, h1, h2, ?_⟩
  · simp only [Part.clearClip]
    rw [Part.clip_setClip, if_neg hd, h3]; rfl
  · simp only [Part.clearClip, Part.setClip]
    rw [h3]

theorem Part.readersOnly_clearClip (p : Part) (c : ClipId) (h : (p.clip c).Held Clip.empty) :
    p.ReadersOnly (p.clearClip c) := by
  have hf := Part.ReadersOnly.foldl (fun q n => Part.freePage n q) Part.readersOnly_freePage
    (chainPages p.store.pageMap (p.clip c).pageCount (p.clip c).firstPage) p
  refine hf.trans (Part.readersOnly_setClip _ c _ ?_)
  have := (Part.freePages
    (chainPages p.store.pageMap (p.clip c).pageCount (p.clip c).firstPage) p).2.2
  rw [this]; exact h

theorem Part.readersOnly_freeClip (p : Part) (c : ClipId) (h : (p.clip c).Held Clip.empty) :
    p.ReadersOnly (p.freeClip c) := by
  unfold Part.freeClip
  simp only
  split
  · exact (p.readersOnly_clearClip c h).trans (Part.readersOnly_raise _ _)
  · exact p.readersOnly_clearClip c h

theorem Part.readersOnly_addHold (p : Part) (c : ClipId) : p.ReadersOnly (p.addHold c) :=
  p.readersOnly_setClip c _ (.inl rfl)

theorem Part.readersOnly_releaseHold (p : Part) (c : ClipId) : p.ReadersOnly (p.releaseHold c) := by
  unfold Part.releaseHold
  simp only
  have h1 := p.readersOnly_setClip c { p.clip c with hold := (p.clip c).hold - 1 } (.inl rfl)
  split
  · rename_i h
    refine h1.trans (Part.readersOnly_freeClip _ c ?_)
    rw [Part.clip_setClip_same]
    exact .inr ⟨h.1, rfl⟩
  · exact h1

/-- R32, R33: a release counts one hold down, and frees a RETIRING clip whose last hold it was. -/
theorem Part.releaseHold_clip (p : Part) (c : ClipId) :
    ((p.clip c).state ≠ .retiring ∨ 2 ≤ (p.clip c).hold →
      p.releaseHold c = p.setClip c { p.clip c with hold := (p.clip c).hold - 1 }) ∧
    ((p.clip c).state = .retiring → (p.clip c).hold ≤ 1 → (p.releaseHold c).clip c = Clip.empty) ∧
    ∀ d, d ≠ c → (p.releaseHold c).clip d = p.clip d := by
  have hr : ∀ (q : Part) (n : Notice) (d : ClipId), (q.raise n).clip d = q.clip d := by
    intro q n d; rw [Part.raise_only_link]; rfl
  refine ⟨fun h => ?_, fun h1 h2 => ?_, fun d hd => ?_⟩
  · unfold Part.releaseHold
    rw [if_neg]; rintro ⟨h1, h2⟩; rcases h with h | h
    · exact h h1
    · omega
  · unfold Part.releaseHold
    rw [if_pos ⟨h1, h2⟩]
    unfold Part.freeClip
    simp only
    split
    · rw [hr]; exact (Part.clearClip_spec c _).1
    · exact (Part.clearClip_spec c _).1
  · unfold Part.releaseHold
    simp only
    have e : (p.setClip c { p.clip c with hold := (p.clip c).hold - 1 }).clip d = p.clip d := by
      rw [Part.clip_setClip, if_neg hd]
    split
    · unfold Part.freeClip
      simp only
      split
      · rw [hr, (Part.clearClip_spec c _).2.1 d hd, e]
      · rw [(Part.clearClip_spec c _).2.1 d hd, e]
    · exact e

/-! ### Readers -/

theorem Part.readersOnly_setReader (p : Part) (r : ReaderId) (x : Reader)
    (h : x.owner = (p.reader r).owner) : p.ReadersOnly (p.setReader r x) :=
  ⟨rfl, rfl, rfl, rfl, rfl, rfl, rfl, rfl, rfl, rfl, rfl, fun _ => .refl _, rfl,
    fun o => by
      by_cases ho : o = r
      · subst ho; simp [h]
      · rw [Part.reader_setReader_ne _ _ ho],
    ⟨[], by simp [Part.setReader]⟩, .refl _⟩

/-- What a fetch can do: nothing, or a request for the next block with its page found. -/
theorem Part.fetch_cases (r : ReaderId) (p : Part) :
    p.fetch r = p ∨
      ∃ g, p.mem.state = .ready ∧ p.fetch r = { p with
        mem := { p.mem with waiting := vset p.mem.waiting (ringOf r) true }
        bank := { p.bank with
          readers := vset p.bank.readers r
            { p.reader r with page := some g, outstanding := true } } } := by
  unfold Part.fetch
  simp only
  split
  · exact .inl rfl
  · split
    · rename_i h
      split
      · exact .inl rfl
      · rename_i g hg
        exact .inr ⟨g, h.2.2.2.2.2, by simp [Part.placeRequest, Part.setReader, h.2.2.2.2.2]⟩
    · exact .inl rfl

/-- A fetch leaves everything of its reader but the page and the outstanding flag, and the other readers. -/
theorem Part.fetch_reader (r o : ReaderId) (p : Part) :
    (o ≠ r → (p.fetch r).reader o = p.reader o) ∧
      (p.fetch r).reader r = { p.reader r with
        page := ((p.fetch r).reader r).page
        outstanding := ((p.fetch r).reader r).outstanding } := by
  rcases p.fetch_cases r with h | ⟨g, _, h⟩
  · rw [h]; exact ⟨fun _ => rfl, rfl⟩
  · rw [h]
    refine ⟨fun ho => by simp [Part.reader, ho], by simp [Part.reader]⟩

theorem Part.readersOnly_fetch (p : Part) (r : ReaderId) : p.ReadersOnly (p.fetch r) := by
  rcases p.fetch_cases r with h | ⟨g, _, h⟩
  · rw [h]; exact .refl p
  · rw [h]
    exact ⟨rfl, rfl, rfl, rfl, rfl, rfl, rfl, rfl, rfl, rfl, rfl, fun _ => .refl _, rfl,
      fun o => by
        by_cases ho : o = r
        · subst ho; simp [Part.reader]
        · simp [Part.reader, ho],
      ⟨[], by simp⟩, .refl _⟩

/-- What a prime can do: it writes the reader's state, RUNNING when a PRIMING reader is primed (R42). -/
theorem Part.primeReader_spec (r : ReaderId) (p : Part) :
    ∃ st, p.primeReader r = p.setReader r { p.reader r with state := st } ∧
      (∀ c, (p.reader r).clip = some c → (p.reader r).state = .priming →
        (p.reader r).primed (p.clip c) = true → st = .running) ∧
      ((p.reader r).state ≠ .priming → st = (p.reader r).state) := by
  have hid : p.setReader r (p.reader r) = p := by simp [Part.setReader, Part.reader]
  unfold Part.primeReader
  simp only
  split
  · rename_i h
    exact ⟨(p.reader r).state, by simp [hid], by simp [h], fun _ => rfl⟩
  · rename_i c h
    split
    · rename_i h2
      exact ⟨.running, rfl, fun _ _ _ _ => rfl, fun h3 => absurd h2.1 h3⟩
    · rename_i h2
      refine ⟨(p.reader r).state, by simp [hid], fun d hd hs hp => ?_, fun _ => rfl⟩
      rw [h] at hd; injection hd with hd; subst hd
      exact absurd ⟨hs, hp⟩ h2

theorem Part.readersOnly_primeReader (p : Part) (r : ReaderId) : p.ReadersOnly (p.primeReader r) := by
  obtain ⟨st, h, _⟩ := p.primeReader_spec r
  rw [h]; exact p.readersOnly_setReader r _ rfl

theorem Part.readersOnly_withdraw (p : Part) (c : Fin 16) : p.ReadersOnly (p.withdraw c) :=
  ⟨rfl, rfl, rfl, rfl, rfl, rfl, rfl, rfl, rfl,
    by simp only [Part.withdraw]; split <;> simp_all [Device.busy],
    rfl, fun _ => .refl _, rfl, fun _ => rfl, ⟨[], by simp [Part.withdraw]⟩, .refl _⟩

theorem Part.readersOnly_clearReader (p : Part) (r : ReaderId) : p.ReadersOnly (p.clearReader r) :=
  (p.readersOnly_withdraw _).trans (Part.readersOnly_setReader _ r _ rfl)

theorem Part.readersOnly_stopRelease (p : Part) (r : ReaderId) : p.ReadersOnly (p.stopRelease r) := by
  unfold Part.stopRelease
  split
  · exact .refl p
  · exact (p.readersOnly_clearReader r).trans (Part.readersOnly_releaseHold _ _)

theorem Part.readersOnly_report (p : Part) (r : ReaderId) (k : ReportKind) :
    p.ReadersOnly (p.report r k) :=
  ⟨rfl, rfl, rfl, rfl, rfl, rfl, rfl, rfl, rfl, rfl, rfl, fun _ => .refl _, rfl, fun _ => rfl,
    ⟨[_], rfl⟩, .refl _⟩

theorem Part.readersOnly_endReader (p : Part) (r : ReaderId) (k : ReportKind) :
    p.ReadersOnly (p.endReader r k) :=
  (p.readersOnly_stopRelease r).trans (Part.readersOnly_report _ _ _)

theorem Part.readersOnly_setStop (p : Part) (r : ReaderId) (n : Nat) : p.ReadersOnly (p.setStop r n) := by
  unfold Part.setStop
  split
  · exact .refl p
  · exact p.readersOnly_setReader r _ rfl

theorem Part.readersOnly_beginReader (p : Part) (r : ReaderId) (c : ClipId) (n : Nat) :
    p.ReadersOnly (p.beginReader r c n) := by
  unfold Part.beginReader
  simp only
  split
  · refine .trans (Part.readersOnly_setReader p r _ ?_) (Part.readersOnly_endReader _ _ _); rfl
  · split
    · refine .trans (Part.readersOnly_setReader p r _ ?_)
        (Part.readersOnly_setReader _ r { Part.reader _ r with wait := true } ?_) <;> rfl
    · refine .trans (Part.readersOnly_setReader p r _ ?_) (Part.readersOnly_fetch _ _); rfl

theorem Part.readersOnly_startReader (p : Part) (r : ReaderId) (c : ClipId) (n : Nat) (h : HoldKind) :
    p.ReadersOnly (p.startReader r c n h) := by
  unfold Part.startReader
  simp only
  split
  · exact .refl p
  · have h0 := p.readersOnly_stopRelease r
    split
    · cases h
      · exact h0.trans (Part.readersOnly_report _ _ _)
      · exact h0.trans ((Part.readersOnly_releaseHold _ _).trans (Part.readersOnly_report _ _ _))
    · cases h
      · exact h0.trans ((Part.readersOnly_addHold _ _).trans (Part.readersOnly_beginReader _ _ _ _))
      · exact h0.trans (Part.readersOnly_beginReader _ _ _ _)

theorem Part.readersOnly_readerGrown (p : Part) (c : ClipId) (r : ReaderId) :
    p.ReadersOnly (p.readerGrown c r) := by
  unfold Part.readerGrown
  simp only
  split
  · refine .trans (Part.readersOnly_setReader p r _ ?_) (Part.readersOnly_fetch _ _); rfl
  · exact .refl p

theorem Part.readersOnly_readerClosed (p : Part) (c : ClipId) (r : ReaderId) :
    p.ReadersOnly (p.readerClosed c r) := by
  unfold Part.readerClosed
  split
  · split
    · exact p.readersOnly_endReader r _
    · exact (p.readersOnly_readerGrown c r).trans (Part.readersOnly_primeReader _ _)
  · exact .refl p

theorem Part.readersOnly_readerAbandoned (p : Part) (c : ClipId) (r : ReaderId) :
    p.ReadersOnly (p.readerAbandoned c r) := by
  unfold Part.readerAbandoned
  split
  · exact p.readersOnly_endReader r _
  · exact .refl p

theorem Part.readersOnly_eachReader (p : Part) (f : ReaderId → Part → Part)
    (h : ∀ r q, Part.ReadersOnly q (f r q)) : p.ReadersOnly (p.eachReader f) :=
  .foldl _ (fun q r => h r q) _ p

theorem Part.readersOnly_readDone (p : Part) (r : ReaderId) (data : Bytes) :
    p.ReadersOnly (p.readDone r data) := by
  unfold Part.readDone
  refine .trans (Part.readersOnly_setReader p r _ ?_)
    (.trans (Part.readersOnly_primeReader _ _) (Part.readersOnly_fetch _ _))
  rfl

theorem Part.readersOnly_outputSample (p : Part) (r : ReaderId) : p.ReadersOnly (p.outputSample r).2 := by
  unfold Part.outputSample
  simp only
  repeat' split
  all_goals first
    | exact .refl p
    | (refine p.readersOnly_setReader r _ ?_; rfl)
    | (refine .trans (Part.readersOnly_setReader p r _ ?_) (Part.readersOnly_fetch _ _); rfl)

theorem Part.readersOnly_samplePeriod (p : Part) (r : ReaderId) : p.ReadersOnly (p.samplePeriod r).2 := by
  unfold Part.samplePeriod
  simp only
  split
  · exact .refl p
  · split
    · exact p.readersOnly_endReader r _
    · split
      · split
        · exact p.readersOnly_endReader r _
        · exact p.readersOnly_outputSample r
      · exact .refl p

theorem Part.readersOnly_samplePeriods (l : List ReaderId) (p : Part) :
    p.ReadersOnly (Part.samplePeriods l p).2 := by
  induction l generalizing p with
  | nil => exact .refl p
  | cons r l ih => exact (p.readersOnly_samplePeriod r).trans (ih _)

/-- R44, R46, R47: what stopping a reader with release leaves. -/
theorem Part.stopRelease_reader (p : Part) (r : ReaderId) :
    (∀ o, o ≠ r → (p.stopRelease r).reader o = p.reader o) ∧
      (∀ c, (p.reader r).clip = some c →
        (p.stopRelease r).reader r = Reader.idle (p.reader r).owner ∧
          ∀ d, (p.stopRelease r).clip d = ((p.releaseHold c).clip d)) ∧
      ((p.reader r).clip = none → p.stopRelease r = p) := by
  have hb : ∀ (q : Part) (c : ClipId) (o : ReaderId), (q.releaseHold c).reader o = q.reader o := by
    intro q c o
    have hr : ∀ (a : Part) (n : Notice), (a.raise n).bank = a.bank := by
      intro a n; rw [Part.raise_only_link]
    have hc : (q.releaseHold c).bank = q.bank := by
      unfold Part.releaseHold Part.freeClip
      simp only
      split
      · split
        · rw [hr, (Part.clearClip_spec c _).2.2.2.2]; rfl
        · rw [(Part.clearClip_spec c _).2.2.2.2]; rfl
      · rfl
    simp [Part.reader, hc]
  have hs : ∀ (q : Part) (c d : ClipId), q.store = p.store →
      (q.releaseHold c).clip d = (p.releaseHold c).clip d := by
    intro q c d e
    have hcl : ∀ d, q.clip d = p.clip d := fun d => by simp [Part.clip, e]
    by_cases hd : d = c
    · subst hd
      by_cases h : (p.clip d).state = .retiring ∧ (p.clip d).hold ≤ 1
      · rw [(p.releaseHold_clip d).2.1 h.1 h.2,
          (q.releaseHold_clip d).2.1 (by rw [hcl]; exact h.1) (by rw [hcl]; exact h.2)]
      · have h' : (p.clip d).state ≠ .retiring ∨ 2 ≤ (p.clip d).hold := by
          by_cases h1 : (p.clip d).state = .retiring
          · right; exact Nat.lt_of_not_le fun x => h ⟨h1, x⟩
          · left; exact h1
        rw [(p.releaseHold_clip d).1 h', (q.releaseHold_clip d).1 (by rw [hcl]; exact h')]
        simp [hcl]
    · rw [(p.releaseHold_clip c).2.2 d hd, (q.releaseHold_clip c).2.2 d hd, hcl]
  unfold Part.stopRelease
  refine ⟨fun o ho => ?_, fun c hc => ?_, fun h => by rw [h]⟩
  · split
    · rfl
    · rw [hb, Part.clearReader, Part.reader_setReader_ne _ _ ho]; rfl
  · simp only [hc]
    exact ⟨by rw [hb]; simp [Part.clearReader], fun d => hs _ _ _ rfl⟩

end Sys2Proof.Machine
end

