-- ==== Sys2Proof/Laws/Streams.lean ====
section
/-! SUPPORT. What the operations of the Commentary Scheduler can do to the part: the relation `StreamsOnly`, and that
every one of them keeps it. -/

namespace Sys2Proof.Machine

/-- A language's configuration stands: only its audience, stream, play list and resume record differ. -/
def Language.Configured (x y : Language) : Prop :=
  y = { x with
    audience := y.audience, stream := y.stream, current := y.current, waiting := y.waiting
    resume := y.resume }

theorem Language.Configured.refl (x : Language) : x.Configured x := rfl

theorem Language.Configured.trans {x y z : Language} (h : x.Configured y) (k : y.Configured z) :
    x.Configured z := by
  unfold Language.Configured at *; rw [k, h]

/-- What the operations on streams may do: what those of readers may, the readers' owners, the run-time state of
languages and the announcement hold. -/
structure Part.StreamsOnly (p q : Part) : Prop where
  time : q.time = p.time
  ann : q.ann = p.ann
  strings : q.strings = p.strings
  seats : q.seats = p.seats
  level : q.level = p.level
  supply : q.supply = p.supply
  light : q.light = p.light
  mem : q.mem = { p.mem with waiting := q.mem.waiting, device := q.mem.device }
  busy : q.mem.device.busy = p.mem.device.busy
  store : q.store = { p.store with
    clips := q.store.clips, pageMap := q.store.pageMap, freeList := q.store.freeList }
  clips : ∀ c, (p.clip c).Held (q.clip c)
  bank : q.bank = { p.bank with readers := q.bank.readers, reports := q.bank.reports }
  lang : q.lang = { p.lang with langs := q.lang.langs, hold := q.lang.hold }
  langs : ∀ l, (p.language l).Configured (q.language l)
  link : p.link.Noted q.link

theorem Part.StreamsOnly.refl (p : Part) : p.StreamsOnly p :=
  ⟨rfl, rfl, rfl, rfl, rfl, rfl, rfl, rfl, rfl, rfl, fun _ => .refl _, rfl, rfl, fun _ => rfl,
    .refl _⟩

theorem Part.StreamsOnly.trans {p q r : Part} (h : p.StreamsOnly q) (k : q.StreamsOnly r) :
    p.StreamsOnly r where
  time := k.time.trans h.time
  ann := k.ann.trans h.ann
  strings := k.strings.trans h.strings
  seats := k.seats.trans h.seats
  level := k.level.trans h.level
  supply := k.supply.trans h.supply
  light := k.light.trans h.light
  mem := by rw [k.mem, h.mem]
  busy := k.busy.trans h.busy
  store := by rw [k.store, h.store]
  clips c := (h.clips c).trans (k.clips c)
  bank := by rw [k.bank, h.bank]
  lang := by rw [k.lang, h.lang]
  langs l := (h.langs l).trans (k.langs l)
  link := h.link.trans k.link

theorem Part.ReadersOnly.streams {p q : Part} (h : p.ReadersOnly q) : p.StreamsOnly q :=
  ⟨h.time, h.ann, h.strings, h.seats, h.level, h.supply, h.light, h.mem, h.busy, h.store, h.clips,
    h.bank, by rw [h.lang], fun l => by unfold Part.language; rw [h.lang]; exact .refl _, h.link⟩

theorem Part.StreamsOnly.foldl {α : Type} (f : Part → α → Part)
    (h : ∀ (p : Part) (x : α), p.StreamsOnly (f p x)) (l : List α) (p : Part) :
    p.StreamsOnly (l.foldl f p) := by
  induction l generalizing p with
  | nil => exact .refl p
  | cons x l ih => exact (h p x).trans (ih _)

theorem Part.streamsOnly_setLanguage (p : Part) (l : Lang) (x : Language)
    (h : (p.language l).Configured x) : p.StreamsOnly (p.setLanguage l x) :=
  ⟨rfl, rfl, rfl, rfl, rfl, rfl, rfl, rfl, rfl, rfl, fun _ => .refl _, rfl, rfl,
    fun m => by
      by_cases hm : m = l
      · subst hm; simpa using h
      · rw [Part.language_setLanguage_ne _ _ hm]; exact .refl _,
    .refl _⟩

theorem Part.streamsOnly_setReader (p : Part) (r : ReaderId) (x : Reader) :
    p.StreamsOnly (p.setReader r x) :=
  ⟨rfl, rfl, rfl, rfl, rfl, rfl, rfl, rfl, rfl, rfl, fun _ => .refl _, rfl, rfl, fun _ => rfl,
    .refl _⟩

theorem Part.streamsOnly_setOwner (p : Part) (r : ReaderId) (o : Owner) :
    p.StreamsOnly (p.setOwner r o) := p.streamsOnly_setReader r _

theorem Part.streamsOnly_setHold (p : Part) (b : Bool) :
    p.StreamsOnly { p with lang := { p.lang with hold := b } } :=
  ⟨rfl, rfl, rfl, rfl, rfl, rfl, rfl, rfl, rfl, rfl, fun _ => .refl _, rfl, rfl, fun _ => rfl,
    .refl _⟩

theorem Part.streamsOnly_streamNotice (p : Part) (l : Lang) (r : StreamReason) :
    p.StreamsOnly (p.streamNotice l r) := (Part.readersOnly_raise _ _).streams

theorem Part.streamsOnly_stopRelease (p : Part) (r : ReaderId) : p.StreamsOnly (p.stopRelease r) :=
  (p.readersOnly_stopRelease r).streams

theorem Part.streamsOnly_startReader (p : Part) (r : ReaderId) (c : ClipId) (n : Nat) (h : HoldKind) :
    p.StreamsOnly (p.startReader r c n h) := (p.readersOnly_startReader r c n h).streams

theorem Part.streamsOnly_stopChannel (p : Part) (l : Lang) : p.StreamsOnly (p.stopChannel l) := by
  unfold Part.stopChannel
  split
  · exact p.streamsOnly_stopRelease _
  · exact .refl p

theorem Part.streamsOnly_dropResume (p : Part) (l : Lang) : p.StreamsOnly (p.dropResume l) := by
  unfold Part.dropResume
  split
  · exact .refl p
  · refine .trans (Part.streamsOnly_setLanguage p l _ ?_) (Part.readersOnly_releaseHold _ _).streams
    rfl

theorem Part.streamsOnly_startEntry (p : Part) (l : Lang) : p.StreamsOnly (p.startEntry l) := by
  unfold Part.startEntry
  split
  · exact .refl p
  · split
    · refine .trans (Part.streamsOnly_setLanguage p l _ ?_) (Part.streamsOnly_startReader _ _ _ _ _)
      rfl
    · exact .refl p

theorem Part.streamsOnly_playNext (p : Part) (l : Lang) : p.StreamsOnly (p.playNext l) := by
  unfold Part.playNext
  simp only
  split
  · refine p.streamsOnly_setLanguage l _ ?_; rfl
  · refine .trans (Part.streamsOnly_setLanguage p l _ ?_) (Part.streamsOnly_startEntry _ _)
    rfl

theorem Part.streamsOnly_park (p : Part) (l : Lang) : p.StreamsOnly (p.park l) := by
  unfold Part.park
  refine .trans (p.streamsOnly_stopChannel l) (.trans (Part.streamsOnly_dropResume _ l) (.trans
    (Part.streamsOnly_setLanguage _ l _ ?_) (Part.streamsOnly_streamNotice _ _ _)))
  rfl

theorem Part.streamsOnly_unpark (p : Part) (l : Lang) : p.StreamsOnly (p.unpark l) := by
  unfold Part.unpark
  simp only
  split
  · refine .trans (Part.streamsOnly_setLanguage p l _ ?_) (Part.streamsOnly_streamNotice _ _ _); rfl
  · split
    · refine .trans (Part.streamsOnly_setLanguage p l _ ?_) (Part.streamsOnly_streamNotice _ _ _)
      rfl
    · exact .trans (p.streamsOnly_playNext l) (Part.streamsOnly_streamNotice _ _ _)

theorem Part.streamsOnly_join (p : Part) (l : Lang) : p.StreamsOnly (p.join l) := by
  unfold Part.join
  simp only
  split
  · refine .trans (Part.streamsOnly_setLanguage p l _ ?_) (Part.streamsOnly_unpark _ _); rfl
  · refine p.streamsOnly_setLanguage l _ ?_; rfl

theorem Part.streamsOnly_leave (p : Part) (l : Lang) : p.StreamsOnly (p.leave l) := by
  unfold Part.leave
  simp only
  split
  · refine .trans (Part.streamsOnly_setLanguage p l _ ?_) (Part.streamsOnly_park _ _); rfl
  · refine p.streamsOnly_setLanguage l _ ?_; rfl

theorem Part.streamsOnly_move (p : Part) (l m : Lang) : p.StreamsOnly (p.move l m) := by
  unfold Part.move
  split
  · exact .refl p
  · exact (p.streamsOnly_leave l).trans (Part.streamsOnly_join _ m)

theorem Part.streamsOnly_commentaryReport (p : Part) (l : Lang) (k : ReportKind) :
    p.StreamsOnly (p.commentaryReport l k) := by
  unfold Part.commentaryReport
  simp only
  split
  · exact .refl p
  · split
    · have h : p.StreamsOnly (p.setLanguage l { p.language l with current := none }) :=
        p.streamsOnly_setLanguage l _ rfl
      have hn := fun r => h.trans (Part.streamsOnly_streamNotice _ l r)
      split <;> split <;>
        first
          | exact h
          | exact hn _
          | exact h.trans (Part.streamsOnly_playNext _ _)
          | exact (hn _).trans (Part.streamsOnly_playNext _ _)
    · exact .refl p

theorem Part.streamsOnly_endCurrent (p : Part) (l : Lang) : p.StreamsOnly (p.endCurrent l).1 := by
  have hrem : ∀ q : Part, q.StreamsOnly
      ((q.setLanguage l { q.language l with current := none }).streamNotice l .clipCut) := by
    intro q
    refine .trans (Part.streamsOnly_setLanguage q l _ ?_) (Part.streamsOnly_streamNotice _ _ _)
    rfl
  unfold Part.endCurrent
  simp only
  split
  · exact .refl p
  · repeat' split
    all_goals first
      | exact .refl p
      | exact hrem p
      | exact (p.streamsOnly_stopRelease _).trans (hrem _)
      | (refine .trans (p.readersOnly_setStop _ _).streams (.trans
          (Part.streamsOnly_setLanguage _ l _ ?_) (Part.streamsOnly_streamNotice _ _ _))
         unfold Part.language
         rw [(p.readersOnly_setStop _ _).lang]
         rfl)

theorem Part.streamsOnly_goOn (p : Part) (l : Lang) : p.StreamsOnly (p.goOn l) := by
  unfold Part.goOn
  split
  · refine p.streamsOnly_setLanguage l _ ?_; rfl
  · exact p.streamsOnly_playNext l

theorem Part.streamsOnly_placeJump (p : Part) (l : Lang) (e : Entry) : p.StreamsOnly (p.placeJump l e) := by
  unfold Part.placeJump
  simp only
  have h1 : p.StreamsOnly ((p.setLanguage l { p.language l with waiting := [] }).dropResume l) := by
    refine .trans (Part.streamsOnly_setLanguage p l _ ?_) (Part.streamsOnly_dropResume _ l)
    rfl
  have h2 := h1.trans (Part.streamsOnly_endCurrent _ l)
  have h3 := h2.trans (Part.streamsOnly_setLanguage _ l
    { Part.language (Part.endCurrent l ((p.setLanguage l { p.language l with waiting := [] }).dropResume
      l)).1 l with waiting := [e] } rfl)
  split
  · exact h3.trans (Part.streamsOnly_goOn _ _)
  · split
    · exact h3.trans (Part.streamsOnly_playNext _ _)
    · exact h3
  · exact h3

theorem Part.streamsOnly_appendEntry (p : Part) (l : Lang) (e : Entry) :
    p.StreamsOnly (p.appendEntry l e) := by
  unfold Part.appendEntry
  simp only
  split
  · refine .trans (Part.streamsOnly_setLanguage p l _ ?_) (Part.streamsOnly_streamNotice _ _ _); rfl
  · refine p.streamsOnly_setLanguage l _ ?_; rfl

theorem Part.streamsOnly_placeEntry (p : Part) (n : Byte) (l : Lang) :
    p.StreamsOnly (p.placeEntry n l) := by
  unfold Part.placeEntry
  simp only
  repeat' split
  all_goals first
    | exact .refl p
    | exact p.streamsOnly_placeJump l _
    | exact p.streamsOnly_appendEntry l _
    | exact p.streamsOnly_goOn l
    | exact (p.streamsOnly_appendEntry l _).trans (Part.streamsOnly_goOn _ l)
    | (refine p.streamsOnly_setLanguage l _ ?_; rfl)

/-! ### Suspension and resume -/

theorem Part.streamsOnly_eachLanguage (p : Part) (f : Lang → Part → Part)
    (h : ∀ l q, Part.StreamsOnly q (f l q)) : p.StreamsOnly (p.eachLanguage f) :=
  .foldl _ (fun q l => h l q) _ p

theorem Part.streamsOnly_handOver (p : Part) (l : Lang) : p.StreamsOnly (p.handOver l) := by
  unfold Part.handOver
  simp only
  split
  · exact p.streamsOnly_setReader _ _
  · refine .trans (p.readersOnly_clearReader _).streams (.trans
      (Part.streamsOnly_setLanguage _ l _ ?_) (Part.streamsOnly_setReader _ _ _))
    rfl

theorem Part.streamsOnly_suspendStream (p : Part) (l : Lang) : p.StreamsOnly (p.suspendStream l) := by
  unfold Part.suspendStream
  simp only
  repeat' split
  all_goals first
    | exact .refl p
    | (refine p.streamsOnly_setLanguage l _ ?_; rfl)
    | (refine .trans (Part.streamsOnly_setLanguage p l _ ?_) (Part.streamsOnly_streamNotice _ _ _); rfl)

theorem Part.streamsOnly_takeReaders (p : Part) : p.StreamsOnly p.takeReaders := by
  unfold Part.takeReaders
  split
  · exact (p.streamsOnly_setOwner _ _).trans (Part.streamsOnly_setOwner _ _ _)
  · refine Part.StreamsOnly.trans ?_ (Part.streamsOnly_eachLanguage _ _ fun l q =>
      q.streamsOnly_suspendStream l)
    refine Part.StreamsOnly.trans ?_ (Part.streamsOnly_setHold _ true)
    refine Part.StreamsOnly.trans ?_ (Part.streamsOnly_setOwner _ _ _)
    refine Part.StreamsOnly.trans ?_ (Part.streamsOnly_setOwner _ _ _)
    exact Part.streamsOnly_eachLanguage p _ fun l q => q.streamsOnly_handOver l

theorem Part.streamsOnly_handBack (p : Part) : p.StreamsOnly p.handBack := by
  unfold Part.handBack
  refine Part.streamsOnly_eachLanguage p _ fun l q => ?_
  exact (q.streamsOnly_stopRelease (chan l)).trans (Part.streamsOnly_setOwner _ _ _)

theorem Part.streamsOnly_takeUp (p : Part) (l : Lang) : p.StreamsOnly (p.takeUp l) := by
  unfold Part.takeUp
  simp only
  split
  · split
    · rename_i r hr
      have h : p.StreamsOnly ((p.setLanguage l { p.language l with
          stream := .playing
          current := (p.language l).current.map fun e => { e with started := true }
          resume := none }).startReader (chan l) r.clip r.sample .transfer) := by
        refine .trans (Part.streamsOnly_setLanguage p l _ ?_) (Part.streamsOnly_startReader _ _ _ _ _)
        rfl
      split
      · exact h.trans (.trans (Part.readersOnly_setStop _ _ _).streams
          (Part.streamsOnly_streamNotice _ _ _))
      · exact h.trans (Part.streamsOnly_streamNotice _ _ _)
    · exact (p.streamsOnly_playNext l).trans (Part.streamsOnly_streamNotice _ _ _)
  · exact .refl p

theorem Part.streamsOnly_resumeSignal (p : Part) : p.StreamsOnly p.resumeSignal :=
  (p.streamsOnly_setHold false).trans
    (Part.streamsOnly_eachLanguage _ _ fun l q => q.streamsOnly_takeUp l)

end Sys2Proof.Machine
end

