-- ==== Sys2Proof/Laws/Announces.lean ====
section
/-! SUPPORT. What the operations of the Announcement Controller and the taking of reader reports can do to the part:
the relation `AnnouncesOnly`, that every one of them keeps it, and that DECK-ALERT is right after each. -/

namespace Sys2Proof.Machine

/-! ### Gain codes -/

theorem gainCode_inRange (sum cap : Int) (shed : Nat) (h : cap ≤ 12) :
    (gainCode sum cap shed).inRange = true := by
  simp only [gainCode, GainCode.inRange, decide_eq_true_eq]; omega

theorem seatCode_inRange (l : LevelUnit) (volume : Nat) (trim : Int) (h : l.cap ≤ 12) :
    (seatCode l volume trim).inRange = true := by
  unfold seatCode
  split
  · rfl
  · exact gainCode_inRange _ _ _ h

theorem paCodeNow_inRange (l : LevelUnit) (h : l.paCap ≤ 12) : l.paCodeNow.inRange = true := by
  unfold LevelUnit.paCodeNow
  split
  · rfl
  · exact gainCode_inRange _ _ _ h

theorem Seat.recompute_inRange (s : Seat) (l : LevelUnit) (trim : Int) (h : l.cap ≤ 12) :
    (s.recompute l trim).pending.inRange = true := by
  unfold Seat.recompute
  simp only
  split
  · exact seatCode_inRange _ _ _ h
  · rfl

/-! ### Zones -/

/-- A zone's configuration, fault and averages stand. -/
def Zone.Configured (x y : Zone) : Prop :=
  y = { x with target := y.target, level := y.level, stepDue := y.stepDue, halves := y.halves, leftAt := y.leftAt }

theorem Zone.Configured.refl (x : Zone) : x.Configured x := rfl

theorem Zone.Configured.trans {x y z : Zone} (h : x.Configured y) (k : y.Configured z) :
    x.Configured z := by
  unfold Zone.Configured at *; rw [k, h]

theorem Zone.Configured.effective {x y : Zone} (h : x.Configured y) (s : Shed) (b : Nat) :
    y.effective s b = x.effective s b := by
  rw [h]; rfl

/-- A fade toward a target leaves the configuration alone and sets the target. -/
theorem Zone.startFade_spec (z : Zone) (now : PartTime) (n t : Nat) :
    z.Configured (z.startFade now n t) ∧ (z.startFade now n t).target = t ∧
      (z.startFade now n t).halves = z.halves := ⟨rfl, rfl, rfl⟩

/-- A retargeting leaves the configuration alone and sets the target. -/
theorem Zone.retarget_spec (z : Zone) (now : PartTime) (n : Nat) (how : Follow) (t : Nat) :
    z.Configured (z.retarget now n how t) ∧ (z.retarget now n how t).target = t ∧
      (z.retarget now n how t).halves = z.halves := by
  unfold Zone.retarget
  split
  · rename_i h
    exact ⟨rfl, h.symm, rfl⟩
  · split
    · exact ⟨rfl, rfl, rfl⟩
    · exact z.startFade_spec now n t

/-- The effective level of a zone after the run-time fields of zones have changed but for its flash halves. -/
theorem Light.effective_configured (l : Light) (zones : Vector Zone 8) (z : ZoneId)
    (h : (vget l.zones z).Configured (vget zones z))
    (hh : (vget zones z).halves = (vget l.zones z).halves) :
    Light.effective { l with zones := zones } z = l.effective z := by
  unfold Light.effective
  rw [h.effective]
  congr 1
  unfold Light.base
  simp only [hh]

/-- What retargeting every zone does. -/
theorem Light.retargetAll_spec (l : Light) (now : PartTime) (how : Follow) :
    l.retargetAll now how = { l with zones := (l.retargetAll now how).zones } ∧
      ∀ z, (vget l.zones z).Configured (vget (l.retargetAll now how).zones z) ∧
        (vget (l.retargetAll now how).zones z).halves = (vget l.zones z).halves ∧
        (vget (l.retargetAll now how).zones z).target = (l.retargetAll now how).effective z := by
  refine ⟨rfl, fun z => ?_⟩
  have hv : vget (l.retargetAll now how).zones z =
      (vget l.zones z).retarget now l.stepInterval how (l.effective z) := by
    simp [Light.retargetAll]
  obtain ⟨h1, h2, h3⟩ := (vget l.zones z).retarget_spec now l.stepInterval how (l.effective z)
  refine ⟨by rw [hv]; exact h1, by rw [hv]; exact h3, ?_⟩
  have he := l.effective_configured (l.retargetAll now how).zones z (by rw [hv]; exact h1)
    (by rw [hv]; exact h3)
  rw [hv, h2]
  exact he.symm

/-! ### The relation -/

/-- What announcements may do: what streams may, the queue, the Playing Record, the last ending and DECK-ALERT, the
readers' routing, what the Level Unit is told, pending codes, the active cue and the zones' targets and levels. Codes
stay in range and targets effective. -/
structure Part.AnnouncesOnly (p q : Part) : Prop where
  time : q.time = p.time
  ann : q.ann = { p.ann with
    queue := q.ann.queue, playing := q.ann.playing, last := q.ann.last
    deckAlert := q.ann.deckAlert }
  strings : q.strings = p.strings
  seats : ∀ i, q.seat i = { p.seat i with pending := (q.seat i).pending }
  level : q.level = { p.level with
    cls := q.level.cls, phase := q.level.phase, lift := q.level.lift, paCode := q.level.paCode }
  supply : q.supply = p.supply
  light : q.light = { p.light with zones := q.light.zones, activeCue := q.light.activeCue }
  zones : ∀ z, (p.zone z).Configured (q.zone z)
  mem : q.mem = { p.mem with waiting := q.mem.waiting, device := q.mem.device }
  busy : q.mem.device.busy = p.mem.device.busy
  store : q.store = { p.store with
    clips := q.store.clips, pageMap := q.store.pageMap, freeList := q.store.freeList }
  clips : ∀ c, (p.clip c).Held (q.clip c)
  bank : q.bank = { p.bank with
    readers := q.bank.readers, reports := q.bank.reports, chimeRouting := q.bank.chimeRouting }
  lang : q.lang = { p.lang with langs := q.lang.langs, hold := q.lang.hold }
  langs : ∀ l, (p.language l).Configured (q.language l)
  link : p.link.Noted q.link
  codes : p.codesInRange → q.codesInRange
  targets : p.targetsRight → q.targetsRight

theorem Part.codesInRange_congr {p q : Part} (hl : q.level = p.level) (hs : q.seats = p.seats)
    (ht : q.strings = p.strings) (h : p.codesInRange) : q.codesInRange := by
  unfold Part.codesInRange Part.seat Part.string at *
  rw [hl, hs, ht]; exact h

/-- The codes of a part with the same four limits, carried and acknowledged codes and polls. -/
theorem Part.codesInRange_of {p q : Part} (h : p.codesInRange) (h1 : q.level.cap = p.level.cap)
    (h2 : q.level.safetyFloor = p.level.safetyFloor) (h3 : q.level.paBase = p.level.paBase)
    (h4 : q.level.paCap = p.level.paCap) (pa : q.level.paCode.inRange = true)
    (seats : ∀ i, (q.seat i).pending.inRange = true ∧
      (q.seat i).acknowledged = (p.seat i).acknowledged ∧ (q.seat i).carried = (p.seat i).carried)
    (strings : q.strings = p.strings) : q.codesInRange := by
  obtain ⟨a, b, c, d⟩ := h
  refine ⟨?_, pa, fun i => ?_, fun i => ?_⟩
  · unfold LevelUnit.limitsInRange at *
    rw [h1, h2, h3, h4]; exact a
  · obtain ⟨e, f, g⟩ := seats i
    rw [f, g]; exact ⟨e, (c i).2⟩
  · have := d i
    unfold Part.string at *
    rw [strings]; exact this

theorem Part.targetsRight_congr {p q : Part} (hl : q.light = p.light) (h : p.targetsRight) :
    q.targetsRight := by
  unfold Part.targetsRight Part.zone at *
  rw [hl]; exact h

theorem Part.StreamsOnly.announces {p q : Part} (h : p.StreamsOnly q) : p.AnnouncesOnly q :=
  ⟨h.time, by rw [h.ann], h.strings, fun i => by unfold Part.seat; rw [h.seats], by rw [h.level],
    h.supply, by rw [h.light], fun z => by unfold Part.zone; rw [h.light]; exact .refl _, h.mem,
    h.busy, h.store, h.clips, by rw [h.bank], h.lang, h.langs, h.link,
    Part.codesInRange_congr h.level h.seats h.strings, Part.targetsRight_congr h.light⟩

theorem Part.AnnouncesOnly.refl (p : Part) : p.AnnouncesOnly p := (Part.StreamsOnly.refl p).announces

theorem Part.AnnouncesOnly.trans {p q r : Part} (h : p.AnnouncesOnly q) (k : q.AnnouncesOnly r) :
    p.AnnouncesOnly r where
  time := k.time.trans h.time
  ann := by rw [k.ann, h.ann]
  strings := k.strings.trans h.strings
  seats i := by rw [k.seats i, h.seats i]
  level := by rw [k.level, h.level]
  supply := k.supply.trans h.supply
  light := by rw [k.light, h.light]
  zones z := (h.zones z).trans (k.zones z)
  mem := by rw [k.mem, h.mem]
  busy := k.busy.trans h.busy
  store := by rw [k.store, h.store]
  clips c := (h.clips c).trans (k.clips c)
  bank := by rw [k.bank, h.bank]
  lang := by rw [k.lang, h.lang]
  langs l := (h.langs l).trans (k.langs l)
  link := h.link.trans k.link
  codes x := k.codes (h.codes x)
  targets x := k.targets (h.targets x)

theorem Part.AnnouncesOnly.foldl {α : Type} (f : Part → α → Part)
    (h : ∀ (p : Part) (x : α), p.AnnouncesOnly (f p x)) (l : List α) (p : Part) :
    p.AnnouncesOnly (l.foldl f p) := by
  induction l generalizing p with
  | nil => exact .refl p
  | cons x l ih => exact (h p x).trans (ih _)

/-- An operation that writes only what DECK-ALERT, the queue and the Playing Record hold. -/
theorem Part.announcesOnly_ann (p : Part) (a : Announcer)
    (h : a = { p.ann with
      queue := a.queue, playing := a.playing, last := a.last, deckAlert := a.deckAlert }) :
    p.AnnouncesOnly { p with ann := a } :=
  ⟨rfl, h, rfl, fun _ => rfl, rfl, rfl, rfl, fun _ => rfl, rfl, rfl, rfl, fun _ => .refl _, rfl, rfl,
    fun _ => rfl, .refl _, id, id⟩

theorem Part.announcesOnly_judgeAlert (p : Part) : p.AnnouncesOnly p.judgeAlert :=
  p.announcesOnly_ann _ rfl

theorem Part.announcesOnly_setPlaying (p : Part) (r : Option Playing) :
    p.AnnouncesOnly (p.setPlaying r) := p.announcesOnly_ann _ rfl

theorem Part.announcesOnly_setQueue (p : Part) (q : List QEntry) : p.AnnouncesOnly (p.setQueue q) :=
  p.announcesOnly_ann _ rfl

theorem Part.announcesOnly_setRouting (p : Part) (b : Bool) : p.AnnouncesOnly (p.setRouting b) :=
  ⟨rfl, rfl, rfl, fun _ => rfl, rfl, rfl, rfl, fun _ => rfl, rfl, rfl, rfl, fun _ => .refl _, rfl, rfl,
    fun _ => rfl, .refl _, id, id⟩

theorem Part.announcesOnly_annNotice (p : Part) (i : SetId) (e : AnnEvent) (r : Option AnnReason) :
    p.AnnouncesOnly (p.annNotice i e r) := by
  have h := (p.readersOnly_raise (.announce i e r)).streams.announces
  unfold Part.annNotice
  simp only
  split
  · exact h
  · exact h.trans (Part.announcesOnly_ann _ _ rfl)
  · exact h.trans (Part.announcesOnly_ann _ _ rfl)
  · exact h.trans (Part.announcesOnly_ann _ _ rfl)

/-! ### What the Level Unit is told -/

/-- An operation that writes pending codes, in range. -/
theorem Part.announcesOnly_seats (p : Part) (v : Vector Seat 96)
    (h : ∀ i, vget v i = { p.seat i with pending := (vget v i).pending })
    (hc : p.codesInRange → ∀ i, (vget v i).pending.inRange = true) :
    p.AnnouncesOnly { p with seats := v } where
  time := rfl
  ann := rfl
  strings := rfl
  seats := h
  level := rfl
  supply := rfl
  light := rfl
  zones _ := rfl
  mem := rfl
  busy := rfl
  store := rfl
  clips _ := .refl _
  bank := rfl
  lang := rfl
  langs _ := rfl
  link := .refl _
  codes k := Part.codesInRange_of k rfl rfl rfl rfl k.2.1
    (fun i => ⟨hc k i, by
      show (vget v i).acknowledged = _
      rw [h i], by
      show (vget v i).carried = _
      rw [h i]⟩) rfl
  targets k := Part.targetsRight_congr rfl k

theorem Part.announcesOnly_recomputeSeats (p : Part) : p.AnnouncesOnly p.recomputeSeats :=
  p.announcesOnly_seats _ (fun i => by rw [vget_vmap]; rfl)
    fun h i => by rw [vget_vmap]; exact Seat.recompute_inRange _ _ _ h.1.1.2

/-- An operation that writes what the Level Unit is told, or the PA code with a code in range. -/
theorem Part.announcesOnly_level (p : Part) (l : LevelUnit)
    (h : l = { p.level with cls := l.cls, phase := l.phase, lift := l.lift, paCode := l.paCode })
    (hc : p.codesInRange → l.paCode.inRange = true) : p.AnnouncesOnly { p with level := l } where
  time := rfl
  ann := rfl
  strings := rfl
  seats _ := rfl
  level := h
  supply := rfl
  light := rfl
  zones _ := rfl
  mem := rfl
  busy := rfl
  store := rfl
  clips _ := .refl _
  bank := rfl
  lang := rfl
  langs _ := rfl
  link := .refl _
  codes k := Part.codesInRange_of k (by show l.cap = _; rw [h]) (by show l.safetyFloor = _; rw [h])
    (by show l.paBase = _; rw [h]) (by show l.paCap = _; rw [h]) (hc k)
    (fun i => ⟨(k.2.2.1 i).1, rfl, rfl⟩) rfl
  targets k := Part.targetsRight_congr rfl k

theorem Part.announcesOnly_recomputePa (p : Part) : p.AnnouncesOnly p.recomputePa :=
  p.announcesOnly_level _ rfl fun h => paCodeNow_inRange _ h.1.2.2.2.2

theorem Part.announcesOnly_tellLevel (p : Part) (c : Option SetClass) (f : Option Phase) (n : Nat) :
    p.AnnouncesOnly (p.tellLevel c f n) := by
  have h := p.announcesOnly_level { p.level with cls := c, phase := f, lift := n } rfl fun h => h.2.1
  unfold Part.tellLevel
  extract_lets old q r
  have hr : p.AnnouncesOnly r := by
    unfold r
    split
    · exact h.trans (Part.announcesOnly_recomputeSeats q)
    · exact h
  split
  · exact hr.trans (Part.announcesOnly_recomputePa r)
  · exact hr

theorem Part.announcesOnly_tellPlaying (p : Part) : p.AnnouncesOnly p.tellPlaying := by
  unfold Part.tellPlaying
  split
  · exact p.announcesOnly_tellLevel _ _ _
  · exact p.announcesOnly_tellLevel _ _ _

/-! ### Light cues -/

theorem Part.announcesOnly_cue (p : Part) (a : Option (Fin 16 × PartTime)) (how : Follow) :
    p.AnnouncesOnly { p with
      light := Light.retargetAll
        { p.light with
          activeCue := a, zones := vmap (fun _ x => { x with halves := 0 }) p.light.zones }
        p.time how } := by
  obtain ⟨h1, h2⟩ := Light.retargetAll_spec
    { p.light with activeCue := a, zones := vmap (fun _ x => { x with halves := 0 }) p.light.zones }
    p.time how
  exact ⟨rfl, rfl, rfl, fun _ => rfl, rfl, rfl, rfl,
    fun z => by
      refine .trans ?_ (h2 z).1
      simp only [vget_vmap]; rfl,
    rfl, rfl, rfl, fun _ => .refl _, rfl, rfl, fun _ => rfl, .refl _, id, fun _ z => (h2 z).2.2⟩

theorem Part.announcesOnly_beginCue (p : Part) (c : Fin 16) : p.AnnouncesOnly (p.beginCue c) :=
  p.announcesOnly_cue _ _

theorem Part.announcesOnly_endCue (p : Part) : p.AnnouncesOnly p.endCue := by
  unfold Part.endCue Light.endCue
  split
  · exact .refl p
  · exact p.announcesOnly_cue _ _

/-! ### Repetitions, starts and ends -/

theorem Part.announcesOnly_setOwner (p : Part) (r : ReaderId) (o : Owner) :
    p.AnnouncesOnly (p.setOwner r o) := (p.streamsOnly_setOwner r o).announces

theorem Part.announcesOnly_startReader (p : Part) (r : ReaderId) (c : ClipId) (n : Nat)
    (h : HoldKind) : p.AnnouncesOnly (p.startReader r c n h) :=
  (p.streamsOnly_startReader r c n h).announces

theorem Part.announcesOnly_startRepetition (p : Part) : p.AnnouncesOnly p.startRepetition := by
  unfold Part.startRepetition
  split
  · exact .refl p
  · refine Part.AnnouncesOnly.trans ?_ (Part.announcesOnly_startReader _ _ _ _ _)
    refine Part.AnnouncesOnly.trans ?_
      (Part.AnnouncesOnly.foldl _ (fun q l => q.announcesOnly_startReader _ _ _ _) _ _)
    exact p.announcesOnly_setPlaying _

theorem Part.announcesOnly_dropPaOwners (p : Part) : p.AnnouncesOnly p.dropPaOwners :=
  (p.announcesOnly_setOwner _ _).trans (Part.announcesOnly_setOwner _ _ _)

theorem Part.announcesOnly_closeTail (p : Part) (r : Playing) : p.AnnouncesOnly (p.closeTail r) := by
  unfold Part.closeTail
  refine Part.AnnouncesOnly.trans ?_ (Part.announcesOnly_setPlaying _ _)
  refine Part.AnnouncesOnly.trans ?_ (Part.announcesOnly_annNotice _ _ _ _)
  exact p.announcesOnly_endCue.trans (Part.announcesOnly_dropPaOwners _)

/-- What the start of the head entry does before DECK-ALERT is judged. -/
theorem Part.announcesOnly_startHead (p : Part) (e : QEntry) (rest : List QEntry) :
    p.AnnouncesOnly (p.startHead e rest) := by
  unfold Part.startHead
  simp only
  refine Part.AnnouncesOnly.trans ?_ (Part.announcesOnly_judgeAlert _)
  have hc : ∀ (q r : Part) (c : Option (Fin 16)), q.AnnouncesOnly r →
      q.AnnouncesOnly (match c with | some c => r.beginCue c | none => r) := by
    intro q r c h
    cases c with
    | none => exact h
    | some c => exact h.trans (Part.announcesOnly_beginCue _ _)
  apply hc
  refine Part.AnnouncesOnly.trans ?_ (Part.announcesOnly_tellPlaying _)
  have hs : ∀ (q r : Part) (c : Option ClipId), q.AnnouncesOnly r →
      q.AnnouncesOnly (match c with
        | some c => (r.setRouting true).startReader 13 c 0 .take
        | none => r.startRepetition) := by
    intro q r c h
    cases c with
    | none => exact h.trans (Part.announcesOnly_startRepetition _)
    | some c =>
      exact h.trans (.trans (Part.announcesOnly_setRouting _ _)
        (Part.announcesOnly_startReader _ _ _ _ _))
  apply hs
  refine Part.AnnouncesOnly.trans ?_ (Part.streamsOnly_takeReaders _).announces
  refine Part.AnnouncesOnly.trans ?_ (Part.announcesOnly_annNotice _ _ _ _)
  refine Part.AnnouncesOnly.trans ?_ (Part.announcesOnly_setPlaying _ _)
  refine Part.AnnouncesOnly.trans ?_ (Part.announcesOnly_setQueue _ _)
  cases p.ann.playing with
  | none => exact .refl p
  | some r => exact p.announcesOnly_closeTail r

theorem Part.announcesOnly_offerStart (p : Part) : p.AnnouncesOnly p.offerStart := by
  unfold Part.offerStart
  split
  · exact .refl p
  · split
    · split
      · exact p.announcesOnly_startHead _ _
      · split
        · exact p.announcesOnly_startHead _ _
        · exact .refl p
    · exact .refl p

theorem Part.announcesOnly_endTail (p : Part) (r : Playing) : p.AnnouncesOnly (p.endTail r) := by
  unfold Part.endTail
  refine Part.AnnouncesOnly.trans ?_ (Part.announcesOnly_judgeAlert _)
  refine Part.AnnouncesOnly.trans ?_ (Part.announcesOnly_offerStart _)
  exact (p.announcesOnly_closeTail r).trans (Part.announcesOnly_tellPlaying _)

theorem Part.announcesOnly_beginTail (p : Part) (r : Playing) : p.AnnouncesOnly (p.beginTail r) := by
  have h : ∀ x, p.AnnouncesOnly
      (((((p.handBack).resumeSignal).setPlaying (some x)).tellPlaying).judgeAlert) := by
    intro x
    refine Part.AnnouncesOnly.trans ?_ (Part.announcesOnly_judgeAlert _)
    refine Part.AnnouncesOnly.trans ?_ (Part.announcesOnly_tellPlaying _)
    refine Part.AnnouncesOnly.trans ?_ (Part.announcesOnly_setPlaying _ _)
    exact (p.streamsOnly_handBack.trans (Part.streamsOnly_resumeSignal _)).announces
  unfold Part.beginTail
  simp only
  split
  · exact (h _).trans (Part.announcesOnly_endTail _ _)
  · exact (h _).trans (Part.announcesOnly_offerStart _)

theorem Part.announcesOnly_endRepetition (p : Part) : p.AnnouncesOnly p.endRepetition := by
  unfold Part.endRepetition
  split
  · exact .refl p
  · split
    · split
      · exact (p.announcesOnly_setPlaying _).trans (Part.announcesOnly_startRepetition _)
      · exact p.announcesOnly_beginTail _
    · exact .refl p

theorem Part.announcesOnly_announcementReport (p : Part) (r : ReaderId) :
    p.AnnouncesOnly (p.announcementReport r) := by
  unfold Part.announcementReport
  split
  · exact .refl p
  · split
    · split
      · refine Part.AnnouncesOnly.trans ?_ (Part.announcesOnly_startRepetition _)
        refine Part.AnnouncesOnly.trans ?_ (Part.announcesOnly_tellPlaying _)
        exact (p.announcesOnly_setRouting _).trans (Part.announcesOnly_setPlaying _ _)
      · exact .refl p
    · split
      · exact (p.announcesOnly_setPlaying _).trans (Part.announcesOnly_endRepetition _)
      · exact (p.announcesOnly_setPlaying _).trans (Part.announcesOnly_endRepetition _)
    · exact .refl p

theorem Part.announcesOnly_languageDisabled (p : Part) (l : Lang) :
    p.AnnouncesOnly (p.languageDisabled l) := by
  unfold Part.languageDisabled
  split
  · exact .refl p
  · split
    · refine Part.AnnouncesOnly.trans ?_ (Part.announcesOnly_endRepetition _)
      exact (p.streamsOnly_stopRelease _).announces.trans (Part.announcesOnly_setPlaying _ _)
    · exact .refl p

/-! ### Reader reports -/

theorem Part.announcesOnly_takeReport (p : Part) (x : Report) : p.AnnouncesOnly (p.takeReport x) := by
  unfold Part.takeReport
  split
  · split
    · exact (p.streamsOnly_commentaryReport _ _).announces
    · exact .refl p
  · exact p.announcesOnly_announcementReport _
  · exact .refl p

theorem Part.announcesOnly_setReports (p : Part) (l : List Report) :
    p.AnnouncesOnly { p with bank := { p.bank with reports := l } } :=
  ⟨rfl, rfl, rfl, fun _ => rfl, rfl, rfl, rfl, fun _ => rfl, rfl, rfl, rfl, fun _ => .refl _, rfl, rfl,
    fun _ => rfl, .refl _, id, id⟩

/-- The taking of the waiting reports at the end of a command. -/
theorem Part.announcesOnly_drain (n : Nat) (p : Part) : p.AnnouncesOnly (p.drain n) := by
  induction n generalizing p with
  | zero => exact p.announcesOnly_setReports []
  | succ n ih =>
    unfold Part.drain
    split
    · exact .refl p
    · exact .trans (p.announcesOnly_setReports _) (.trans (Part.announcesOnly_takeReport _ _) (ih _))

/-! ### Queue rules -/

theorem Part.announcesOnly_reinsert (p : Part) (e : QEntry) : p.AnnouncesOnly (p.reinsert e) := by
  have h : ∀ b : Bool, p.AnnouncesOnly
      (if b = true then p.annNotice e.set .dropped (some .expired)
      else if p.ann.queue.length < 8 then p.setQueue (behindSafety e p.ann.queue)
      else
        match makeRoom .stop p.ann.queue with
        | some (x, rest) =>
          (p.annNotice x.set .dropped (some .displaced)).setQueue (behindSafety e rest)
        | none => p.annNotice e.set .dropped (some .displaced)) := by
    intro b
    split
    · exact p.announcesOnly_annNotice _ _ _
    · split
      · exact p.announcesOnly_setQueue _
      · split
        · exact (p.announcesOnly_annNotice _ _ _).trans (Part.announcesOnly_setQueue _ _)
        · exact p.announcesOnly_annNotice _ _ _
  exact h _

theorem Part.announcesOnly_stopAnnouncementReaders (p : Part) :
    p.AnnouncesOnly p.stopAnnouncementReaders := by
  unfold Part.stopAnnouncementReaders Part.eachReader
  refine Part.AnnouncesOnly.foldl _ (fun q r => ?_) _ _
  simp only
  split
  · exact (q.streamsOnly_stopRelease r).announces
  · exact .refl q

theorem Part.announcesOnly_cutPlaying (p : Part) (r : Playing) : p.AnnouncesOnly (p.cutPlaying r) := by
  unfold Part.cutPlaying
  simp only
  refine Part.AnnouncesOnly.trans ?_ (Part.announcesOnly_reinsert _ _)
  refine Part.AnnouncesOnly.trans ?_ (Part.announcesOnly_setPlaying _ _)
  refine Part.AnnouncesOnly.trans ?_ (Part.announcesOnly_endCue _)
  refine Part.AnnouncesOnly.trans ?_ (Part.announcesOnly_annNotice _ _ _ _)
  exact p.announcesOnly_stopAnnouncementReaders.trans (Part.announcesOnly_setRouting _ _)

theorem Part.announcesOnly_cancelPlaying (p : Part) (r : Playing) :
    p.AnnouncesOnly (p.cancelPlaying r) := by
  have h1 : p.AnnouncesOnly
      (((((p.stopAnnouncementReaders.setRouting false).handBack).dropPaOwners)).resumeSignal) := by
    refine Part.AnnouncesOnly.trans ?_ (Part.streamsOnly_resumeSignal _).announces
    refine Part.AnnouncesOnly.trans ?_ (Part.announcesOnly_dropPaOwners _)
    refine Part.AnnouncesOnly.trans ?_ (Part.streamsOnly_handBack _).announces
    exact p.announcesOnly_stopAnnouncementReaders.trans (Part.announcesOnly_setRouting _ _)
  have h2 : ∀ q : Part, q.AnnouncesOnly
      ((((q.endCue).annNotice r.entry.set .dropped (some .cancelled)).setPlaying
        none).tellPlaying.judgeAlert).offerStart := by
    intro q
    refine Part.AnnouncesOnly.trans ?_ (Part.announcesOnly_offerStart _)
    refine Part.AnnouncesOnly.trans ?_ (Part.announcesOnly_judgeAlert _)
    refine Part.AnnouncesOnly.trans ?_ (Part.announcesOnly_tellPlaying _)
    refine Part.AnnouncesOnly.trans ?_ (Part.announcesOnly_setPlaying _ _)
    exact q.announcesOnly_endCue.trans (Part.announcesOnly_annNotice _ _ _ _)
  unfold Part.cancelPlaying
  simp only
  split
  · exact h1.trans (h2 _)
  · exact h1.trans (h2 _)
  · exact p.announcesOnly_dropPaOwners.trans (h2 _)

/-! ### DECK-ALERT (R98) -/

/-- DECK-ALERT stands as its two conditions judge it. -/
def Announcer.judged (a : Announcer) : Prop := a.deckAlert = (a.safetyPlaying || a.safetyFault)

/-- Two records of the Announcement Controller that agree on what DECK-ALERT rests on. -/
theorem Announcer.judged_congr {a b : Announcer} (h : a.judged) (hd : b.deckAlert = a.deckAlert)
    (hs : b.safetyFault = a.safetyFault) (hp : b.safetyPlaying = a.safetyPlaying) : b.judged := by
  unfold Announcer.judged at *; rw [hd, hs, hp]; exact h

/-- The zone report of a part stands through announcements. -/
theorem Part.AnnouncesOnly.safetyFault {p q : Part} (h : p.AnnouncesOnly q) :
    q.ann.safetyFault = p.ann.safetyFault ∧ q.light.safetyFault = p.light.safetyFault := by
  refine ⟨by rw [h.ann], ?_⟩
  unfold Light.safetyFault
  congr 1
  funext z
  have hz := h.zones z
  unfold Part.zone Zone.Configured at hz
  rw [hz]

/-- DECK-ALERT is right after an operation of announcements that leaves it judged. -/
theorem Part.AnnouncesOnly.alertRight {p q : Part} (h : p.AnnouncesOnly q)
    (hp : p.ann.safetyFault = p.light.safetyFault) (hq : q.ann.judged) : q.alertRight :=
  ⟨hq, by rw [h.safetyFault.1, h.safetyFault.2, hp]⟩

theorem Part.judged_judgeAlert (p : Part) : p.judgeAlert.ann.judged := rfl

theorem Part.judged_startHead (p : Part) (e : QEntry) (rest : List QEntry) :
    (p.startHead e rest).ann.judged := by
  unfold Part.startHead
  exact Part.judged_judgeAlert _

theorem Part.judged_offerStart (p : Part) (h : p.ann.judged) : p.offerStart.ann.judged := by
  unfold Part.offerStart
  split
  · exact h
  · split
    · split
      · exact p.judged_startHead _ _
      · split
        · exact p.judged_startHead _ _
        · exact h
    · exact h

theorem Part.judged_endTail (p : Part) (r : Playing) : (p.endTail r).ann.judged := by
  unfold Part.endTail
  exact Part.judged_judgeAlert _

theorem Part.judged_beginTail (p : Part) (r : Playing) : (p.beginTail r).ann.judged := by
  unfold Part.beginTail
  simp only
  split
  · exact Part.judged_endTail _ _
  · exact Part.judged_offerStart _ (Part.judged_judgeAlert _)

/-- The Playing Record of the same class. -/
theorem Part.judged_setPlaying (p : Part) (r s : Playing) (hp : p.ann.playing = some r)
    (hc : s.entry.cls = r.entry.cls) (h : p.ann.judged) : (p.setPlaying (some s)).ann.judged := by
  refine Announcer.judged_congr h rfl rfl ?_
  simp [Announcer.safetyPlaying, Part.setPlaying, hp, hc]

theorem Part.judged_startRepetition (p : Part) (h : p.ann.judged) : p.startRepetition.ann.judged := by
  unfold Part.startRepetition
  split
  · exact h
  · rename_i r hr
    simp only
    rw [(Part.readersOnly_startReader _ _ _ _ _).ann,
      (Part.ReadersOnly.foldl _ (fun q l => q.readersOnly_startReader _ _ _ _) _ _).ann]
    exact p.judged_setPlaying r _ hr rfl h

theorem Part.tellLevel_ann (p : Part) (c : Option SetClass) (f : Option Phase) (n : Nat) :
    (p.tellLevel c f n).ann = p.ann := by
  unfold Part.tellLevel
  extract_lets old q r
  have hr : r.ann = p.ann := by unfold r; split <;> simp [q]
  split
  · exact hr
  · exact hr

theorem Part.tellPlaying_ann (p : Part) : p.tellPlaying.ann = p.ann := by
  unfold Part.tellPlaying
  split <;> exact p.tellLevel_ann _ _ _

theorem Part.judged_endRepetition (p : Part) (h : p.ann.judged) : p.endRepetition.ann.judged := by
  unfold Part.endRepetition
  split
  · exact h
  · rename_i r hr
    split
    · split
      · exact Part.judged_startRepetition _ (p.judged_setPlaying r _ hr rfl h)
      · exact p.judged_beginTail _
    · exact h

theorem Part.judged_announcementReport (p : Part) (x : ReaderId) (h : p.ann.judged) :
    (p.announcementReport x).ann.judged := by
  unfold Part.announcementReport
  split
  · exact h
  · rename_i r hr
    split
    · split
      · refine Part.judged_startRepetition _ ?_
        rw [Part.tellPlaying_ann]
        exact Part.judged_setPlaying (p.setRouting false) r _ hr rfl h
      · exact h
    · split
      · exact Part.judged_endRepetition _ (p.judged_setPlaying r _ hr rfl h)
      · exact Part.judged_endRepetition _ (p.judged_setPlaying r _ hr rfl h)
    · exact h

theorem Part.judged_languageDisabled (p : Part) (l : Lang) (h : p.ann.judged) :
    (p.languageDisabled l).ann.judged := by
  unfold Part.languageDisabled
  split
  · exact h
  · rename_i r hr
    split
    · have ha := (p.readersOnly_stopRelease (chan l)).ann
      exact Part.judged_endRepetition _
        (Part.judged_setPlaying _ r _ (by rw [ha]; exact hr) rfl (by rw [ha]; exact h))
    · exact h

theorem Part.judged_takeReport (p : Part) (x : Report) (h : p.ann.judged) :
    (p.takeReport x).ann.judged := by
  unfold Part.takeReport
  split
  · split
    · rw [(p.streamsOnly_commentaryReport _ _).ann]; exact h
    · exact h
  · exact p.judged_announcementReport _ h
  · exact h

theorem Part.judged_drain (n : Nat) (p : Part) (h : p.ann.judged) : (p.drain n).ann.judged := by
  induction n generalizing p with
  | zero => exact h
  | succ n ih =>
    unfold Part.drain
    split
    · exact h
    · exact ih _ (Part.judged_takeReport _ _ h)

theorem Part.annNotice_ann (p : Part) (i : SetId) (e : AnnEvent) (r : Option AnnReason) :
    (p.annNotice i e r).ann = { p.ann with last := (p.annNotice i e r).ann.last } := by
  have ha := (p.readersOnly_raise (.announce i e r)).ann
  unfold Part.annNotice
  simp only
  split <;> simp only [ha]

theorem Part.setPlaying_ann (p : Part) (r : Option Playing) :
    (p.setPlaying r).ann = { p.ann with playing := r } := rfl

/-- The reinsertion of a cut entry touches neither the Playing Record nor DECK-ALERT. -/
theorem Part.reinsert_ann (p : Part) (e : QEntry) :
    (p.reinsert e).ann = { p.ann with
      queue := (p.reinsert e).ann.queue, last := (p.reinsert e).ann.last } := by
  unfold Part.reinsert
  extract_lets x
  split
  · rw [p.annNotice_ann]
  · split
    · rfl
    · split
      · show Announcer.mk _ _ _ _ _ _ = _
        rw [p.annNotice_ann]; rfl
      · rw [p.annNotice_ann]

/-- A cut of an announcement that is not of the class SAFETY leaves DECK-ALERT judged. -/
theorem Part.judged_cutPlaying (p : Part) (r : Playing) (hp : p.ann.playing = some r)
    (hc : r.entry.cls ≠ .safety) (h : p.ann.judged) : (p.cutPlaying r).ann.judged := by
  have hs : p.stopAnnouncementReaders.ann = p.ann := by
    unfold Part.stopAnnouncementReaders Part.eachReader
    refine (Part.ReadersOnly.foldl _ (fun q x => ?_) _ _).ann
    simp only
    split
    · exact q.readersOnly_stopRelease x
    · exact .refl q
  unfold Part.cutPlaying
  extract_lets q t
  have hq : q.ann = p.ann := by unfold q; rw [Part.setRouting_ann]; exact hs
  have ht : t.ann = { p.ann with playing := none, last := t.ann.last } := by
    unfold t
    rw [Part.setPlaying_ann, Part.endCue_ann, Part.annNotice_ann, hq]
  clear_value t
  have hr := t.reinsert_ann r.entry
  rw [ht] at hr
  refine Announcer.judged_congr h ?_ ?_ ?_
  · rw [hr]
  · rw [hr]
  · unfold Announcer.safetyPlaying
    rw [hr, hp]
    simp [hc]

theorem Part.judged_cancelPlaying (p : Part) (r : Playing) : (p.cancelPlaying r).ann.judged := by
  unfold Part.cancelPlaying
  exact Part.judged_offerStart _ (Part.judged_judgeAlert _)

end Sys2Proof.Machine
end

