-- ==== Sys2Proof/WellFormed.lean ====
section
/-! DEFINITION. Which commands are well formed: the bounds that the operands' types do not carry. -/

namespace Sys2Proof

/-- A request's body fits a link frame (R192: 0..1,040 bytes). -/
def bodyFits (body : Bytes) : Bool := decide (body.length ≤ 1040)

/-- The bounds on a command's operands. -/
def Instr.wellFormed : Instr → Bool
  | .clipOpen _ body => bodyFits body
  | .clipFill _ body => bodyFits body
  | .clipClose _ body => bodyFits body
  | .clipDrop _ body => bodyFits body
  | .clipDelete _ body => bodyFits body
  | .clipQuery _ body => bodyFits body
  | .storeQuery _ body => bodyFits body
  | .storeCheck _ body => bodyFits body
  | .langSet _ body => bodyFits body
  | .reelSet _ body => bodyFits body
  | .reelClear _ body => bodyFits body
  | .cue _ body => bodyFits body
  | .streamQuery _ body => bodyFits body
  | .setDefine _ body => bodyFits body
  | .setRemove _ body => bodyFits body
  | .announce _ body => bodyFits body
  | .announceCancel _ body => bodyFits body
  | .queueQuery _ body => bodyFits body
  | .stringSet _ body => bodyFits body
  | .seatSet _ body => bodyFits body
  | .seatQuery _ body => bodyFits body
  | .seatRelease _ body => bodyFits body
  | .speed _ body => bodyFits body
  | .levelSet _ body => bodyFits body
  | .supplySet _ body => bodyFits body
  | .supplyQuery _ body => bodyFits body
  | .supplyPeakClear _ body => bodyFits body
  | .zoneSet _ body => bodyFits body
  | .sceneSet _ body => bodyFits body
  | .sceneSelect _ body => bodyFits body
  | .lightcueSet _ body => bodyFits body
  | .deckQuery _ body => bodyFits body
  | .partIdent _ body => bodyFits body
  | .partStatus _ body => bodyFits body
  | .partReset _ body => bodyFits body
  | .standby _ body => bodyFits body
  | .wake _ body => bodyFits body
  | .coldReset => true
  | .coldResetEnd => true
  | .startupPauseEnd => true
  | .startupRefreshDone => true
  | .modeSettingDone => true
  | .refreshIntervalExpiry => true
  | .arbiterGrant => true
  | .refreshDone => true
  | .readerReadCompletion _ => true
  | .loaderWriteCompletion => true
  | .closeWriteCompletion => true
  | .checkerTransferCompletion _ => true
  | .selfRefreshEntered => true
  | .warmResetComplete => true
  | .fillPageWaitEnd => true
  | .samplePeriod => true
  | .announceEntryExpiry _ => true
  | .tailEnd => true
  | .roundStart _ => true
  -- a node's answer is 7 bytes (R195)
  | .nodeAnswer _ bytes => decide (bytes.length = 7)
  | .invalidAnswer _ _ => true
  | .answerTimeout _ => true
  | .settleEnd _ => true
  | .coolDownEnd _ => true
  | .speedStaleExpiry => true
  | .voltageSample _ => true
  | .currentSample _ => true
  -- an on-phase has a level of 1..100 (R166)
  | .zoneSample _ level => decide (1 ≤ level ∧ level ≤ 100)
  | .fadeStep _ => true
  | .flashHalfBoundary _ => true
  | .frameReceived _ _ body _ => bodyFits body
  -- the LENGTH case of R178
  | .frameLengthError length => decide (1040 < length.toNat)
  | .frameGapTimeout => true
  | .transmitDone => true
  | .syncByteReceived => true
  | .frameStopBitError => true
  | .releasePollsSent _ => true

end Sys2Proof
end

