-- ==== Sys2Proof/Laws/PerInstr.lean ====
section
/-! SUPPORT. What well-formedness says of each command: the bounds that the frame and the answer layouts set
on its operands (R166, R178, R192, R195). -/

namespace Sys2Proof.Laws

/-- The bounds on a command's operands, as the rules state them. -/
def operandsInRange : Instr → Prop
  | .clipOpen _ body => body.length ≤ 1040
  | .clipFill _ body => body.length ≤ 1040
  | .clipClose _ body => body.length ≤ 1040
  | .clipDrop _ body => body.length ≤ 1040
  | .clipDelete _ body => body.length ≤ 1040
  | .clipQuery _ body => body.length ≤ 1040
  | .storeQuery _ body => body.length ≤ 1040
  | .storeCheck _ body => body.length ≤ 1040
  | .langSet _ body => body.length ≤ 1040
  | .reelSet _ body => body.length ≤ 1040
  | .reelClear _ body => body.length ≤ 1040
  | .cue _ body => body.length ≤ 1040
  | .streamQuery _ body => body.length ≤ 1040
  | .setDefine _ body => body.length ≤ 1040
  | .setRemove _ body => body.length ≤ 1040
  | .announce _ body => body.length ≤ 1040
  | .announceCancel _ body => body.length ≤ 1040
  | .queueQuery _ body => body.length ≤ 1040
  | .stringSet _ body => body.length ≤ 1040
  | .seatSet _ body => body.length ≤ 1040
  | .seatQuery _ body => body.length ≤ 1040
  | .seatRelease _ body => body.length ≤ 1040
  | .speed _ body => body.length ≤ 1040
  | .levelSet _ body => body.length ≤ 1040
  | .supplySet _ body => body.length ≤ 1040
  | .supplyQuery _ body => body.length ≤ 1040
  | .supplyPeakClear _ body => body.length ≤ 1040
  | .zoneSet _ body => body.length ≤ 1040
  | .sceneSet _ body => body.length ≤ 1040
  | .sceneSelect _ body => body.length ≤ 1040
  | .lightcueSet _ body => body.length ≤ 1040
  | .deckQuery _ body => body.length ≤ 1040
  | .partIdent _ body => body.length ≤ 1040
  | .partStatus _ body => body.length ≤ 1040
  | .partReset _ body => body.length ≤ 1040
  | .standby _ body => body.length ≤ 1040
  | .wake _ body => body.length ≤ 1040
  | .coldReset => True
  | .coldResetEnd => True
  | .startupPauseEnd => True
  | .startupRefreshDone => True
  | .modeSettingDone => True
  | .refreshIntervalExpiry => True
  | .arbiterGrant => True
  | .refreshDone => True
  | .readerReadCompletion _ => True
  | .loaderWriteCompletion => True
  | .closeWriteCompletion => True
  | .checkerTransferCompletion _ => True
  | .selfRefreshEntered => True
  | .warmResetComplete => True
  | .fillPageWaitEnd => True
  | .samplePeriod => True
  | .announceEntryExpiry _ => True
  | .tailEnd => True
  | .roundStart _ => True
  | .nodeAnswer _ bytes => bytes.length = 7
  | .invalidAnswer _ _ => True
  | .answerTimeout _ => True
  | .settleEnd _ => True
  | .coolDownEnd _ => True
  | .speedStaleExpiry => True
  | .voltageSample _ => True
  | .currentSample _ => True
  | .zoneSample _ level => 1 ≤ level ∧ level ≤ 100
  | .fadeStep _ => True
  | .flashHalfBoundary _ => True
  | .frameReceived _ _ body _ => body.length ≤ 1040
  | .frameLengthError length => 1040 < length.toNat
  | .frameGapTimeout => True
  | .transmitDone => True
  | .syncByteReceived => True
  | .frameStopBitError => True
  | .releasePollsSent _ => True

/-- A command is well formed exactly when its operands meet the bounds that the rules set on them. -/
def Bounds.Statement (i : Instr) : Prop := i.wellFormed = true ↔ operandsInRange i

theorem bodyFits_iff (body : Bytes) : bodyFits body = true ↔ body.length ≤ 1040 := by simp [bodyFits]

theorem Bounds.clipOpen (tag : Byte) (body : Bytes) : Bounds.Statement (.clipOpen tag body) :=
  bodyFits_iff body
theorem Bounds.clipFill (tag : Byte) (body : Bytes) : Bounds.Statement (.clipFill tag body) :=
  bodyFits_iff body
theorem Bounds.clipClose (tag : Byte) (body : Bytes) : Bounds.Statement (.clipClose tag body) :=
  bodyFits_iff body
theorem Bounds.clipDrop (tag : Byte) (body : Bytes) : Bounds.Statement (.clipDrop tag body) :=
  bodyFits_iff body
theorem Bounds.clipDelete (tag : Byte) (body : Bytes) : Bounds.Statement (.clipDelete tag body) :=
  bodyFits_iff body
theorem Bounds.clipQuery (tag : Byte) (body : Bytes) : Bounds.Statement (.clipQuery tag body) :=
  bodyFits_iff body
theorem Bounds.storeQuery (tag : Byte) (body : Bytes) : Bounds.Statement (.storeQuery tag body) :=
  bodyFits_iff body
theorem Bounds.storeCheck (tag : Byte) (body : Bytes) : Bounds.Statement (.storeCheck tag body) :=
  bodyFits_iff body
theorem Bounds.langSet (tag : Byte) (body : Bytes) : Bounds.Statement (.langSet tag body) :=
  bodyFits_iff body
theorem Bounds.reelSet (tag : Byte) (body : Bytes) : Bounds.Statement (.reelSet tag body) :=
  bodyFits_iff body
theorem Bounds.reelClear (tag : Byte) (body : Bytes) : Bounds.Statement (.reelClear tag body) :=
  bodyFits_iff body
theorem Bounds.cue (tag : Byte) (body : Bytes) : Bounds.Statement (.cue tag body) :=
  bodyFits_iff body
theorem Bounds.streamQuery (tag : Byte) (body : Bytes) : Bounds.Statement (.streamQuery tag body) :=
  bodyFits_iff body
theorem Bounds.setDefine (tag : Byte) (body : Bytes) : Bounds.Statement (.setDefine tag body) :=
  bodyFits_iff body
theorem Bounds.setRemove (tag : Byte) (body : Bytes) : Bounds.Statement (.setRemove tag body) :=
  bodyFits_iff body
theorem Bounds.announce (tag : Byte) (body : Bytes) : Bounds.Statement (.announce tag body) :=
  bodyFits_iff body
theorem Bounds.announceCancel (tag : Byte) (body : Bytes) : Bounds.Statement (.announceCancel tag body) :=
  bodyFits_iff body
theorem Bounds.queueQuery (tag : Byte) (body : Bytes) : Bounds.Statement (.queueQuery tag body) :=
  bodyFits_iff body
theorem Bounds.stringSet (tag : Byte) (body : Bytes) : Bounds.Statement (.stringSet tag body) :=
  bodyFits_iff body
theorem Bounds.seatSet (tag : Byte) (body : Bytes) : Bounds.Statement (.seatSet tag body) :=
  bodyFits_iff body
theorem Bounds.seatQuery (tag : Byte) (body : Bytes) : Bounds.Statement (.seatQuery tag body) :=
  bodyFits_iff body
theorem Bounds.seatRelease (tag : Byte) (body : Bytes) : Bounds.Statement (.seatRelease tag body) :=
  bodyFits_iff body
theorem Bounds.speed (tag : Byte) (body : Bytes) : Bounds.Statement (.speed tag body) :=
  bodyFits_iff body
theorem Bounds.levelSet (tag : Byte) (body : Bytes) : Bounds.Statement (.levelSet tag body) :=
  bodyFits_iff body
theorem Bounds.supplySet (tag : Byte) (body : Bytes) : Bounds.Statement (.supplySet tag body) :=
  bodyFits_iff body
theorem Bounds.supplyQuery (tag : Byte) (body : Bytes) : Bounds.Statement (.supplyQuery tag body) :=
  bodyFits_iff body
theorem Bounds.supplyPeakClear (tag : Byte) (body : Bytes) : Bounds.Statement (.supplyPeakClear tag body) :=
  bodyFits_iff body
theorem Bounds.zoneSet (tag : Byte) (body : Bytes) : Bounds.Statement (.zoneSet tag body) :=
  bodyFits_iff body
theorem Bounds.sceneSet (tag : Byte) (body : Bytes) : Bounds.Statement (.sceneSet tag body) :=
  bodyFits_iff body
theorem Bounds.sceneSelect (tag : Byte) (body : Bytes) : Bounds.Statement (.sceneSelect tag body) :=
  bodyFits_iff body
theorem Bounds.lightcueSet (tag : Byte) (body : Bytes) : Bounds.Statement (.lightcueSet tag body) :=
  bodyFits_iff body
theorem Bounds.deckQuery (tag : Byte) (body : Bytes) : Bounds.Statement (.deckQuery tag body) :=
  bodyFits_iff body
theorem Bounds.partIdent (tag : Byte) (body : Bytes) : Bounds.Statement (.partIdent tag body) :=
  bodyFits_iff body
theorem Bounds.partStatus (tag : Byte) (body : Bytes) : Bounds.Statement (.partStatus tag body) :=
  bodyFits_iff body
theorem Bounds.partReset (tag : Byte) (body : Bytes) : Bounds.Statement (.partReset tag body) :=
  bodyFits_iff body
theorem Bounds.standby (tag : Byte) (body : Bytes) : Bounds.Statement (.standby tag body) :=
  bodyFits_iff body
theorem Bounds.wake (tag : Byte) (body : Bytes) : Bounds.Statement (.wake tag body) :=
  bodyFits_iff body
theorem Bounds.coldReset : Bounds.Statement (.coldReset) :=
  iff_of_true rfl trivial
theorem Bounds.coldResetEnd : Bounds.Statement (.coldResetEnd) :=
  iff_of_true rfl trivial
theorem Bounds.startupPauseEnd : Bounds.Statement (.startupPauseEnd) :=
  iff_of_true rfl trivial
theorem Bounds.startupRefreshDone : Bounds.Statement (.startupRefreshDone) :=
  iff_of_true rfl trivial
theorem Bounds.modeSettingDone : Bounds.Statement (.modeSettingDone) :=
  iff_of_true rfl trivial
theorem Bounds.refreshIntervalExpiry : Bounds.Statement (.refreshIntervalExpiry) :=
  iff_of_true rfl trivial
theorem Bounds.arbiterGrant : Bounds.Statement (.arbiterGrant) :=
  iff_of_true rfl trivial
theorem Bounds.refreshDone : Bounds.Statement (.refreshDone) :=
  iff_of_true rfl trivial
theorem Bounds.readerReadCompletion (reader : ReaderId) : Bounds.Statement (.readerReadCompletion reader) :=
  iff_of_true rfl trivial
theorem Bounds.loaderWriteCompletion : Bounds.Statement (.loaderWriteCompletion) :=
  iff_of_true rfl trivial
theorem Bounds.closeWriteCompletion : Bounds.Statement (.closeWriteCompletion) :=
  iff_of_true rfl trivial
theorem Bounds.checkerTransferCompletion (equal : Bool) : Bounds.Statement (.checkerTransferCompletion equal) :=
  iff_of_true rfl trivial
theorem Bounds.selfRefreshEntered : Bounds.Statement (.selfRefreshEntered) :=
  iff_of_true rfl trivial
theorem Bounds.warmResetComplete : Bounds.Statement (.warmResetComplete) :=
  iff_of_true rfl trivial
theorem Bounds.fillPageWaitEnd : Bounds.Statement (.fillPageWaitEnd) :=
  iff_of_true rfl trivial
theorem Bounds.samplePeriod : Bounds.Statement (.samplePeriod) :=
  iff_of_true rfl trivial
theorem Bounds.announceEntryExpiry (set : SetId) : Bounds.Statement (.announceEntryExpiry set) :=
  iff_of_true rfl trivial
theorem Bounds.tailEnd : Bounds.Statement (.tailEnd) :=
  iff_of_true rfl trivial
theorem Bounds.roundStart (string : StringId) : Bounds.Statement (.roundStart string) :=
  iff_of_true rfl trivial
theorem Bounds.nodeAnswer (string : StringId) (bytes : Bytes) : Bounds.Statement (.nodeAnswer string bytes) :=
  decide_eq_true_iff
theorem Bounds.invalidAnswer (string : StringId) (bytes : Bytes) : Bounds.Statement (.invalidAnswer string bytes) :=
  iff_of_true rfl trivial
theorem Bounds.answerTimeout (string : StringId) : Bounds.Statement (.answerTimeout string) :=
  iff_of_true rfl trivial
theorem Bounds.settleEnd (seat : SeatId) : Bounds.Statement (.settleEnd seat) :=
  iff_of_true rfl trivial
theorem Bounds.coolDownEnd (seat : SeatId) : Bounds.Statement (.coolDownEnd seat) :=
  iff_of_true rfl trivial
theorem Bounds.speedStaleExpiry : Bounds.Statement (.speedStaleExpiry) :=
  iff_of_true rfl trivial
theorem Bounds.voltageSample (mV : Nat) : Bounds.Statement (.voltageSample mV) :=
  iff_of_true rfl trivial
theorem Bounds.currentSample (mA : Nat) : Bounds.Statement (.currentSample mA) :=
  iff_of_true rfl trivial
theorem Bounds.zoneSample (current : ZoneCurrent) (level : Nat) : Bounds.Statement (.zoneSample current level) :=
  decide_eq_true_iff
theorem Bounds.fadeStep (zone : ZoneId) : Bounds.Statement (.fadeStep zone) :=
  iff_of_true rfl trivial
theorem Bounds.flashHalfBoundary (zone : ZoneId) : Bounds.Statement (.flashHalfBoundary zone) :=
  iff_of_true rfl trivial
theorem Bounds.frameReceived (kind : Byte) (tag : Byte) (body : Bytes) (check : BitVec 16) : Bounds.Statement (.frameReceived kind tag body check) :=
  bodyFits_iff body
theorem Bounds.frameLengthError (length : BitVec 16) : Bounds.Statement (.frameLengthError length) :=
  decide_eq_true_iff
theorem Bounds.frameGapTimeout : Bounds.Statement (.frameGapTimeout) :=
  iff_of_true rfl trivial
theorem Bounds.transmitDone : Bounds.Statement (.transmitDone) :=
  iff_of_true rfl trivial
theorem Bounds.syncByteReceived : Bounds.Statement (.syncByteReceived) :=
  iff_of_true rfl trivial
theorem Bounds.frameStopBitError : Bounds.Statement (.frameStopBitError) :=
  iff_of_true rfl trivial
theorem Bounds.releasePollsSent (string : StringId) : Bounds.Statement (.releasePollsSent string) :=
  iff_of_true rfl trivial

end Sys2Proof.Laws
end

