-- ==== Sys2Proof/Laws/Samples.lean ====
section
/-! SUPPORT. Laws of the converter's intervals and of the samples it takes: the zone conversions that an interval's
start, its end, a reset and a sample leave, and what a zone sample and a deck current sample can do. -/

namespace Sys2Proof.Machine

/-! ### Zone conversions (R149, R150, R159) -/

@[simp] theorem Supply.start_conversions (s : Supply) (now : PartTime) (z : ZoneId) :
    vget (s.start now).conversions z = if z = 0 then some now else none := by simp [Supply.start]

@[simp] theorem Supply.cleared_conversions (s : Supply) (z : ZoneId) :
    vget s.cleared.conversions z = none := by simp [Supply.cleared]

@[simp] theorem Supply.nextInterval_conversions (s : Supply) (lit : Bool) (z : ZoneId) :
    vget (s.nextInterval lit).conversions z =
      if z = s.nextZone then some s.intervalEnd
      else if z = s.zoneIndex ∧ lit = true then vget s.conversions z else none := by
  simp [Supply.nextInterval]

@[simp] theorem Supply.storeSample_zoneSamples (s : Supply) (z : ZoneId) (x : ZoneSample) :
    (s.storeSample z x).zoneSamples = vset s.zoneSamples z (some x) := rfl

@[simp] theorem Supply.storeSample_conversions (s : Supply) (z : ZoneId) (x : ZoneSample) :
    (s.storeSample z x).conversions = vset s.conversions z none := rfl

/-- The zone of the interval that begins is never the one whose conversion may go on beside it. -/
theorem Supply.nextZone_ne (s : Supply) : s.nextZone ≠ s.zoneIndex := by
  have h := s.zoneIndex.isLt
  intro e
  have := congrArg Fin.val e
  simp only [Supply.nextZone] at this
  omega

/-! ### When a zone is lit -/

theorem Part.litAt_iff (p : Part) (z : ZoneId) (start : PartTime) (level : Nat) :
    p.litAt z start level = true ↔ 1 ≤ level ∧ (level = p.zoneOutput z ∨
      ∃ d, tfind (p.zone z).leftAt level = some d ∧
        (d - start).toNat ≤ (p.time - start).toNat) := by
  simp [Part.litAt, Option.any_eq_true, within]

theorem Part.litSince_iff (p : Part) (z : ZoneId) (start : PartTime) :
    p.litSince z start = true ↔ 1 ≤ p.zoneOutput z ∨
      ∃ x ∈ (p.zone z).leftAt, (x.2 - start).toNat ≤ (p.time - start).toNat := by
  simp [Part.litSince, within]

theorem Part.samplesAt_iff (p : Part) (z : ZoneId) (level : Nat) :
    p.samplesAt z level = true ↔ p.supply.running = true ∧
      ∃ start, vget p.supply.conversions z = some start ∧ p.litAt z start level = true := by
  simp [Part.samplesAt, Option.any_eq_true]

/-! ### Judgements and samples -/

theorem Part.raise_supply (p : Part) (n : Notice) : (p.raise n).supply = p.supply := by
  rw [Part.raise_only_link]

/-- A found shed state changes no other field of the Supply Monitor. -/
theorem Part.findShed_supply (p : Part) :
    p.findShed.supply = { p.supply with shed := worse p.supply.voltageState p.supply.currentLow } := by
  unfold Part.findShed
  simp only
  split
  · rename_i h; rw [h]
  · simp only [Part.tellLevelShed, Part.recomputePa_supply, Part.recomputeSeats_supply,
      Part.raise_supply]

theorem Part.setFault_supply (z : ZoneId) (f : ZoneFault) (p : Part) :
    (p.setFault z f).supply = p.supply := by
  unfold Part.setFault
  simp only
  split <;> split <;> simp [Part.raise_supply]

/-- Judgement leaves the Supply Monitor alone. -/
theorem Part.judgeZone_supply (z : ZoneId) (mA level : Nat) (p : Part) :
    (p.judgeZone z mA level).supply = p.supply := by
  unfold Part.judgeZone
  simp only
  split
  · rfl
  · split
    · exact Part.setFault_supply z .shortFault p
    · split
      · rfl
      · repeat' split
        all_goals first | rfl | (rw [Part.setFault_supply]; rfl)

/-- A zone sample is none of the part's, or is stored for its zone, ends the zone's conversion and is judged. -/
theorem Part.zoneSample_cases (z : ZoneId) (mA level : Nat) (p : Part) :
    (p.samplesAt z level = false ∧ p.zoneSample z mA level = p) ∨
      (p.samplesAt z level = true ∧ p.zoneSample z mA level =
        Part.judgeZone z (min 60000 mA) level
          { p with supply := p.supply.storeSample z ⟨min 60000 mA, level⟩ }) := by
  unfold Part.zoneSample
  cases p.samplesAt z level <;> simp

/-- What a zone sample leaves in the Supply Monitor. -/
theorem Part.zoneSample_supply (z : ZoneId) (mA level : Nat) (p : Part) :
    (p.zoneSample z mA level).supply =
      if p.samplesAt z level then p.supply.storeSample z ⟨min 60000 mA, level⟩ else p.supply := by
  rcases p.zoneSample_cases z mA level with ⟨h, e⟩ | ⟨h, e⟩
  · simp [h, e]
  · rw [e, Part.judgeZone_supply]; simp [h]

/-- The conversions after a deck current sample: that of the next zone begins, and that of the interval's zone goes
on when it has given no sample and the zone was lit within the interval. -/
theorem Part.currentSample_conversions (mA : Nat) (p : Part) (h : p.supply.running = true) (k : ZoneId) :
    vget (p.currentSample mA).supply.conversions k =
      if k = p.supply.nextZone then some p.supply.intervalEnd
      else if k = p.supply.zoneIndex ∧
          (p.reach p.supply.intervalEnd).litSince p.supply.zoneIndex p.supply.intervalStart = true
        then vget p.supply.conversions k else none := by
  have hr : (p.reach p.supply.intervalEnd).supply = p.supply := by rw [Part.reach_eq]
  have hj : ∀ s : Supply, s.judgeCurrentNow = { s with currentLow := s.judgeCurrentNow.currentLow } :=
    fun s => by unfold Supply.judgeCurrentNow; split <;> rfl
  unfold Part.currentSample
  simp only [h, if_true, hr, Supply.nextInterval_conversions, Part.findShed_supply]
  rw [hj]
  rfl

end Sys2Proof.Machine
end

