-- ==== Sys2Proof/Tests/Slice0.lean ====
section
/-! SUPPORT. Tests: what well-formedness refuses, worked examples of the spec, and for every statement with
hypotheses a concrete state and operands that meet them together. -/

set_option Elab.async false

namespace Sys2Proof.Tests

open Sys2Proof Sys2Proof.Machine

/-! ### States to test on -/

/-- A RUNNING part with nothing loaded, nothing playing and no seat in use. -/
def part0 : Part :=
  { Part.cold with
    mem := { MemCtl.cold with state := .ready }
    bank := { Bank.cold with busOn := true }
    supply := Supply.cold.start 0
    strings := Vector.replicate 4 { StringRec.cold with scanning := true } }

/-- The machine with a part, nothing in clip memory and no command waiting. -/
def on (p : Part) : State := ⟨[], p, []⟩

/-- The part with a clip record written. -/
def withClip (c : ClipId) (x : Clip) : Part := part0.setClip c x

/-- A clip of a page, by state and loaded length. -/
def clipOf (st : ClipState) (loaded : Nat) : Clip :=
  { Clip.empty with
    state := st, threshold := 256, loaded := loaded, pageCount := 1, firstPage := some 0
    lastPage := some 0 }

/-- The part after a command, if the machine goes on. -/
def after (i : Instr) (p : Part) : Option Part :=
  match exec i (on p) with
  | .next t => some t.part
  | .fault _ => none
  | .refused _ => none

/-- The fault of a command, if it stops with one. -/
def faultOf (i : Instr) (p : Part) : Option Fault :=
  match exec i (on p) with
  | .next _ => none
  | .fault f => some f
  | .refused _ => none

/-! ### Well-formedness: each check refuses an ill-formed term -/

theorem test_wf_body : Instr.wellFormed (.clipFill 1 (List.replicate 1041 0)) = false := by
  decide +kernel
theorem test_wf_body_ok : Instr.wellFormed (.clipFill 1 (List.replicate 1040 0)) = true := by
  decide +kernel
theorem test_wf_frame : Instr.wellFormed (.frameReceived 1 1 (List.replicate 1041 0) 0) = false := by
  decide +kernel
theorem test_wf_answer_short : Instr.wellFormed (.nodeAnswer 0 [0, 0, 0, 0, 0, 0]) = false := by decide
theorem test_wf_answer_long : Instr.wellFormed (.nodeAnswer 0 [0, 0, 0, 0, 0, 0, 0, 0]) = false := by
  decide
theorem test_wf_length : Instr.wellFormed (.frameLengthError 1040) = false := by decide
theorem test_wf_level :
    [0, 1, 100, 101].map (fun l => Instr.wellFormed (.zoneSample ⟨7, 0⟩ l)) = [false, true, true, false] := by
  decide
theorem test_wf_length_ok : Instr.wellFormed (.frameLengthError 1041) = true := by decide

/-! ### Worked examples of the spec -/

/-- 12_message_layouts.md: the check over "123456789". -/
theorem test_check_value :
    checkOf [0x31, 0x32, 0x33, 0x34, 0x35, 0x36, 0x37, 0x38, 0x39] = 0x29B1#16 := by decide +kernel

/-- R192: the kind numbers named there. -/
theorem test_kind_numbers :
    [Kind.clipOpen, .storeCheck, .cue, .announce, .seatSet, .speed, .zoneSet, .partIdent,
      .wake].map Kind.byte = [1, 8, 12, 16, 20, 23, 28, 33, 37] := by decide +kernel

/-- 12_message_layouts.md, the worked ANNOUNCE: 8 bytes, the reply 11 bytes, its place STARTED. -/
theorem test_announce_frame :
    (Frame.bytes ⟨16, 54, [1]⟩).take 6 = [0x5A, 0x01, 0x00, 0x10, 0x36, 0x01] ∧
      (Frame.bytes ⟨16, 54, [1]⟩).length = 8 ∧
      (Frame.bytes ⟨16, 54, [0, 1, 0xFE, 0xFF]⟩).length = 11 := by decide +kernel

/-- The STARTED notice of the same example: a body of 8 bytes. -/
theorem test_started_notice :
    (QNotice.body ⟨.announce 1 .started none, 5⟩ false) = [5, 0, 0, 0, 0, 1, 0, 0xFF] := by
  decide +kernel

/-- R122: from 900 toward 0 the average becomes 675, from 1 toward 0 it becomes 0. -/
theorem test_socket_average : average (some 900) 0 4 = 675 ∧ average (some 1) 0 4 = 0 := by decide

/-- 09, "A sag at idle": the averages of the sag and of the recovery. -/
theorem test_voltage_average :
    average none 24100 8 = 24100 ∧ average (some 24100) 22500 8 = 23900 ∧
      average (some 23900) 21000 8 = 23537 ∧ average (some 22894) 24000 8 = 23032 := by decide

/-- The same example: 22,894 makes NORMAL LOW, 23,431 leaves LOW, 23,502 returns it to NORMAL. -/
theorem test_voltage_judged :
    judgeVoltage .normal 23000 21500 22894 = .low ∧ judgeVoltage .low 23000 21500 23431 = .low ∧
      judgeVoltage .low 23000 21500 23502 = .normal := by decide

/-- R154: 30,001 makes LOW, 29,001 and 30,000 leave it, 29,000 returns it. -/
theorem test_current_judged :
    judgeCurrent false 30000 30001 = true ∧ judgeCurrent true 30000 30000 = true ∧
      judgeCurrent true 30000 29001 = true ∧ judgeCurrent true 30000 29000 = false := by decide

/-- 08, "An ordinary case": 48, and 54 with the shed state NORMAL. -/
theorem test_seat_code_ordinary :
    seatCode { LevelUnit.cold with
        speed := 58, cls := some .stop, phase := some .speech, lift := 8, cap := 6, shed := 6 } 9
      (-4) = .code 48 ∧
    seatCode { LevelUnit.cold with
        speed := 58, cls := some .stop, phase := some .speech, lift := 8, cap := 6 } 9 (-4) =
      .code 54 := by decide

/-- 08, "At the top", "A muted seat during a safety warning", "At the floor". -/
theorem test_seat_code_edges :
    seatCode { LevelUnit.cold with speed := 150, lift := 12, cap := 12, shed := 12 } 15 0 =
      .code 60 ∧
    seatCode { LevelUnit.cold with
        speed := 72, cls := some .safety, phase := some .speech, lift := 10 } 0 (-4) = .code 60 ∧
    seatCode { LevelUnit.cold with shed := 12 } 1 (-24) = .code 0 := by decide

/-- 08, "The PA across an announcement": 60 in SPEECH, 56 in TAIL, MUTE without one. -/
theorem test_pa_code :
    LevelUnit.paCodeNow { LevelUnit.cold with
        speed := 58, paCap := 6, shed := 6, phase := some .speech, lift := 8 } = .code 60 ∧
    LevelUnit.paCodeNow { LevelUnit.cold with
        speed := 58, paCap := 6, shed := 6, phase := some .tail } = .code 56 ∧
    LevelUnit.paCodeNow { LevelUnit.cold with speed := 58, paCap := 6, shed := 6 } = .mute := by
  decide

/-- 03, "Reading the end of a short clip": 1,000 bytes are 4 blocks and 500 samples; block 3 primes. -/
theorem test_short_clip :
    (clipOf .ready 1000).writtenBlocks = 4 ∧ (clipOf .ready 1000).samples = some 500 ∧
      Reader.primed { Reader.idle .commentary with nextBlock := 4, buffer := [[], [], []] }
        (clipOf .ready 1000) = true ∧
      Reader.primed { Reader.idle .commentary with nextBlock := 3, buffer := [[], []] }
        (clipOf .ready 1000) = false := by decide

/-- R22: a threshold of 0 is 256, 1 to 15 are 16, above 4,096 is 4,096. -/
theorem test_threshold :
    [0, 1, 15, 16, 4096, 4097].map storedThreshold = [256, 16, 16, 16, 4096, 4096] := by decide

/-- 10, "A lamp failing open": the averages, and the expected current of 1,800 mA at level 60. -/
theorem test_zone_average :
    average (some 1790) 300 2 = 1045 ∧ average (some 1045) 300 2 = 672 ∧
      average (some 393) 300 2 = 346 ∧
      Zone.openJudged { Zone.cold with nominal := 3000 } 486 60 = false ∧
      Zone.openJudged { Zone.cold with nominal := 3000 } 393 60 = true := by decide

/-- R12: the page's transfers: 0 to 15 written, 16 to 31 read back, 32 to 47 written, 48 to 63 read back. -/
theorem test_check_order :
    [0, 15, 16, 31, 32, 47, 48, 63].map checkWrites =
      [true, true, false, false, true, true, false, false] := by decide

/-! ### Steps -/

/-- 01, "A run of grants": with the ring at 3 and C1, C7 and the loader waiting, C7 is granted. -/
theorem test_grant_ring :
    MemCtl.decide { MemCtl.cold with
      state := .ready, ring := 3, owed := 7
      waiting := vset (vset (vset MemCtl.cold.waiting 1 true) 7 true) 14 true } =
      some (.client 7) := by decide +kernel

/-- The same run: with 8 owed refreshes the refresh is urgent. -/
theorem test_grant_urgent :
    MemCtl.decide { MemCtl.cold with
      state := .ready, ring := 7, owed := 8, waiting := vset MemCtl.cold.waiting 1 true } =
      some .refresh := by decide +kernel

/-- 08: a SPEED of 200 is stored as 150 and answered CLAMPED, with noise term 18. -/
theorem test_speed_clamped :
    (after (.speed 9 [200]) part0).map (fun p => (p.level.speed, p.link.transmitting)) =
      some (150, some ⟨23, 9, [1, 150, 18]⟩) := by decide +kernel

/-- 12: ANNOUNCE of an undefined set is answered NOTFOUND with no place. -/
theorem test_announce_undefined :
    (after (.announce 54 [1]) part0).map (fun p => p.link.transmitting) =
      some (some ⟨16, 54, [9, 1, 0xFF, 0xFF]⟩) := by decide +kernel

/-- R22: CLIP-OPEN of clip 5 with no declared length and the default threshold. -/
theorem test_clip_open :
    (after (.clipOpen 1 [5, 0, 0, 0, 0, 0, 0, 0, 0]) part0).map
      (fun p => ((p.clip 5).state, (p.clip 5).threshold, p.link.transmitting)) =
      some (.loading, 256, some ⟨1, 1, [0, 5, 0, 0, 1]⟩) := by decide +kernel

/-- R7 of the link's tags: a frame with tag 0 is answered BAD-TAG with the status alone (R179). -/
theorem test_frame_bad_tag :
    (after (.frameReceived 16 0 [1] (frameCheck 16 0 [1])) part0).map
      (fun p => p.link.transmitting) = some (some ⟨16, 0, [8]⟩) := by decide +kernel

/-- R178: a wrong check sets LINK-ERROR with cause CHECK and nothing is answered. -/
theorem test_frame_bad_check :
    (after (.frameReceived 16 3 [1] 0) part0).map
      (fun p => (p.link.linkError, p.link.errorCause, p.link.transmitting)) =
      some (true, some .check, none) := by decide +kernel

/-- R105, R195: the first poll of a round to a SEEKING node: power OFF, LED OFF, gain MUTE. -/
theorem test_round_poll :
    (after (.roundStart 2) part0).map (fun p => (p.string 2).lastPoll.map Poll.bytes |>.map (·.take 4)) =
      some (some [0, 0, 0, 0xFF]) := by decide +kernel

/-- R106, R107: a valid answer of a SEEKING node at position 0 of string 2 brings seat 48 ONLINE. -/
theorem test_node_answer :
    ((after (.roundStart 2) part0).bind fun p =>
      after (.nodeAnswer 2 (answerBytes 0 ⟨⟨1, 2, 3⟩, 100⟩)) p).map
      (fun p => ((p.seat 48).node, (p.seat 48).baselines, (p.seat 48).socket.lastSample)) =
      some (.online, some ⟨1, 2, 3⟩, 100) := by decide +kernel

/-! ### Witnesses: for each statement with hypotheses, states and operands that meet them together -/

/-- R150, R166, R169: zone 0, lit at 60 in the interval, is disabled by a ZONE-SET before its sample is delivered: the
sample is stored with its level and not judged. -/
theorem test_sample_after_zone_set :
    ((after (.zoneSet 1 [0, 1, 0, 20, 0xD0, 7, 0])
        (part0.setZone 0 { Zone.cold with enabled := true, target := 60, level := 60 })).bind
      (after (.zoneSample ⟨0, 60000⟩ 60))).map
      (fun p => (vget p.supply.zoneSamples 0, (p.zone 0).fault, (p.zone 0).level)) =
      some (some ⟨60000, 60⟩, .ok, 0) := by decide +kernel

/-- R150, R166: zone 0, dark, comes to level 100 late in its interval, which ends within the on-phase; in the interval
of zone 1 it falls to 20 and rises to 50, by two selected scenes of fade time 0. Its sample is stored for zone 0 with
the level of its on-phase, a second one changes nothing, and zone 1, dark, has none. -/
theorem test_sample_outlasts_its_interval :
    let scenes := Vector.ofFn fun i : Fin 8 =>
      (⟨vset (Vector.replicate 8 0) 0 ([0, 100, 20, 50].getD i.val 0), 0⟩ : Scene)
    let p := { part0 with light := { part0.light with
      scenes := scenes
      zones := vset part0.light.zones 0 { Zone.cold with enabled := true } } }
    ([.sceneSelect 1 [1], .currentSample 500, .sceneSelect 2 [2], .sceneSelect 3 [3],
        .zoneSample ⟨0, 900⟩ 100, .zoneSample ⟨0, 800⟩ 50, .zoneSample ⟨1, 700⟩ 1].foldlM
      (fun q i => after i q) p).map
      (fun p => (vget p.supply.zoneSamples 0, vget p.supply.zoneSamples 1, p.supply.zoneIndex)) =
      some (some ⟨900, 100⟩, none, 1) := by
  decide +kernel

/-- The commands that a rich state holds ready: clips of every state, some in use. -/
def partC : Part :=
  { part0 with
    store := { part0.store with
      clips :=
        [(5, { clipOf .loading 300 with hold := 0 }), (6, clipOf .ready 1000),
          (7, { clipOf .ready 1000 with hold := 1 }), (8, { clipOf .loading 300 with hold := 1 }),
          (9, { clipOf .retiring 1000 with hold := 1, cause := some .deleted }),
          (10, clipOf .loading 512), (11, { clipOf .ready 1000 with setRefs := 1 }),
          (12, { clipOf .loading 4096 with firstPage := some 1, lastPage := some 1 })]
      pageMap := [(0, ⟨.clip, some 5, some 0, none⟩), (1, ⟨.clip, some 12, some 0, none⟩)]
      freeList := [⟨2, 65534⟩] } }

theorem witness_step :
    (on part0).pending = [] ∧ ({ on part0 with pending := [.samplePeriod] }).pending =
      .samplePeriod :: [] := by decide

/-- The invariants of the StepKeeps statements hold of a state whose steps go on. -/
theorem witness_invariants :
    Memory.wf (on part0).dram = true ∧ part0.link.bounded ∧ part0.codesInRange ∧ part0.alertRight ∧
      part0.targetsRight ∧ part0.supply.settingsRight ∧ part0.shedRight ∧ part0.volumesInRange ∧
      (on part0).quiet ∧ (after (.roundStart 0) part0).isSome = true := by decide +kernel

theorem witness_unwritten_read :
    faultOf (.readerReadCompletion 3)
      { part0 with mem := { part0.mem with device := .transfer 3 2 1 false } } =
      some (.unwrittenByte 8448) := by decide +kernel

/-- A part in its start-up, at a stage. -/
def starting (x : Stage) : Part :=
  { Part.cold with mem := { MemCtl.cold with state := .initialising, stage := x } }

theorem witness_startup :
    (on Part.cold).quiet ∧ Part.cold.mem.state = .off ∧ (starting .pause).mem.stage = .pause ∧
      (starting (.refresh 7)).mem.stage = .refresh 7 ∧
      (starting .modeSetting).mem.state = .initialising := by decide

theorem witness_refresh :
    let full := { part0 with mem := { part0.mem with owed := 8 } }
    (on part0).quiet ∧ part0.mem.state = .ready ∧ part0.mem.owed < 8 ∧ full.mem.owed = 8 ∧
      full.mem.state = .ready ∧
      ({ part0 with mem := { part0.mem with device := .refreshing, owed := 7 } }).mem.device =
        .refreshing := by decide

/-- Reader 1 asks for block 2 of page 9; reader 1 is the first waiting after ring position 15. -/
def partGrant : Part :=
  { part0.setReader 1 { Reader.idle .commentary with
      state := .priming, clip := some 6, page := some 9, nextBlock := 2, outstanding := true } with
    mem := { part0.mem with owed := 7, waiting := vset part0.mem.waiting 1 true } }

theorem witness_grant :
    partGrant.mem.state = .ready ∧ partGrant.mem.device = .idle ∧ partGrant.mem.owed ≠ 8 ∧
      vget partGrant.mem.waiting 1 = true ∧
      (∀ d : Fin 16, vget partGrant.mem.waiting d = true →
        ((1 : Fin 16).val + 15 - partGrant.mem.ring.val) % 16 ≤
          (d.val + 15 - partGrant.mem.ring.val) % 16) ∧
      partGrant.transferOf 1 = some ⟨9, 2, none⟩ ∧
      (∀ d : Fin 16, vget part0.mem.waiting d = false) ∧ part0.mem.owed = 0 := by decide +kernel

/-- The loader waits with 4 bytes for clip 5, whose loaded length is 300. -/
def partWrite : Part :=
  { partC with
    store := { partC.store with job := .fillWrite 1 5 [], buffer := [1, 2, 3, 4] }
    mem := { partC.mem with waiting := vset partC.mem.waiting 14 true } }

theorem witness_grant_write :
    partWrite.mem.decide = some (.client 14) ∧
      partWrite.transferOf 14 = some ⟨0, 1, some (300, [1, 2, 3, 4])⟩ ∧
      300 + [1, 2, 3, 4].length ≤ 268435456 ∧ partGrant.mem.decide = some (.client 1) ∧
      partWrite.store.job.clip = some 5 ∧
      pageAt partWrite.store.pageMap ((partWrite.clip 5).loaded / 4096)
        (partWrite.clip 5).firstPage = some 0 := by decide +kernel

/-- Reader 1's read is in progress, and its block has been written. -/
def stateRead : State :=
  { dram := Memory.write [] 37376 (List.replicate 256 7)
    part := { partGrant with mem := { part0.mem with device := .transfer (ringOf 1) 9 2 false } }
    pending := [] }

theorem witness_read :
    stateRead.quiet ∧ stateRead.part.mem.device = .transfer (ringOf 1) 9 2 false ∧
      Memory.readBytes stateRead.dram (9 * 4096 + 2 * 256) 256 = .ok (List.replicate 256 7) ∧
      (stateRead.part.reader 1).state = .priming ∧ (stateRead.part.reader 1).clip ≠ none ∧
      Memory.readBytes [] (9 * 4096 + 2 * 256) 256 = .error 37376 := by decide +kernel

theorem witness_loader :
    let p := { partWrite with mem := { partWrite.mem with device := .transfer 14 0 1 false } }
    let q := { p with store := { p.store with job := .closeWrite 1 5 } }
    (on p).quiet ∧ p.mem.device = .transfer 14 0 1 false ∧ p.store.job = .fillWrite 1 5 [] ∧
      (p.clip 5).state = .loading ∧ q.store.job = .closeWrite 1 5 ∧
      (∀ r, (q.reader r).clip = some 5 → (q.reader r).position < (q.clip 5).loaded / 2) := by
  decide +kernel

/-- Reader 3 waits behind clip 10, which becomes playable by the write of its 16th block. -/
def partGrows : Part :=
  let p := partC.setClip 10 { clipOf .loading 3840 with threshold := 16 }
  let p := p.setReader 3 { Reader.idle .commentary with
    state := .priming, clip := some 10, wait := true, page := some 7 }
  { p with
    mem := { p.mem with device := .transfer 14 0 15 false }
    store := { p.store with job := .fillWrite 1 10 [8, 9], buffer := List.replicate 256 1 } }

theorem witness_loader_tells_readers :
    let x := partGrows.clip 10
    let y := partGrows.reader 3
    let starved := { y with state := .starved, wait := false, nextBlock := 15 }
    partGrows.store.job = .fillWrite 1 10 [8, 9] ∧ x.state = .loading ∧ y.clip = some 10 ∧
      x.loaded / 256 < (x.loaded + partGrows.store.buffer.length) / 256 ∧
      x.threshold ≤ (x.loaded + partGrows.store.buffer.length) / 256 ∧ x.sent = false ∧
      y.page = some 7 ∧ y.state ≠ .idle ∧ y.buffer.length ≤ 6 ∧ y.nextBlock < 16 ∧
      y.outstanding = false ∧ starved.state = .starved ∧ starved.nextBlock < 16 := by decide +kernel

/-- A running check on two pages, the first passed, at a transfer. -/
def partCheck (made : Nat) : Part :=
  { part0 with
    mem := { part0.mem with device := .transfer 15 3 0 false }
    store := { part0.store with
      check := { Check.cold with
        running := true, target := 2, made := made
        batch := [⟨2, .passed⟩, ⟨3, .untested⟩] } } }

theorem witness_checker :
    (on (partCheck 0)).quiet ∧ (partCheck 62).mem.device = .transfer 15 3 0 false ∧
      (partCheck 62).store.check.made < 63 ∧ (partCheck 0).store.check.current ≠ none ∧
      (partCheck 0).store.check.made / 16 % 2 = 0 ∧
      (partCheck 63).store.check.target ≤
        (partCheck 63).store.check.tested + (partCheck 63).store.check.batch.length ∧
      (∀ x ∈ [BatchPage.mk 2 .passed], x.result ≠ .untested) ∧
      (partCheck 63).store.check.batch = [⟨2, .passed⟩] ++ [⟨3, .untested⟩] ∧
      (partCheck 63).store.job.waits = false ∧ 16 / 16 % 2 = 1 := by decide +kernel

theorem witness_reset_ends :
    let p := { part0 with link := { part0.link with
      entering := true, slots := [⟨.standby, 4, [], .taken⟩] } }
    let q := { part0 with link := { part0.link with
      resetting := true, slots := [⟨.partReset, 4, [], .taken⟩] } }
    (on p).quiet ∧ p.link.entering = true ∧ p.mem.state = .ready ∧ p.mem.device = .idle ∧
      p.mem.owed = 0 ∧ p.store.clearing = none ∧
      p.link.takenRequest .standby = some ⟨.standby, 4, [], .taken⟩ ∧ q.link.resetting = true ∧
      q.mem.device.busy = false ∧
      q.link.takenRequest .partReset = some ⟨.partReset, 4, [], .taken⟩ := by decide +kernel

theorem witness_clearing :
    let p := { partC with store := { partC.store with clearing := some .warm } }
    p.store.clearing = some .warm ∧ tableSorted p.store.clips = true ∧
      (p.clip 5).state = .loading ∧ (p.clip 9).state = .retiring ∧ (p.clip 6).state = .ready := by
  decide +kernel

/-- A LOADING clip on pages 30 and 29, a RETIRING one on 20 and 23, and a running check with a page of each
result in its batch. -/
def partReset : Part :=
  { part0 with
    store := { part0.store with
      clips := [(5, { clipOf .loading 300 with pageCount := 2, firstPage := some 30 }),
        (6, { clipOf .ready 1000 with hold := 1 }),
        (9, { clipOf .retiring 1000 with hold := 1, pageCount := 2, firstPage := some 20 })]
      pageMap := [(20, ⟨.clip, some 9, some 0, some 23⟩), (23, ⟨.clip, some 9, some 1, none⟩),
        (29, ⟨.clip, some 5, some 1, none⟩), (30, ⟨.clip, some 5, some 0, some 29⟩)]
      freeList := [⟨50, 3⟩]
      check := { Check.cold with
        running := true, tag := 6, batch := [⟨40, .passed⟩, ⟨41, .failed⟩, ⟨42, .untested⟩] } } }

theorem witness_clearing_pages :
    let k := partReset.store.check
    let back := (chainPages partReset.store.pageMap 2 (some 30) ++
      chainPages partReset.store.pageMap 2 (some 20)) ++
      (k.batch.filter fun b => b.result ≠ .failed).map BatchPage.page
    back = [30, 29, 20, 23, 40, 42] ∧
      (back ++ (k.batch.filter fun b => b.result = .failed).map BatchPage.page).Nodup ∧
      tableSorted partReset.store.clips = true ∧ partReset.active = true ∧
      partReset.mem.device.busy = false ∧ (on partReset).quiet ∧
      partReset.canTake .partReset 1 [] ∧ partReset.canTake .standby 1 [] ∧
      (after (.partReset 1 []) partReset).map (fun p => runsPages p.store.freeList) =
        some [50, 51, 52, 30, 29, 20, 23, 40, 42] := by decide +kernel

/-- A fill of clip 12, whose one page is full, that waits for a page. -/
def partWait : Part :=
  { partC with store := { partC.store with job := .fillWait 2 12 [1, 2] } }

theorem witness_wait :
    let check := { Check.cold with running := true, target := 3, tested := 3, tag := 9 }
    let ends := { partWait with store := { partWait.store with check := check } }
    let goesOn := { ends with store := { ends.store with check := { check with target := 9 } } }
    let full := { ends with store := { ends.store with freeList := [] } }
    let batch := { full with store := { full.store with
      check := { check with batch := [⟨2, .untested⟩] } } }
    (on ends).quiet ∧ ends.mem.state = .ready ∧ ends.store.job = .fillWait 2 12 [1, 2] ∧
      ends.store.check.running = true ∧ ends.store.check.batch = [] ∧
      runsPages full.store.freeList = [] ∧ full.store.check.batch = [] ∧
      batch.store.check.batch ≠ [] ∧ goesOn.store.check.tested < goesOn.store.check.target ∧
      runsPages [⟨2, 2⟩] = 2 :: [3] ∧ ([1, 2] : Bytes) ≠ [] ∧
      4096 * (ends.clip 12).pageCount < (ends.clip 12).loaded + [1, 2].length ∧
      batch.canTake .clipFill 1 [12, 0, 0, 16, 0, 0, 8, 9] := by decide +kernel

/-- The checker's clauses at their edges: a transfer of a write and of a read-back, a page that fails with another
page after it, and a last page that fails with more of the target to come. -/
theorem witness_checker_edges :
    let k := { (partCheck 16).store.check with
      batch := [⟨2, .passed⟩, ⟨3, .untested⟩, ⟨4, .untested⟩] }
    let more := { (partCheck 63).store.check with target := 40 }
    (partCheck 5).store.check.current = some 3 ∧ (partCheck 63).store.check.made < 64 ∧
      k.batch = [⟨2, .passed⟩] ++ ⟨3, .untested⟩ :: ⟨4, .untested⟩ :: [] ∧
      k.made / 16 % 2 = 1 ∧ (partCheck 63).store.check.made = 63 ∧
      more.tested + 2 < more.target ∧ runsPages [⟨7, 1⟩] = [7] ∧
      (partWait.store.job.waits = true) := by decide +kernel

theorem witness_clip_requests :
    partC.canTake .clipOpen 1 [4, 0, 0, 0, 0, 0, 0, 0, 1, 9, 0, 0, 0] ∧
      readOpen [4, 0, 0, 0, 0, 0, 0, 0, 1, 9, 0, 0, 0] = some ⟨4, 0, 0, [9]⟩ ∧
      (partC.clip 4).state = .free ∧ partC.canTake .clipFill 1 [5, 0, 44, 1, 0, 0, 8, 9] ∧
      b32 [5, 0, 44, 1, 0, 0, 8, 9] 2 = (partC.clip 5).loaded ∧
      (partC.clip 5).loaded + 2 ≤ 4096 * (partC.clip 5).pageCount ∧
      partC.canTake .clipFill 1 [12, 0, 0, 16, 0, 0, 8, 9] ∧
      b32 [12, 0, 0, 16, 0, 0, 8, 9] 2 = (partC.clip 12).loaded ∧
      4096 * (partC.clip 12).pageCount < (partC.clip 12).loaded + 2 ∧
      runsPop partC.store.freeList = some (2, [⟨3, 65533⟩]) ∧
      partC.canTake .clipClose 1 [5, 0] ∧ (partC.clip 5).loaded % 256 ≠ 0 ∧
      partC.canTake .clipClose 1 [10, 0] ∧ (partC.clip 10).loaded % 256 = 0 ∧
      (∀ r, (partC.reader r).clip ≠ some 10) := by decide +kernel

theorem witness_clip_ends :
    partC.canTake .clipDrop 1 [5, 0] ∧ (partC.clip 5).hold = 0 ∧ partC.canTake .clipDelete 1 [6, 0] ∧
      (partC.clip 6).state = .ready ∧ (partC.clip 6).setRefs = 0 ∧ (partC.clip 6).hold = 0 ∧
      (partC.clip 7).state = .ready ∧ 1 ≤ (partC.clip 7).hold ∧ 1 ≤ (partC.clip 11).setRefs ∧
      (partC.clip 8).state = .loading ∧ 1 ≤ (partC.clip 8).hold := by decide +kernel

theorem witness_clip_refusals :
    readOpen [4] = none ∧ readOpen [0, 4, 0, 0, 0, 0, 0, 0, 0] = some ⟨1024, 0, 0, []⟩ ∧
      readOpen [4, 0, 0, 0, 0, 0, 0, 0, 2, 9, 0, 0, 0, 9, 0, 0, 0] = some ⟨4, 0, 0, [9, 9]⟩ ∧
      ¬ [9, 9].Pairwise (· < ·) ∧ (partC.clip 5).state ≠ .free ∧ (([1, 2, 3] : Bytes).drop 6).length < 2 ∧
      readFill [6, 0, 0, 0, 0, 0, 1, 2] = some ⟨6, 0, [1, 2]⟩ ∧ (partC.clip 6).state = .ready ∧
      (partC.clip 5).loaded ≠ 0 ∧ b16 [0, 4] 0 = 1024 ∧ (partC.clip 9).state = .retiring ∧
      partC.canTake .clipDrop 1 [9, 0] ∧ partC.canTake .clipDelete 1 [0, 4] := by decide +kernel

/-- A fill past the declared length, one with no page left, one of no clip, and a close with nothing loaded. -/
theorem witness_fill_refusals :
    let p := partC.setClip 5 { clipOf .loading 300 with declared := some 150 }
    let q := (partC.setClip 4 { Clip.empty with state := .loading })
    let full := { partC with store := { partC.store with freeList := [] } }
    p.canTake .clipFill 1 [5, 0, 44, 1, 0, 0, 8, 9] ∧
      readFill [5, 0, 44, 1, 0, 0, 8, 9] = some ⟨5, 300, [8, 9]⟩ ∧
      (p.clip 5).declared = some 150 ∧ 2 * 150 < 300 + [8, 9].length ∧
      readFill [0, 4, 44, 1, 0, 0, 8, 9] = some ⟨1024, 300, [8, 9]⟩ ∧
      readFill [12, 0, 0, 16, 0, 0, 8, 9] = some ⟨12, 4096, [8, 9]⟩ ∧
      full.canTake .clipFill 1 [12, 0, 0, 16, 0, 0, 8, 9] ∧ full.store.check.batch = [] ∧
      runsPages full.store.freeList = [] ∧ (q.clip 4).loaded = 0 ∧
      q.canTake .clipClose 1 [4, 0] ∧ (([5, 0, 1, 1, 1, 1, 7] : Bytes).drop 6).length % 2 = 1 := by
  decide +kernel

theorem witness_queries :
    part0.canTake .clipQuery 1 [5, 0] ∧ part0.canTake .storeQuery 1 [0, 0] ∧
      part0.canTake .streamQuery 1 [11] ∧ part0.canTake .queueQuery 1 [255] ∧
      part0.canTake .queueQuery 1 [63] ∧ part0.canTake .supplyQuery 1 [] ∧
      part0.canTake .deckQuery 1 [] ∧ part0.canTake .partIdent 1 [] := by decide +kernel

theorem witness_store_check :
    (on part0).quiet ∧ part0.mem.state = .ready ∧ part0.canTake .storeCheck 1 [] ∧
      part0.store.check.running = false ∧ runsLength part0.store.freeList ≠ 0 ∧
      (partCheck 0).canTake .storeCheck 1 [] ∧ (partCheck 0).store.check.running = true ∧
      runsPages [] = [] := by decide +kernel

/-- Reader 2 plays clip 6 from a buffered block. -/
def partPlay : Part :=
  partC.setReader 2 { Reader.idle .commentary with
    state := .running, clip := some 6, position := 130, nextBlock := 2, page := some 0
    buffer := [List.replicate 256 1] }

theorem witness_sample :
    (on partPlay).quiet ∧ (partPlay.reader 2).clip = some 6 ∧
      (∀ r, (partPlay.reader r).stopPoint = none) ∧
      (∀ r, (partPlay.reader r).state = .running → (partPlay.reader r).buffer ≠ []) ∧
      (partPlay.clip 6).pastEnd (partPlay.reader 2).position = false := by decide +kernel

theorem witness_reader_ends :
    let cut := { partPlay.reader 2 with stopPoint := some 130 }
    let done := { partPlay.reader 2 with position := 500 }
    cut.stopPoint = some 130 ∧ 130 ≤ cut.position ∧ (partC.clip 6).pastEnd 130 = false ∧
      done.stopPoint = none ∧ done.state = .running ∧
      (partC.clip 6).pastEnd done.position = true := by decide +kernel

/-! ### Witnesses, commentary and announcements -/

/-- Languages 0 and 1 enabled; the reel of 0 has cue 3 on clip 6 and cue 4, a jump, on clip 10. -/
def partL : Part :=
  let p := partC.setLanguage 0 { Language.cold true [0x45] with
    stream := .idle, reel := [(3, ⟨6, false⟩), (4, ⟨10, true⟩)] }
  p.setLanguage 1 { Language.cold true [0x46] with stream := .idle }

/-- LANG-SET for language 2: ENABLE, tag "D", fallback none, trim -30, LEAVE, LEAVE. -/
def langBody : Bytes := [2, 0, 1, 0x44, 0xFF, 0xE2, 1, 2]

/-- LANG-SET for language 1: DISABLE. -/
def disableBody : Bytes := [1, 1, 1, 0x44, 0xFF, 0, 1, 2]

theorem witness_lang_set :
    partL.canTake .langSet 1 langBody ∧
      readLang langBody = some ⟨2, 0, [0x44], 255, -30, 1, 2⟩ ∧
      (∀ b ∈ ([0x44] : Bytes), 0x20 ≤ b.toNat ∧ b.toNat ≤ 0x7E) ∧
      (255 : Nat) = ((none : Option Lang).map Fin.val).getD 255 ∧
      partL.canTake .langSet 1 disableBody ∧
      readLang disableBody = some ⟨1, 1, [0x44], 255, 0, 1, 2⟩ ∧ (1 : Lang) ≠ partL.lang.default ∧
      (partL.language 1).enabled = true := by decide +kernel

theorem witness_reels :
    partL.canTake .reelSet 1 [0, 9, 6, 0, 1, 3, 255, 255, 0] ∧
      readReel [0, 9, 6, 0, 1, 3, 255, 255, 0] = some ⟨0, [⟨9, 6, 1⟩, ⟨3, 65535, 0⟩]⟩ ∧
      (([⟨9, 6, 1⟩, ⟨3, 65535, 0⟩] : List ReelItem).map ReelItem.cue).Nodup ∧
      (∀ x ∈ ([⟨9, 6, 1⟩, ⟨3, 65535, 0⟩] : List ReelItem),
        (x.clip < 1024 ∨ x.clip = 65535) ∧ x.jump ≤ 1) ∧
      readReel [12, 9, 6, 0, 1] = some ⟨12, [⟨9, 6, 1⟩]⟩ ∧
      readReel [0, 9, 0, 4, 1] = some ⟨0, [⟨9, 1024, 1⟩]⟩ ∧ ¬ ([9, 9] : List Nat).Nodup ∧
      (∀ n < 257, 1 ≤ n → ([0, 9] : Bytes).length ≠ 1 + 4 * n) ∧
      partL.canTake .reelClear 1 [0] ∧ b8 [12] 0 = 12 := by decide +kernel

theorem witness_cue_waits :
    let p := partL.setLanguage 0 { partL.language 0 with stream := .parked }
    (on p).quiet ∧ p.canTake .cue 1 [3] ∧ (p.language 0).enabled = true ∧
      tfind (p.language 0).reel 3 = some ⟨6, false⟩ ∧
      (∀ l, (p.language l).enabled = true → (tfind (p.language l).reel 3).isSome = true →
        (p.language l).stream = .parked) := by decide +kernel

/-- Stream 0 plays clip 10, with a mark at 100, from sample 40. -/
def partJump : Part :=
  let p := partL.setClip 10 { clipOf .loading 512 with hold := 1, marks := [20, 100] }
  let p := p.setReader 0 { Reader.idle .commentary with
    state := .running, clip := some 10, position := 40 }
  p.setLanguage 0 { partL.language 0 with
    stream := .playing, current := some ⟨3, 10, false, none, true⟩ }

theorem witness_cue_starts :
    partL.canTake .cue 1 [3] ∧ (partL.language 0).enabled = true ∧
      tfind (partL.language 0).reel 3 = some ⟨6, false⟩ ∧
      (∀ m : Lang, m ≠ 0 → (partL.language m).enabled = false ∨
        tfind (partL.language m).reel 3 = none) ∧
      (partL.reader (chan 0)).owner = .commentary ∧ (partL.language 0).resume = none ∧
      (partL.language 0).stream = .idle ∧ partL.active = true ∧ partL.lang.hold = false ∧
      (partL.reader (chan 0)).clip = none ∧ (partL.clip 6).hold < 15 ∧
      (partL.clip 6).pastEnd 0 = false ∧ partJump.canTake .cue 1 [4] ∧
      tfind (partJump.language 0).reel 4 = some ⟨10, true⟩ ∧
      100 ∈ (partJump.clip 10).marks ∧ (partJump.reader (chan 0)).position ≤ 100 ∧
      (partJump.clip 10).marks.Pairwise (· < ·) ∧
      (∀ m' ∈ (partJump.clip 10).marks, m' < 100 → m' < (partJump.reader (chan 0)).position) := by
  decide +kernel

/-- Stream 0 plays clip 7 to its end, with entries waiting. -/
def playing7 (w : List Entry) : Part :=
  partL.setLanguage 0 { partL.language 0 with
    stream := .playing, current := some ⟨3, 7, false, none, true⟩, waiting := w }

/-- The same with the reader, the only one with a clip, at the end of clip 7. -/
def ending7 (w : List Entry) : Part :=
  (playing7 w).setReader 0 { Reader.idle .commentary with
    state := .running, clip := some 7, position := 500 }

/-- A started CURRENT entry of a PLAYING stream, with an entry waiting whose clip is READY, and one whose clip is
FREE. -/
theorem witness_reports :
    let p := playing7 [⟨4, 6, false, none, false⟩]
    let q := playing7 [⟨4, 4, false, none, false⟩]
    (p.language 0).current = some ⟨3, 7, false, none, true⟩ ∧ (p.language 0).stream = .playing ∧
      p.active = true ∧ (p.reader (chan 0)).owner = .commentary ∧ (p.reader (chan 0)).clip = none ∧
      (p.clip 6).state = .ready ∧ (p.clip 6).hold < 15 ∧ (p.clip 6).pastEnd 0 = false ∧
      (q.clip 4).state = .free := by decide +kernel

/-- The reader at the end of its clip holds the clip's one hold (R32), whatever entries wait: none, one of another
clip, or one of the same clip. -/
theorem witness_clip_played_out : ∀ w ∈ [[], [⟨4, 6, false, none, false⟩], [⟨4, 7, false, none, false⟩]],
    let e := ending7 w
    (on e).quiet ∧ e.active = true ∧ (e.reader (chan 0)).state = .running ∧
      (e.reader (chan 0)).owner = .commentary ∧ (e.reader (chan 0)).stopPoint = none ∧
      (e.reader (chan 0)).clip = some 7 ∧ (e.clip 7).pastEnd (e.reader (chan 0)).position = true ∧
      (e.clip 7).state = .ready ∧ (e.clip 7).hold = 1 ∧ (e.language 0).resume = none ∧
      (∀ o, o ≠ chan 0 → (e.reader o).clip = none) ∧ (e.language 0).stream = .playing ∧
      (∀ x ∈ w, (e.clip x.clip).state = .ready ∧ (e.clip x.clip).hold < 15 ∧
        (e.clip x.clip).pastEnd 0 = false) := by decide +kernel

/-- R32, R71: the clip's last hold is released and leaves it READY; the entry that waits takes its own. -/
theorem test_clip_played_out :
    [[], [⟨4, 6, false, none, false⟩], [⟨4, 7, false, none, false⟩]].map (fun w =>
      (after .samplePeriod (ending7 w)).map fun t => ((t.language 0).stream,
        (t.language 0).current.map Entry.clip, (t.clip 7).state, (t.clip 7).hold, (t.clip 6).hold)) =
      [some (.idle, none, .ready, 0, 0), some (.playing, some 6, .ready, 0, 1),
        some (.playing, some 7, .ready, 1, 0)] := by decide +kernel

/-- SET-DEFINE of set 3: SERVICE, default clip 6, no PA or chime clip, no cue, once, no expiry. -/
def setBody : Bytes := [3, 2, 6, 0, 0xFF, 0xFF, 0xFF, 0xFF, 0xFF, 1, 0, 0, 0, 255, 0]

/-- The record that it writes. -/
def set3 : AnnSet := { AnnSet.cold with defined := true, defaultClip := 6 }

theorem witness_set_define :
    partC.ann.queued 3 = false ∧ partC.ann.plays 3 = false ∧ partC.canTake .setDefine 1 setBody ∧
      (readSet setBody).bind SetReq.record = some (3, set3) ∧
      (∀ c ∈ set3.namedClips, (partC.clip c).state = .ready ∧
        (partC.clip c).setRefs + set3.namedClips.count c ≤ 64) ∧
      partC.canTake .setRemove 1 [3] := by decide +kernel

/-- Set 3 is SERVICE, set 4 STOP, set 5 SAFETY, with a chime on clip 6. -/
def partA : Part :=
  let s := fun (k : SetClass) => { set3 with cls := k, chimeClip := some 6 }
  { partC with ann := { partC.ann with
    sets := vset (vset (vset partC.ann.sets 3 (s .service)) 4 (s .stop)) 5 (s .safety) } }

/-- An entry of a set. -/
def entryOf (i : SetId) (k : SetClass) : QEntry := ⟨i, k, 0, none, 1⟩

/-- A STOP announcement of set 4 in a phase, with a queue. -/
def partPlays (ph : Phase) (q : List QEntry) : Part :=
  { partA with ann := { partA.ann with
    queue := q
    playing := some ⟨entryOf 4 .stop, ph, 1, [], false, false,
      if ph = .tail then some 50 else none⟩ } }

/-- Eight entries, the third of them SERVICE. -/
def fullQueue : List QEntry :=
  [entryOf 10 .stop, entryOf 11 .stop, entryOf 12 .service, entryOf 13 .stop, entryOf 14 .stop,
    entryOf 15 .stop, entryOf 16 .stop, entryOf 17 .stop]

theorem witness_announce_queues :
    let p := partPlays .speech [entryOf 10 .stop]
    (on p).quiet ∧ p.canTake .announce 1 [3] ∧ (p.annSet 3).defined = true ∧
      p.ann.queued 3 = false ∧ p.ann.plays 3 = false ∧ p.ann.queue.length < 8 ∧
      (p.annSet 3).cls ≠ .safety ∧ p.ann.plays 4 = true ∧
      (partPlays .speech fullQueue).ann.queue.length = 8 ∧
      (partPlays .speech fullQueue).canTake .announce 1 [3] := by decide +kernel

/-- A SAFETY announcement in speech lets an arriving SAFETY entry wait, and one of class STOP displaces. -/
theorem witness_announce_full :
    let r : Playing := ⟨entryOf 20 .safety, .speech, 1, [], true, false, none⟩
    let p := { partA with ann := { partA.ann with queue := fullQueue, playing := some r } }
    p.canTake .announce 1 [4] ∧ (p.annSet 4).cls = .stop ∧ p.ann.queued 4 = false ∧
      p.ann.plays 4 = false ∧
      p.ann.queue = [entryOf 10 .stop, entryOf 11 .stop] ++ entryOf 12 .service ::
        [entryOf 13 .stop, entryOf 14 .stop, entryOf 15 .stop, entryOf 16 .stop,
          entryOf 17 .stop] ∧ r.entry.cls = .safety ∧ r.phase ≠ .tail ∧
      (∀ y ∈ [entryOf 13 .stop, entryOf 14 .stop], y.cls ≠ .service) := by decide +kernel

/-- A SAFETY arrival at a full queue displaces the newest entry of the general group: the last, or the one before
the SAFETY entries. -/
theorem witness_safety_displaces :
    let r : Playing := ⟨entryOf 20 .safety, .speech, 1, [], true, false, none⟩
    let p := { partA with ann := { partA.ann with queue := fullQueue, playing := some r } }
    p.canTake .announce 1 [5] ∧ (p.annSet 5).cls = .safety ∧ p.ann.queued 5 = false ∧
      p.ann.plays 5 = false ∧ p.ann.queue.length = 8 ∧
      p.ann.queue = fullQueue.take 7 ++ entryOf 17 .stop :: [] ∧
      (entryOf 17 .stop).cls ≠ .safety ∧ r.entry.cls = .safety ∧ r.phase ≠ .tail := by
  decide +kernel

theorem witness_announce_starts :
    (on partA).quiet ∧ partA.canTake .announce 1 [5] ∧ (partA.annSet 5).defined = true ∧
      (partA.annSet 5).chimeClip = some 6 ∧ partA.ann.queue = [] ∧ partA.ann.playing = none ∧
      partA.active = true ∧ (partA.clip 6).state = .ready ∧ (partA.clip 6).hold < 15 ∧
      (partA.clip 6).pastEnd 0 = false ∧
      (∀ l : Lang, (partA.reader (chan l)).owner = .commentary) ∧
      (partA.reader 13).clip = none := by decide +kernel

theorem witness_safety_cuts :
    let p := partPlays .speech [entryOf 10 .stop]
    let p := { p with bank := { p.bank with
      readers := Vector.replicate 14 (Reader.idle .announcement) } }
    p.canTake .announce 1 [5] ∧ (p.annSet 5).cls = .safety ∧ p.ann.queue.length ≤ 8 ∧
      p.ann.queued 5 = false ∧ (∀ e ∈ p.ann.queue, e.cls ≠ .safety) ∧
      (entryOf 4 .stop).deadline = none ∧
      (∀ q, (p.reader q).owner = .announcement) ∧ p.active = true := by decide +kernel

/-- Eight STOP entries wait, or eight with a SERVICE entry third; the cut entry's deadline has been reached, or has
not. -/
theorem witness_safety_cuts_full :
    let stops := List.map (fun n : Nat => entryOf (Fin.ofNat 64 n) .stop) [10, 11, 12, 13, 14, 15, 16, 17]
    let p := partPlays .speech stops
    let p := { p with time := 9, bank := { p.bank with
      readers := Vector.replicate 14 (Reader.idle .announcement) } }
    let mixed := stops.set 2 (entryOf 12 .service)
    p.canTake .announce 1 [5] ∧ p.ann.queue.length ≤ 8 ∧ p.ann.queued 5 = false ∧
      (∀ e ∈ p.ann.queue, e.cls ≠ .safety) ∧ (p.ann.queue.take 7).length = 7 ∧
      (∀ e ∈ p.ann.queue.take 7, e.cls ≠ .service) ∧
      mixed.take 7 = stops.take 2 ++ entryOf 12 .service :: (mixed.take 7).drop 3 ∧
      (∀ e ∈ (mixed.take 7).drop 3, e.cls ≠ .service) ∧ atOrAfter p.time 9 = true ∧
      atOrAfter p.time 10 = false ∧ (∀ q, (p.reader q).owner = .announcement) ∧
      (∀ q d, (p.reader q).clip = some d → (p.clip d).state ≠ .retiring) ∧
      p.active = true := by decide +kernel

theorem witness_announce_ends :
    let e : QEntry := { entryOf 10 .stop with deadline := some 90 }
    let p := partPlays .speech [e]
    let t := partPlays .tail []
    p.canTake .announceCancel 1 [10] ∧ queuePlace 10 p.ann.queue = some 0 ∧ e ∈ p.ann.queue ∧
      (∀ e' ∈ p.ann.queue, e'.set = 10 → e' = e) ∧ e.deadline = some 90 ∧
      t.ann.playing.bind Playing.tailEnd = some 50 ∧ t.ann.queue = [] ∧
      t.canTake .announceCancel 1 [4] ∧ (partPlays .speech []).canTake .announceCancel 1 [4] := by
  decide +kernel

/-- A set of one repetition, without and with a chime, a part for the PA and a fallback's part. -/
def setRun (chime : Option ClipId) (repeats tail : Nat) : AnnSet :=
  { set3 with
    items := [(3, 7)], chimeClip := chime, lightCue := some 2, repeats := repeats, lift := 4
    tail := tail }

/-- Language 1 falls back on language 3 and its stream 0 is playing; set 6 speaks at once, sets 7 and 8 chime. -/
def partRun : Part :=
  let p := partL.setLanguage 1 { partL.language 1 with fallback := some 3 }
  { p with ann := { p.ann with
    sets := vset (vset (vset p.ann.sets 6 (setRun none 1 3)) 7 (setRun (some 6) 2 0)) 8
      { setRun (some 6) 1 0 with cls := .safety } } }

/-- An announcement of a set in a phase and repetition, its readers idle under the announcement, stream 0 suspended
with a resume record. -/
def partSpeaks (i : SetId) (ph : Phase) (rep : Nat) (channels : List Lang) (pa : Bool) : Part :=
  let p := partRun.setLanguage 0 { partRun.language 0 with
    stream := .suspended, current := some ⟨3, 6, false, some 300, true⟩, resume := some ⟨6, 200⟩ }
  { p with
    bank := { p.bank with readers := Vector.replicate 14 (Reader.idle .announcement) }
    lang := { p.lang with hold := true }
    ann := { p.ann with
      playing := some ⟨entryOf i .service, ph, rep, channels, pa, ph = .chime, none⟩ } }

/-- Starts: in SPEECH without a chime, and by a SAFETY head that cuts a tail short. -/
theorem witness_announcement_starts :
    let p := { partRun with ann := { partRun.ann with queue := [entryOf 6 .service] } }
    let r : Playing := ⟨entryOf 4 .stop, .tail, 1, [], false, false, some 50⟩
    let q := { partRun with ann := { partRun.ann with
      queue := [entryOf 8 .safety], playing := some r } }
    p.active = true ∧ p.ann.playing = none ∧ p.ann.queue = entryOf 6 .service :: [] ∧
      (p.annSet 6).chimeClip = none ∧
      (∀ c ∈ (p.annSet 6).namedClips, (p.clip c).state = .ready ∧ 2 ≤ (p.clip c).loaded ∧
        (p.clip c).hold ≤ 2) ∧
      (∀ l : Lang, (p.reader (chan l)).owner = .commentary) ∧ (p.reader 12).clip = none ∧
      q.ann.playing = some r ∧ r.phase = .tail ∧ (q.annSet 8).chimeClip = some 6 ∧
      (q.clip 6).state = .ready ∧ (q.clip 6).hold < 15 ∧ (q.reader 13).clip = none := by
  decide +kernel

/-- The end of the chime, of a part with another one speaking, and of the last part: before the last repetition,
into a tail, and with a tail of 0 s. -/
theorem witness_announcement_runs :
    let idle := fun (p : Part) => ∀ o : ReaderId, o.val ≤ 12 →
      (p.reader o).owner = .announcement ∧ (p.reader o).clip = none
    let ready := fun (p : Part) (i : SetId) => ∀ c ∈ (p.annSet i).namedClips,
      (p.clip c).state = .ready ∧ 2 ≤ (p.clip c).loaded ∧ (p.clip c).hold ≤ 2
    let c := partSpeaks 7 .chime 1 [] false
    let s := partSpeaks 7 .speech 1 [0, 1] true
    let a := partSpeaks 7 .speech 1 [1] false
    let b := partSpeaks 6 .speech 1 [] true
    let z := partSpeaks 7 .speech 2 [1] false
    idle c ∧ ready c 7 ∧ c.active = true ∧ c.ann.playing.map Playing.phase = some .chime ∧
      ([0, 1] : List Lang).filter (fun m => decide (m ≠ 0)) ≠ [] ∧
      s.ann.playing.map Playing.channels = some [0, 1] ∧ idle a ∧ ready a 7 ∧
      (∀ m ∈ ([1] : List Lang), m = 1) ∧ 1 < (a.annSet 7).repeats ∧ (b.annSet 6).repeats ≤ 1 ∧
      (b.annSet 6).tail ≠ 0 ∧ b.ann.queue.head? = none ∧ (z.annSet 7).repeats ≤ 2 ∧
      (z.annSet 7).tail = 0 ∧ z.ann.queue = [] := by decide +kernel

/-- The streams at the tail: one with a resume record, one with a WAITING entry, one with neither. -/
theorem witness_streams_resume :
    let p := partSpeaks 6 .speech 1 [] true
    let w := p.setLanguage 0 { p.language 0 with
      resume := none, current := none, waiting := [⟨3, 6, false, none, false⟩] }
    (p.language 0).stream = .suspended ∧ (p.language 0).resume = some ⟨6, 200⟩ ∧
      (p.clip 6).state = .ready ∧ (p.clip 6).pastEnd 200 = false ∧ (p.reader (chan 0)).clip = none ∧
      (w.language 0).resume = none ∧ (w.language 0).waiting = ⟨3, 6, false, none, false⟩ :: [] ∧
      (p.language 1).stream ≠ .suspended := by decide +kernel

/-! ### Witnesses, seats, levels, supply, lighting and the link -/

theorem witness_string_set :
    let p := part0.setString 1 { part0.string 1 with exchange := true, roundPosition := some 3 }
    p.canTake .stringSet 1 [1, 20] ∧ (p.string 1).exchange = true ∧
      part0.canTake .stringSet 1 [1, 255] ∧ (part0.string 1).exchange = false := by decide +kernel

theorem witness_rounds :
    let e := part0.setString 3 { part0.string 3 with population := 0 }
    let r := part0.setString 3 { part0.string 3 with
      releasing := [20, 21], roundPosition := some 3 }
    (on part0).quiet ∧ part0.active = true ∧ (72 : SeatId).val = 24 * (3 : StringId).val ∧
      (part0.string 3).scanning = true ∧ (part0.string 3).roundPosition = none ∧
      (part0.string 3).releasing = [] ∧ (part0.string 3).population ≠ 0 ∧
      (e.string 3).population = 0 ∧ (r.string 3).releasing ≠ [] ∧
      (r.string 3).exchange = false ∧ (75 : SeatId).val = 24 * (3 : StringId).val + 3 := by
  decide +kernel

/-- String 3 has an exchange in progress with the ONLINE node of seat 95, its last position. -/
def partSeat : Part :=
  (part0.setString 3 { part0.string 3 with exchange := true, roundPosition := some 23 }).setSeat 95
    { Seat.cold with
      node := .online, baselines := some ⟨15, 0, 0⟩, missCount := 2, carried := some (true, .mute)
      socket := { Socket.cold with state := .attached, average := some 300 } }

/-- A valid answer of position 23. -/
def answer23 : Answer := ⟨⟨15, 2, 1⟩, 9000⟩

theorem witness_answers :
    (on partSeat).quiet ∧ (partSeat.string 3).exchange = true ∧
      (partSeat.string 3).roundPosition = some 23 ∧ (95 : SeatId).val = 24 * (3 : StringId).val + 23 ∧
      readAnswer 23 (answerBytes 23 answer23) = some answer23 ∧
      (partSeat.string 3).pendingPopulation = none ∧ (partSeat.string 3).population ≤ 24 ∧
      (partSeat.seat 95).node ≠ .unconfigured ∧ (partSeat.seat 95).missCount = 2 ∧
      readAnswer 23 [0, 0] = none := by decide +kernel

/-- String 3's exchange at a position ends with a population pending, whose STRING-SET has tag 9. -/
def partPending (n new old : Nat) : Part :=
  { partSeat with
    strings := vset partSeat.strings 3 { partSeat.string 3 with
      roundPosition := some n, pendingPopulation := some new, population := old }
    link := { partSeat.link with slots := [⟨.stringSet, 9, [3, BitVec.ofNat 8 new], .taken⟩] } }

/-- An exchange ends with a lowered population pending (the round ends in time, late, or late with population 0)
and with a raised one (the round goes on). -/
theorem witness_pending_population :
    (∀ x ∈ [(23, 20, 24), (0, 0, 24), (2, 6, 3)],
      let p := partPending x.1 x.2.1 x.2.2
      let w : Slot := ⟨.stringSet, 9, [3, BitVec.ofNat 8 x.2.1], .taken⟩
      (on p).quiet ∧ (p.string 3).exchange = true ∧ (p.string 3).roundPosition = some x.1 ∧
        x.1 < 24 ∧ (p.string 3).pendingPopulation = some x.2.1 ∧ x.2.1 ≤ 24 ∧ w ∈ p.link.slots ∧
        (∀ y ∈ p.link.slots, y = w) ∧ readAnswer x.1 (answerBytes x.1 answer23) = some answer23) ∧
      atOrAfter 0 (later (partSeat.string 3).roundStart 20) = false ∧
      atOrAfter 20 (later (partSeat.string 3).roundStart 20) = true := by decide +kernel

theorem witness_sockets :
    let p := part0.setSeat 7 { Seat.cold with
      socket := { Socket.cold with settleEnd := some 400, coolEnd := some 30000 } }
    let q := part0.setSeat 7 { Seat.cold with
      socket := { Socket.cold with state := .lockedOut, history := [1, 2, 3] } }
    (p.seat 7).socket.settleEnd = some 400 ∧ (p.seat 7).socket.coolEnd = some 30000 ∧
      part0.canTake .seatSet 1 [7, 0, 16] ∧ (part0.language 0).enabled = true ∧
      part0.canTake .seatSet 1 [255, 0, 3] ∧ part0.canTake .seatSet 1 [96, 0, 3] ∧
      (part0.language 1).enabled = false ∧ part0.canTake .seatSet 1 [95, 1, 3] ∧
      part0.canTake .seatSet 1 [7] ∧ part0.canTake .seatQuery 1 [96, 0] ∧
      part0.canTake .seatQuery 1 [7, 2] ∧ part0.canTake .seatQuery 1 [] ∧
      part0.canTake .seatRelease 1 [96] ∧ part0.canTake .seatRelease 1 [] ∧
      part0.canTake .seatQuery 1 [7, 0] ∧ q.canTake .seatRelease 1 [7] ∧
      (q.seat 7).socket.state = .lockedOut ∧ (part0.seat 7).socket.state ≠ .lockedOut ∧
      (partSeat.seat 95).socket.state = .attached := by decide +kernel

/-- Language presses and the acknowledgement of a power ON by an UNPOWERED socket's node. -/
theorem witness_presses_and_power :
    let p := partSeat.setSeat 95 { partSeat.seat 95 with
      socket := Socket.cold, carried := some (true, .code 40) }
    let a : Answer := ⟨⟨1, 2, 1⟩, 900⟩
    readAnswer 23 (answerBytes 23 a) = some a ∧ (p.seat 95).node = .online ∧
      (p.seat 95).baselines = some ⟨15, 0, 0⟩ ∧ (a.counters.lang - 15).toNat = 2 ∧
      (p.seat 95).carried = some (true, .code 40) ∧ a.sample < 8000 ∧
      (p.seat 95).socket.state = .unpowered := by decide +kernel

/-- A classifying socket after one indication of each kind, and the streams that a listener joins or leaves. -/
theorem witness_indications :
    let z : Socket := { Socket.cold with
      state := .settling, ackOn := true, classifying := true, average := some 300 }
    let first := { z with run := some (.headset, 1) }
    let empty := { z with state := .attached, average := some 10, run := some (.empty, 1) }
    let leak := { z with average := some 3000, run := some (.leak, 1) }
    let p := partL.setLanguage 0 { partL.language 0 with
      stream := .parked, waiting := [⟨3, 6, false, none, false⟩] }
    let q := partL.setLanguage 0 { partL.language 0 with audience := 1 }
    z.run = none ∧ first.run = some (.headset, 1) ∧ first.state ≠ .attached ∧
      average first.average 300 4 = 300 ∧ empty.run = some (.empty, 1) ∧
      average empty.average 5 4 = 8 ∧ leak.run = some (.leak, 1) ∧
      average leak.average 3000 4 = 3000 ∧ (p.language 0).audience = 0 ∧
      (p.language 0).stream = .parked ∧ p.lang.hold = false ∧
      (p.reader (chan 0)).owner = .commentary ∧ (q.language 0).audience = 1 ∧
      (q.language 0).stream = .idle := by decide +kernel

theorem witness_levels :
    part0.canTake .speed 1 [255] ∧ part0.canTake .levelSet 1 [0x80, 0x7F, 0xC4, 12] ∧
      bs8 [0x80, 0x7F, 0xC4, 12] 0 = -128 ∧
      LevelUnit.staleEnd { LevelUnit.cold with staleEnd := some 10000 } = some 10000 ∧
      part0.level.staleEnd = none ∧ LevelUnit.cold.cap ≤ 12 ∧ LevelUnit.cold.shed ≤ 12 ∧
      LevelUnit.cold.paCap ≤ 12 ∧ LevelUnit.cold.phase = none ∧
      LevelUnit.phase { LevelUnit.cold with phase := some .tail } = some .tail := by decide +kernel

theorem witness_supply :
    let lit := part0.setZone 0 { Zone.cold with enabled := true, level := 60 }
    (on part0).quiet ∧ part0.supply.running = true ∧ vget part0.supply.conversions 0 = some 0 ∧
      (lit.active = true ∧ (lit.zone 0).enabled = true ∧ (lit.zone 0).fault ≠ .shortFault ∧
        1 ≤ (lit.zone 0).level) ∧ (part0.zone 0).enabled = false ∧ (part0.zone 0).leftAt = [] ∧
      Supply.voltageAverage { Supply.cold with voltageAverage := some 22894 } = some 22894 ∧
      1000 ≤ Supply.cold.budget ∧ part0.canTake .supplySet 1 [0, 64, 255, 255, 1, 0, 255, 0] ∧
      part0.canTake .supplyPeakClear 1 [] ∧ part0.canTake .supplyPeakClear 1 [0] := by
  decide +kernel

theorem witness_zones :
    let z : Zone := { Zone.cold with enabled := true, safety := true, stepDue := some 20 }
    let p := part0.setZone 0 z
    vget p.supply.conversions 0 = some 0 ∧ (p.zone 0).enabled = true ∧ (p.zone 0).fault ≠ .shortFault ∧
      5 * (p.zone 0).nominal < 2 * 5001 ∧ 2 * 5000 ≤ 5 * (p.zone 0).nominal ∧
      p.canTake .zoneSet 1 [0, 0, 1, 101, 49, 0, 1] ∧ (p.zone 0).stepDue = some 20 := by
  decide +kernel

/-- Cue 2 is active since part time 5, and zone 1 flashes in it. -/
def partFlash : Part :=
  { part0 with light := { part0.light with
    activeCue := some (2, 5)
    cues := vset part0.light.cues 2 (vset (Vector.replicate 8 .none) 1 (.flash 80 250)) } }

theorem witness_effective_level :
    let z : Zone := { Zone.cold with enabled := true }
    let l := (partFlash.setZone 1 z).light
    let item := fun (i : CueItem) =>
      { l with cues := vset l.cues 2 (vset (Vector.replicate 8 .none) 1 i) }
    let shown := z.enabled = true ∧ (z.fault = .ok ∨ z.fault = .openFault ∧ z.keep = true)
    vget l.zones 1 = z ∧ shown ∧ l.activeCue = some (2, 5) ∧ z.safety = false ∧
      vget (vget l.cues 2) 1 = .flash 80 250 ∧ { l with activeCue := none }.activeCue = none ∧
      vget (vget (item .none).cues 2) 1 = .none ∧
      vget (vget (item (.level 100)).cues 2) 1 = .level 100 ∧
      ¬ ((vget l.zones 2).enabled = true) := by decide +kernel

theorem witness_scenes :
    part0.canTake .sceneSet 1 [0, 1, 2, 3, 4, 5, 6, 7, 101, 9] ∧ part0.canTake .sceneSelect 1 [0] ∧
      part0.canTake .sceneSelect 1 [7] ∧
      partFlash.canTake .lightcueSet 1 (2 :: List.replicate 32 0) ∧
      partFlash.canTake .lightcueSet 1 (3 :: List.replicate 32 2) ∧
      partFlash.light.activeCue = some (2, 5) ∧
      vget (vget partFlash.light.cues 2) 1 = .flash 80 250 ∧
      later 5 (((partFlash.zone 1).halves + 1) * 250) = 255 := by decide +kernel

/-- Zone 1 is lit at 50 with the active scene's level for it 60: a sample of it is judged, a first and a second low
average, and its OPEN fault with preset KEEP leaves it fading. Its interval began at 20 and it left level 49 at 24. The
conversion of zone 0, disabled now, began at 0 and outlasts its interval: it left level 30 at 20. Zone 2 has none. -/
theorem witness_zone_samples :
    let z : Zone := { Zone.cold with enabled := true, level := 50, target := 60, stepDue := some 30 }
    let off : Zone := { Zone.cold with leftAt := [(30, 20)] }
    let p := { (part0.setZone 1 { z with leftAt := [(49, 24), (50, 23)] }).setZone 0 off with
      time := 24, supply := (Supply.cold.start 0).nextInterval true }
    let low := { z with openCount := 1, keep := true, fault := .ok, average := some 20
                        averageLevel := some 50 }
    (on p).quiet ∧ p.supply.running = true ∧ p.active = true ∧
      vget p.supply.conversions 1 = some 20 ∧ vget p.supply.conversions 0 = some 0 ∧
      vget p.supply.conversions 2 = none ∧
      (p.zone 1).enabled = true ∧ (p.zone 1).fault ≠ .shortFault ∧ 10 ≤ (p.zone 1).level ∧
      tfind (p.zone 1).leftAt 49 = some 24 ∧
      ((24 : PartTime) - 20).toNat ≤ (p.time - 20).toNat ∧
      (p.zone 0).enabled = false ∧ tfind (p.zone 0).leftAt 30 = some 20 ∧
      ((20 : PartTime) - 0).toNat ≤ (p.time - 0).toNat ∧ tfind (p.zone 0).leftAt 31 = none ∧
      2 * 900 ≤ 5 * z.nominal ∧ 5 * z.nominal < 2 * 60000 ∧ 4 * 20 < z.nominal * 50 / 100 ∧
      low.fault = .ok ∧ low.keep = true ∧ min 2 (low.openCount + 1) = 2 ∧
      { z with level := 9 }.level < 10 := by
  decide +kernel

theorem witness_frames :
    let full := { part0 with link := { part0.link with
      slots := [⟨.cue, 1, [], .taken⟩, ⟨.cue, 2, [], .intake⟩, ⟨.cue, 3, [], .intake⟩,
        ⟨.cue, 4, [], .intake⟩] } }
    let warm := { part0 with link := { part0.link with
      resetting := true, slots := [⟨.partReset, 4, [], .taken⟩] } }
    let enters := { part0 with link := { part0.link with entering := true } }
    (on part0).quiet ∧ part0.mem.state ≠ .off ∧ 4 ≤ full.link.slots.length ∧
      part0.link.slots.length < 4 ∧ full.link.refusals.length < 8 ∧
      ¬ ((9 : Byte) = 0 ∨ ∃ x ∈ part0.link.slots, x.tag = 9) ∧ 37 < (38 : Byte).toNat ∧
      Kind.byte .cue = 12 ∧ warm.link.resetting = true ∧ warm.mem.state = .ready ∧
      enters.link.entering = true ∧ (starting .pause).mem.state = .initialising ∧
      frameCheck 12 9 [1] ≠ 0 := by decide +kernel

theorem witness_link_events :
    let r : Reply := ⟨12, 1, [0], true⟩
    let n : QNotice := ⟨.node 3 .lost, 7⟩
    let p := { part0 with link := { part0.link with replies := [r], notices := [n] } }
    let q := { p with link := { p.link with replies := [], receiver := .inFrame } }
    (on p).quiet ∧ p.link.replies = r :: [] ∧ q.link.notices = n :: [] ∧ q.link.replies = [] ∧
      part0.link.notices = [] ∧ part0.link.receiver = .hunting ∧ q.link.receiver = .inFrame ∧
      1040 < (1041 : BitVec 16).toNat := by decide +kernel

/-- A warm reset with a request waiting, one taken, and a running check, no transfer in progress. -/
theorem witness_reset_answers :
    let p := { partCheck 3 with
      mem := { part0.mem with owed := 2, row := 9 }
      link := { part0.link with slots := [⟨.storeCheck, 7, [], .taken⟩, ⟨.cue, 8, [3], .intake⟩] } }
    (on p).quiet ∧ p.active = true ∧ p.canTake .partReset 1 [] ∧ p.canTake .standby 1 [] ∧
      p.store.check.running = true ∧ p.mem.device.busy = false ∧
      ⟨.cue, 8, [3], .intake⟩ ∈ p.link.slots ∧ Kind.owner .cue ≠ .linkPort ∧
      p.ann.playing = none ∧ p.ann.queue = [] := by decide +kernel

theorem witness_part_requests :
    let s := { part0 with mem := { part0.mem with state := .selfRefresh } }
    part0.canTake .partStatus 1 [] ∧ s.canTake .wake 1 [] ∧ s.mem.state = .selfRefresh ∧
      part0.canTake .wake 1 [] ∧ part0.mem.state ≠ .selfRefresh ∧ part0.active = true ∧
      part0.canTake .partReset 1 [] ∧ part0.canTake .standby 1 [] := by decide +kernel

end Sys2Proof.Tests
end

section
/-! The gain codes of the Level Unit (R142, R143, R146) and the LED mode of a poll (R117): one lemma for each
stage of the model's computation, and the statement on listening levels assembled from them. -/

namespace Sys2Proof.Machine

/-! ### Gain codes -/

/-- R136: the model's Boolean is the safety condition as the rule words it. -/
theorem LevelUnit.safetyCondition_iff (l : LevelUnit) :
    l.safetyCondition = true ↔
      l.cls = some .safety ∧ (l.phase = some .chime ∨ l.phase = some .speech) := by
  simp [LevelUnit.safetyCondition]

/-- R142: no base, which is MUTE, at volume 0 without the safety condition; the next lemma has every other case. -/
theorem seatBase_eq_none (l : LevelUnit) (h : l.safetyCondition ≠ true) : seatBase l 0 = none := by
  simp [seatBase, h]

theorem seatBase_eq_some (l : LevelUnit) (volume : Nat)
    (h : ¬ (volume = 0 ∧ ¬ l.safetyCondition = true)) :
    seatBase l volume = some
      (if volume = 0 then l.safetyFloor
      else if l.safetyCondition = true then max (4 * (volume : Int) - 60) l.safetyFloor
      else 4 * (volume : Int) - 60) := by
  unfold seatBase
  by_cases hv : volume = 0
  · have hs : l.safetyCondition = true := by
      by_contra hs
      exact h ⟨hv, hs⟩
    simp [hv, hs]
  · simp only [if_neg hv]
    split <;> rfl

theorem seatCode_of_base_none (l : LevelUnit) (volume : Nat) (trim : Int)
    (h : seatBase l volume = none) : seatCode l volume trim = .mute := by
  simp [seatCode, h]

theorem seatCode_of_base_some (l : LevelUnit) (volume : Nat) (trim base : Int)
    (h : seatBase l volume = some base) :
    seatCode l volume trim =
      gainCode (base + trim + (noiseTerm l.speed : Int) + (l.lift : Int)) l.cap l.shed := by
  simp [seatCode, h]

theorem paCodeNow_of_phase_none (l : LevelUnit) (h : l.phase = none) : l.paCodeNow = .mute := by
  simp [LevelUnit.paCodeNow, h]

theorem paCodeNow_of_phase_some (l : LevelUnit) (ph : Phase) (h : l.phase = some ph) :
    l.paCodeNow =
      gainCode (l.paBase + (noiseTerm l.speed : Int) + (l.lift : Int)) l.paCap l.shed := by
  simp [LevelUnit.paCodeNow, h]

/-- R143, R146: the stages lose nothing to the natural number that a code is, since a level is held at -60
before 60 is added. -/
theorem gainCode_eq_code (sum cap : Int) (shed : Nat) :
    ∃ n : Nat, gainCode sum cap shed = .code n ∧
      (n : Int) = max (min sum cap - (shed : Int)) (-60) + 60 ∧ (cap ≤ 12 → n ≤ 72) := by
  refine ⟨_, rfl, Int.toNat_of_nonneg ?nonneg, fun hcap => ?bound⟩
  case nonneg => omega
  case bound => simpa [GainCode.inRange, gainCode] using gainCode_inRange sum cap shed hcap

/-- A level held to the cap and reduced stands at most at the reduced cap, where that is no lower than -60. -/
theorem reducedLevel_le (sum cap : Int) (shed : Nat) (hcap : -24 ≤ cap) (hshed : shed ≤ 12) :
    max (min sum cap - (shed : Int)) (-60) + 60 ≤ cap - (shed : Int) + 60 := by
  omega

/-! ### Poll fields -/

theorem Seat.ledMode_of_not_online (z : Seat) (h : z.node ≠ .online) : z.ledMode = .off := by
  unfold Seat.ledMode
  split
  case h_1 honline => exact absurd honline h
  all_goals rfl

theorem Seat.ledMode_of_online (z : Seat) (h : z.node = .online) :
    z.ledMode =
      if z.socket.state = .attached ∧ 1 ≤ z.volume then .steady
      else if z.socket.state = .faulted then .slow
      else if z.socket.state = .lockedOut then .fast
      else .off := by
  unfold Seat.ledMode
  rw [h]
  cases hstate : z.socket.state
  case attached => by_cases hv : z.volume = 0 <;> simp [hv, Nat.one_le_iff_ne_zero]
  all_goals simp

/-- R117: the table of the LED mode as one expression. -/
theorem Seat.ledMode_eq (z : Seat) :
    z.ledMode =
      if z.node = .online ∧ z.socket.state = .attached ∧ 1 ≤ z.volume then .steady
      else if z.node = .online ∧ z.socket.state = .faulted then .slow
      else if z.node = .online ∧ z.socket.state = .lockedOut then .fast
      else .off := by
  by_cases h : z.node = .online
  · simp only [z.ledMode_of_online h, h, true_and]
  · simp only [z.ledMode_of_not_online h, h, false_and, if_false]

theorem releasePollBytes_command (position : Nat) (slot : Lang) :
    (releasePollBytes position slot)[1]? = some 0 := rfl

/-! ### The statement -/

/-- Settles O49: the base of a seat chooses between MUTE and a code, whose stages are those of `gainCode`; the
PA code goes through the same stages from its own base. -/
theorem seatCodeFollowsTheStages : Obligations.SeatCodeFollowsTheStages := by
  intro l volume trim safety
  have hsafety : safety ↔ l.safetyCondition = true := l.safetyCondition_iff.symm
  refine ⟨?muted, ?coded, paCodeNow_of_phase_none l, ?pa, releasePollBytes_command,
    fun z _ _ => z.ledMode_eq⟩
  case muted =>
    rintro rfl hs
    exact seatCode_of_base_none l 0 trim (seatBase_eq_none l (mt hsafety.mpr hs))
  case coded =>
    intro h base g2 g3 g4 g
    have hbase : seatBase l volume = some base := by
      rw [hsafety] at h
      rw [seatBase_eq_some l volume h]
      simp only [base, LevelUnit.safetyCondition_iff]
    obtain ⟨n, hcode, hn, hmax⟩ := gainCode_eq_code g2 l.cap l.shed
    refine ⟨n, (seatCode_of_base_some l volume trim base hbase).trans hcode, hn, hmax, ?_⟩
    intro hcap hshed
    exact hn.trans_le (reducedLevel_le g2 l.cap l.shed hcap hshed)
  case pa =>
    intro ph hph p2 p3 p4 g
    obtain ⟨n, hcode, hn, hmax⟩ := gainCode_eq_code p2 l.paCap l.shed
    exact ⟨n, (paCodeNow_of_phase_some l ph hph).trans hcode, hn, hmax⟩

end Sys2Proof.Machine
end

section
/-! The judgements of the supply (R153 to R155): the rows of each table, what a judgement and a sample leave in
the Supply Monitor, and the statement on judgements assembled from them. -/

namespace Sys2Proof.Machine

/-! ### The tables -/

theorem judgeVoltage_normal (vLow vCrit a : Nat) :
    judgeVoltage .normal vLow vCrit a =
      if a < vCrit then .critical else if a < vLow then .low else .normal := rfl

theorem judgeVoltage_low (vLow vCrit a : Nat) :
    judgeVoltage .low vLow vCrit a =
      if a < vCrit then .critical else if a ≥ vLow + 500 then .normal else .low := rfl

theorem judgeVoltage_critical (vLow vCrit a : Nat) :
    judgeVoltage .critical vLow vCrit a =
      if a ≥ vLow + 500 then .normal else if a ≥ vCrit + 500 then .low else .critical := rfl

/-- R154: NORMAL becomes LOW above the budget alone. -/
theorem judgeCurrent_normal_iff (budget a : Nat) : judgeCurrent false budget a = true ↔ a > budget := by
  simp [judgeCurrent]

/-- R154: LOW becomes NORMAL at 1,000 mA below the budget; for a budget below that, never. -/
theorem judgeCurrent_low_iff (budget a : Nat) :
    judgeCurrent true budget a = false ↔ a + 1000 ≤ budget := by
  simp [judgeCurrent]

/-! ### Judgements of the averages -/

theorem Supply.judgeVoltageNow_unset (s : Supply) (h : s.voltageAverage = none) :
    s.judgeVoltageNow = s := by
  simp [Supply.judgeVoltageNow, h]

theorem Supply.judgeVoltageNow_set (s : Supply) (a : Nat) (h : s.voltageAverage = some a) :
    s.judgeVoltageNow = { s with voltageState := judgeVoltage s.voltageState s.vLow s.vCrit a } := by
  simp [Supply.judgeVoltageNow, h]

theorem Supply.judgeCurrentNow_unset (s : Supply) (h : s.currentAverage = none) :
    s.judgeCurrentNow = s := by
  simp [Supply.judgeCurrentNow, h]

theorem Supply.judgeCurrentNow_set (s : Supply) (a : Nat) (h : s.currentAverage = some a) :
    s.judgeCurrentNow = { s with currentLow := judgeCurrent s.currentLow s.budget a } := by
  simp [Supply.judgeCurrentNow, h]

/-- A judgement of the voltage leaves the current state as it stands. -/
@[simp] theorem Supply.judgeVoltageNow_currentLow (s : Supply) :
    s.judgeVoltageNow.currentLow = s.currentLow := by
  cases h : s.voltageAverage with
  | none => rw [s.judgeVoltageNow_unset h]
  | some a => rw [s.judgeVoltageNow_set a h]

/-- A judgement of the current leaves the voltage state as it stands. -/
@[simp] theorem Supply.judgeCurrentNow_voltageState (s : Supply) :
    s.judgeCurrentNow.voltageState = s.voltageState := by
  cases h : s.currentAverage with
  | none => rw [s.judgeCurrentNow_unset h]
  | some a => rw [s.judgeCurrentNow_set a h]

@[simp] theorem Supply.takeVoltage_currentLow (s : Supply) (mV : Nat) :
    (s.takeVoltage mV).currentLow = s.currentLow := rfl

@[simp] theorem Supply.takeCurrent_voltageState (s : Supply) (mA : Nat) :
    (s.takeCurrent mA).voltageState = s.voltageState := rfl

@[simp] theorem Supply.nextInterval_currentLow (s : Supply) (lit : Bool) :
    (s.nextInterval lit).currentLow = s.currentLow := rfl

@[simp] theorem Supply.nextInterval_shed (s : Supply) (lit : Bool) :
    (s.nextInterval lit).shed = s.shed := rfl

/-! ### What a sample leaves in the Supply Monitor -/

@[simp] theorem Part.reach_supply (p : Part) (d : PartTime) : (p.reach d).supply = p.supply := by
  rw [Part.reach_eq]

@[simp] theorem Part.reach_bank (p : Part) (d : PartTime) : (p.reach d).bank = p.bank := by
  rw [Part.reach_eq]

/-- A found shed state gives no reader report. -/
@[simp] theorem Part.findShed_bank (p : Part) : p.findShed.bank = p.bank := by
  unfold Part.findShed
  simp only
  split
  · rfl
  · simp only [Part.tellLevelShed, Part.recomputePa_bank, Part.recomputeSeats_bank,
      Part.raise_only_link]

/-- R153, R155: a voltage sample moves the voltage state by the judgement of the new average, and the shed state is
found again against the current state as it stands. -/
theorem Part.voltageSample_supply (mV : Nat) (p : Part) (h : p.supply.running = true) :
    (p.voltageSample mV).supply =
      { (p.supply.takeVoltage mV).judgeVoltageNow with
        shed := worse (p.supply.takeVoltage mV).judgeVoltageNow.voltageState p.supply.currentLow } := by
  simp only [Part.voltageSample, h, if_true, Part.findShed_supply, Part.reach_supply,
    Supply.judgeVoltageNow_currentLow, Supply.takeVoltage_currentLow]

/-- R154, R155: a current sample moves the current state by the judgement of the new average, the shed state is
found again against the voltage state as it stands, and the next interval begins. -/
theorem Part.currentSample_supply (mA : Nat) (p : Part) (h : p.supply.running = true) :
    ∃ lit, (p.currentSample mA).supply = Supply.nextInterval
      { (p.supply.takeCurrent mA).judgeCurrentNow with
        shed := worse p.supply.voltageState (p.supply.takeCurrent mA).judgeCurrentNow.currentLow } lit := by
  simp only [Part.currentSample, h, if_true, Part.findShed_supply, Part.reach_supply,
    Supply.judgeCurrentNow_voltageState, Supply.takeCurrent_voltageState]
  exact ⟨_, rfl⟩

theorem Part.voltageSample_bank (mV : Nat) (p : Part) : (p.voltageSample mV).bank = p.bank := by
  unfold Part.voltageSample
  split
  · simp
  · rfl

theorem Part.currentSample_bank (mA : Nat) (p : Part) : (p.currentSample mA).bank = p.bank := by
  unfold Part.currentSample
  split
  · simp
  · rfl

/-- The end of a command that gives no report leaves the Supply Monitor alone. -/
theorem State.onPart_supply (s : State) (f : Part → Part) (h : (f s.part).bank.reports = []) :
    (s.onPart f).part.supply = (f s.part).supply := by
  rw [State.onPart_quiet s f h]

theorem exec_voltageSample_supply (mV : Nat) (w : State) (hq : w.quiet) :
    ∃ t, exec (.voltageSample mV) w = .next t ∧
      t.part.supply = (w.part.voltageSample mV).supply :=
  ⟨_, rfl, State.onPart_supply w _ (by rw [Part.voltageSample_bank, hq])⟩

theorem exec_currentSample_supply (mA : Nat) (w : State) (hq : w.quiet) :
    ∃ t, exec (.currentSample mA) w = .next t ∧
      t.part.supply = (w.part.currentSample mA).supply :=
  ⟨_, rfl, State.onPart_supply w _ (by rw [Part.currentSample_bank, hq])⟩

/-! ### The statement -/

/-- Settles O50: a judgement of an average that is set writes what the table of its state gives, and a sample is
the judgement of its new average with the shed state found again. -/
theorem supplyJudgementsFollowTheTables : Obligations.SupplyJudgementsFollowTheTables := by
  intro s
  refine ⟨s.judgeVoltageNow_unset, ?voltage, s.judgeCurrentNow_unset, ?current, rfl, rfl,
    fun low => ⟨rfl, rfl⟩, ?samples⟩
  case voltage =>
    intro a ha
    refine ⟨_, s.judgeVoltageNow_set a ha, ?_, ?_, ?_⟩
    · intro h; rw [h, judgeVoltage_normal]
    · intro h; rw [h, judgeVoltage_low]
    · intro h; rw [h, judgeVoltage_critical]
  case current =>
    intro a ha hbudget
    have hrise : s.currentLow = false →
        (judgeCurrent s.currentLow s.budget a = true ↔ a > s.budget) := by
      intro h; rw [h, judgeCurrent_normal_iff]
    have hfall : s.currentLow = true →
        (judgeCurrent s.currentLow s.budget a = false ↔ a ≤ s.budget - 1000) := by
      intro h; rw [h, judgeCurrent_low_iff]; omega
    refine ⟨_, s.judgeCurrentNow_set a ha, hrise, hfall, fun hb => ⟨?_, ?_, ?_⟩⟩
    · intro h h30001; exact (hrise h).mpr (by omega)
    · intro h h29001 _; exact eq_true_of_ne_false (mt (hfall h).mp (by omega))
    · intro h h29000; exact (hfall h).mpr (by omega)
  case samples =>
    rintro w x hq hrun rfl
    constructor
    · obtain ⟨t, hexec, hsupply⟩ := exec_voltageSample_supply x w hq
      rw [Part.voltageSample_supply x w.part hrun] at hsupply
      exact ⟨t, hexec, by rw [hsupply], by rw [hsupply]⟩
    · obtain ⟨t, hexec, hsupply⟩ := exec_currentSample_supply x w hq
      obtain ⟨lit, hsample⟩ := Part.currentSample_supply x w.part hrun
      rw [hsample] at hsupply
      exact ⟨t, hexec, by rw [hsupply, Supply.nextInterval_currentLow],
        by rw [hsupply, Supply.nextInterval_shed, Supply.nextInterval_currentLow]⟩

end Sys2Proof.Machine
end

section
/-! What every operation of the part keeps (R98, R103, R139, R155, R163, R179, R182): the relation `Part.Keeps` between
a part and the part that an operation leaves, and that every operation of the blocks stands in it. -/

namespace Sys2Proof.Machine

/-! ### The relation -/

/-- Each invariant of the part that holds before an operation holds after it. -/
structure Part.Keeps (p q : Part) : Prop where
  link : p.link.bounded → q.link.bounded
  codes : p.codesInRange → q.codesInRange
  alert : p.alertRight → q.alertRight
  targets : p.targetsRight → q.targetsRight
  settings : p.supply.settingsRight → q.supply.settingsRight
  shed : p.shedRight → q.shedRight
  volumes : p.volumesInRange → q.volumesInRange

theorem Part.Keeps.refl (p : Part) : p.Keeps p := ⟨id, id, id, id, id, id, id⟩

theorem Part.Keeps.trans {p q r : Part} (h : p.Keeps q) (k : q.Keeps r) : p.Keeps r :=
  ⟨k.link ∘ h.link, k.codes ∘ h.codes, k.alert ∘ h.alert, k.targets ∘ h.targets,
    k.settings ∘ h.settings, k.shed ∘ h.shed, k.volumes ∘ h.volumes⟩

theorem Part.Keeps.foldl {α : Type} (f : Part → α → Part) (h : ∀ p x, Part.Keeps p (f p x))
    (l : List α) (p : Part) : p.Keeps (l.foldl f p) := by
  induction l generalizing p with
  | nil => exact .refl p
  | cons x l ih => exact (h p x).trans (ih _)

theorem Link.Noted.bounded {l m : Link} (h : l.Noted m) (hl : l.bounded) : m.bounded := by
  obtain ⟨hs, hr, hn⟩ := hl
  refine ⟨?_, ?_, h.bound hn⟩
  · rw [h.rest]; exact hs
  · rw [h.rest]; exact hr

/-- An operation of announcements keeps the invariants when it leaves DECK-ALERT judged. -/
theorem Part.AnnouncesOnly.keeps {p q : Part} (h : p.AnnouncesOnly q)
    (hj : p.ann.judged → q.ann.judged) : p.Keeps q where
  link := h.link.bounded
  codes := h.codes
  alert hp := h.alertRight hp.2 (hj hp.1)
  targets := h.targets
  settings hp := by rw [h.supply]; exact hp
  shed hp := by
    obtain ⟨h1, h2, h3⟩ := hp
    refine ⟨by rw [h.supply]; exact h1, ?_, ?_⟩
    · rw [h.level, h.supply]; exact h2
    · rw [h.light, h.supply]; exact h3
  volumes hp i := by rw [h.seats]; exact hp i

theorem Part.StreamsOnly.keeps {p q : Part} (h : p.StreamsOnly q) : p.Keeps q :=
  h.announces.keeps fun hj => by rw [h.ann]; exact hj

theorem Part.ReadersOnly.keeps {p q : Part} (h : p.ReadersOnly q) : p.Keeps q := h.streams.keeps

/-- An operation that leaves the announcements, the strings, the seats, the levels, the supply and the lights alone,
and the link within its bounds, keeps the invariants. -/
theorem Part.Keeps.of_eq {p q : Part} (hl : p.link.bounded → q.link.bounded) (ha : q.ann = p.ann)
    (hs : q.strings = p.strings) (hi : q.seats = p.seats) (hv : q.level = p.level)
    (hu : q.supply = p.supply) (hg : q.light = p.light) : p.Keeps q where
  link := hl
  codes := Part.codesInRange_congr hv hi hs
  alert h := by unfold Part.alertRight at *; rw [ha, hg]; exact h
  targets := Part.targetsRight_congr hg
  settings h := by rw [hu]; exact h
  shed h := by unfold Part.shedRight at *; rw [hv, hu, hg]; exact h
  volumes h := by unfold Part.volumesInRange Part.seat at *; rw [hi]; exact h

/-- An operation that writes the clip memory's, the clip store's, the readers' and the languages' records alone. -/
theorem Part.keeps_stores (p : Part) (t : PartTime) (m : MemCtl) (st : Store) (b : Bank) (l : LangTable) :
    p.Keeps { p with time := t, mem := m, store := st, bank := b, lang := l } :=
  .of_eq id rfl rfl rfl rfl rfl rfl

theorem Part.keeps_link (p : Part) (l : Link) (h : p.link.bounded → l.bounded) :
    p.Keeps { p with link := l } := .of_eq h rfl rfl rfl rfl rfl rfl

theorem Part.keeps_reach (p : Part) (d : PartTime) : p.Keeps (p.reach d) := by
  rw [Part.reach_eq]; exact p.keeps_stores _ _ _ _ _

theorem Part.keeps_raise (p : Part) (n : Notice) : p.Keeps (p.raise n) := (p.readersOnly_raise n).keeps

/-! ### The link -/

theorem Link.bounded_answer (l : Link) (k : Kind) (tag : Byte) (b : Bytes) (h : l.bounded) :
    (l.answer k tag b).bounded := by
  obtain ⟨h1, h2, h3⟩ := h
  refine ⟨?_, ?_, h3⟩
  · simpa [Link.answer, setProgress] using h1
  · simpa [Link.answer, Link.refusals] using h2

theorem Part.keeps_answer (p : Part) (k : Kind) (tag : Byte) (s : Status) (b : Bytes) :
    p.Keeps (p.answer k tag s b) := p.keeps_link _ (Link.bounded_answer _ _ _ _)

theorem Link.bounded_frameError (l : Link) (c : ErrorCause) (h : l.bounded) : (l.frameError c).bounded := h

theorem Part.keeps_frameError (p : Part) (c : ErrorCause) : p.Keeps (p.frameError c) :=
  p.keeps_link _ (Link.bounded_frameError _ c)

/-- R179: a refusal joins the refusal queue while fewer than 8 wait there. -/
theorem Link.bounded_refuse (l : Link) (k tag : Byte) (s : Status) (h : l.bounded) :
    (l.refuse k tag s).bounded := by
  obtain ⟨h1, h2, h3⟩ := h
  unfold Link.refuse
  split
  · rename_i hlt
    refine ⟨h1, ?_, h3⟩
    simp only [Link.refusals, List.filter_append, List.length_append] at hlt ⊢
    simp; omega
  · exact ⟨h1, h2, h3⟩

/-- R179: a frame takes a slot while fewer than 4 are occupied. -/
theorem Part.keeps_accept (p : Part) (k tag : Byte) (body : Bytes) : p.Keeps (p.accept k tag body) := by
  rw [Part.accept_only_link]
  refine p.keeps_link _ fun h => ?_
  have hl : Link.bounded { p.link with receiver := .hunting } := h
  unfold Part.accept
  extract_lets l
  split
  · exact Link.bounded_refuse _ _ _ _ hl
  · rename_i hfull
    split
    · exact Link.bounded_refuse _ _ _ _ hl
    · split
      · exact Link.bounded_refuse _ _ _ _ hl
      · split
        · exact Link.bounded_refuse _ _ _ _ hl
        · obtain ⟨_, h2, h3⟩ := hl
          refine ⟨?_, h2, h3⟩
          simp only [List.length_append, List.length_cons, List.length_nil]
          omega

theorem Link.bounded_pump (l : Link) (h : l.bounded) : l.pump.bounded := by
  obtain ⟨h1, h2, h3⟩ := h
  unfold Link.pump
  split
  · exact ⟨h1, h2, h3⟩
  · split
    · rename_i r rs hr
      refine ⟨?_, ?_, h3⟩
      · simp only
        split
        · exact le_trans (List.length_filter_le _ _) h1
        · exact h1
      · refine le_trans ?_ h2
        simp only [Link.refusals, hr, List.filter_cons]
        split <;> simp
    · split
      · rename_i n ns hn
        rw [hn, List.length_cons] at h3
        exact ⟨h1, h2, by simp only; omega⟩
      · exact ⟨h1, h2, h3⟩

/-- A request keeps the invariants when its meaning does. -/
theorem Part.keeps_request (k : Kind) (tag : Byte) (body : Bytes) (take : Part → Part)
    (h : ∀ q, Part.Keeps q (take q)) (p : Part) : p.Keeps (p.request k tag body take) := by
  unfold Part.request
  split
  · exact .refl p
  · extract_lets q
    have hq : p.Keeps q := by
      unfold q
      split
      · exact .refl p
      · exact p.keeps_accept _ _ _
    clear_value q
    split
    · refine hq.trans (.trans (q.keeps_link _ fun hb => ?_) (h _))
      obtain ⟨h1, h2, h3⟩ := hb
      exact ⟨by simpa [setProgress] using h1, h2, h3⟩
    · exact hq

/-- R71, R87, R89, R181: the end of a command keeps the invariants. -/
theorem Part.keeps_finish (p : Part) : p.Keeps p.finish :=
  .trans ((p.announcesOnly_drain 1024).keeps (p.judged_drain 1024))
    (Part.keeps_link _ _ (Link.bounded_pump _))

/-! ### The Clip Store and the clip memory -/

theorem Part.keeps_setClip (p : Part) (c : ClipId) (x : Clip) : p.Keeps (p.setClip c x) :=
  p.keeps_stores _ _ _ _ _

theorem Part.keeps_setPage (p : Part) (n : Nat) (x : PageEntry) : p.Keeps (p.setPage n x) :=
  p.keeps_stores _ _ _ _ _

theorem Part.keeps_setJob (p : Part) (j : Job) (b : Bytes) : p.Keeps (p.setJob j b) :=
  p.keeps_stores _ _ _ _ _

theorem Part.keeps_setCheck (p : Part) (k : Check) : p.Keeps (p.setCheck k) := p.keeps_stores _ _ _ _ _

theorem Part.keeps_setReader (p : Part) (r : ReaderId) (x : Reader) : p.Keeps (p.setReader r x) :=
  p.keeps_stores _ _ _ _ _

theorem Part.keeps_setLanguage (p : Part) (l : Lang) (x : Language) : p.Keeps (p.setLanguage l x) :=
  p.keeps_stores _ _ _ _ _

theorem Part.keeps_freeDevice (p : Part) : p.Keeps p.freeDevice := p.keeps_stores _ _ _ _ _

theorem Part.keeps_freePage (p : Part) (n : Nat) : p.Keeps (p.freePage n) := p.keeps_stores _ _ _ _ _

theorem Part.keeps_withdrawPage (p : Part) (n : Nat) : p.Keeps (p.withdrawPage n) :=
  p.keeps_stores _ _ _ _ _

theorem Part.keeps_placeRequest (p : Part) (c : Fin 16) : p.Keeps (p.placeRequest c) := by
  unfold Part.placeRequest
  split
  · exact p.keeps_stores _ _ _ _ _
  · exact .refl p

theorem Part.keeps_clearClip (p : Part) (c : ClipId) : p.Keeps (p.clearClip c) :=
  .trans (.foldl _ (fun q n => q.keeps_freePage n) _ p) (Part.keeps_setClip _ _ _)

theorem Part.keeps_freeClip (p : Part) (c : ClipId) : p.Keeps (p.freeClip c) := by
  unfold Part.freeClip
  split
  · exact (p.keeps_clearClip c).trans (Part.keeps_raise _ _)
  · exact p.keeps_clearClip c

theorem Part.keeps_allocPage (p : Part) (c : ClipId) : p.Keeps (p.allocPage c) := by
  unfold Part.allocPage
  split
  · exact .refl p
  · have hq : ∀ f n e, p.Keeps (Part.setPage { p with store := { p.store with freeList := f } } n e) :=
      fun _ _ _ => (p.keeps_stores _ _ _ _ _).trans (Part.keeps_setPage _ _ _)
    refine .trans ?_ (Part.keeps_setClip _ _ _)
    split
    · exact hq _ _ _
    · exact (hq _ _ _).trans (Part.keeps_setPage _ _ _)

theorem Part.keeps_nextFillWrite (p : Part) (tag : Byte) (c : ClipId) (data : Bytes) :
    p.Keeps (p.nextFillWrite tag c data) := by
  unfold Part.nextFillWrite
  split
  · exact (p.keeps_setJob _ _).trans (Part.keeps_answer _ _ _ _ _)
  · exact (p.keeps_setJob _ _).trans (Part.keeps_placeRequest _ _)

theorem Part.keeps_beginFill (p : Part) (tag : Byte) (c : ClipId) (data : Bytes) :
    p.Keeps (p.beginFill tag c data) := by
  unfold Part.beginFill
  refine .trans ?_ (Part.keeps_nextFillWrite _ _ _ _)
  split
  · exact p.keeps_allocPage c
  · exact .refl p

theorem Part.keeps_readyToPlay (p : Part) (c : ClipId) : p.Keeps (p.readyToPlay c) := by
  unfold Part.readyToPlay
  extract_lets x
  split
  · exact (p.keeps_setClip _ _).trans (Part.keeps_raise _ _)
  · exact .refl p

theorem Part.keeps_eachReader (p : Part) (f : ReaderId → Part → Part)
    (h : ∀ r q, Part.ReadersOnly q (f r q)) : p.Keeps (p.eachReader f) :=
  (p.readersOnly_eachReader f h).keeps

theorem Part.keeps_loadedMore (p : Part) (c : ClipId) (n : Nat) : p.Keeps (p.loadedMore c n) := by
  unfold Part.loadedMore
  extract_lets x q
  have hq : p.Keeps q := p.keeps_setClip _ _
  split
  · exact (hq.trans (q.keeps_readyToPlay c)).trans
      (Part.keeps_eachReader _ _ fun r t => t.readersOnly_readerGrown c r)
  · exact hq

theorem Part.keeps_finishClose (p : Part) (tag : Byte) (c : ClipId) : p.Keeps (p.finishClose tag c) := by
  unfold Part.finishClose
  refine .trans (.trans (.trans (.trans (p.keeps_setClip _ _) (Part.keeps_readyToPlay _ c))
    (Part.keeps_eachReader _ _ fun r t => t.readersOnly_readerClosed c r)) (Part.keeps_setJob _ _ _))
    (Part.keeps_answer _ _ _ _ _)

theorem Part.keeps_endCheck (p : Part) : p.Keeps p.endCheck :=
  (p.keeps_setCheck _).trans (Part.keeps_answer _ _ _ _ _)

theorem Part.keeps_formBatch (p : Part) : p.Keeps p.formBatch := by
  unfold Part.formBatch
  extract_lets k free
  split
  · exact p.keeps_endCheck
  · refine .trans ?_ (Part.keeps_placeRequest _ _)
    refine .trans ?_ (Part.keeps_setCheck _ _)
    exact .trans (p.keeps_stores _ _ _ _ _) (.foldl _ (fun q g => q.keeps_setPage g _) _ _)

theorem Part.keeps_continueCheck (p : Part) : p.Keeps p.continueCheck := by
  unfold Part.continueCheck
  split
  · exact p.keeps_endCheck
  · exact p.keeps_formBatch

theorem Part.keeps_endBatch (p : Part) : p.Keeps p.endBatch := by
  unfold Part.endBatch
  extract_lets k failed q r k' t u
  have ht : p.Keeps t := ((Part.Keeps.foldl _ (fun q g => q.keeps_freePage g) _ p).trans
    (.foldl _ (fun q g => q.keeps_withdrawPage g) _ _)).trans (Part.keeps_setCheck _ _)
  have hu : p.Keeps u := by
    unfold u
    split
    · exact ht
    · exact ht.trans (Part.keeps_raise _ _)
  split
  · exact hu
  · exact hu.trans (Part.keeps_continueCheck _)

theorem Part.keeps_checkerDone (p : Part) (equal : Bool) : p.Keeps (p.checkerDone equal) := by
  unfold Part.checkerDone
  extract_lets k k' q
  have hq : p.Keeps q := p.keeps_setCheck _
  split
  · exact hq.trans (Part.keeps_placeRequest _ _)
  · exact hq.trans (Part.keeps_endBatch _)

theorem Part.keeps_abortCheck (p : Part) (s : Status) : p.Keeps (p.abortCheck s) := by
  unfold Part.abortCheck
  extract_lets k failed returned q r k'
  split
  · refine .trans ?_ (Part.keeps_answer _ _ _ _ _)
    refine .trans ?_ (Part.keeps_setCheck _ _)
    exact .trans (.foldl _ (fun q g => q.keeps_withdrawPage g) _ p)
      (.foldl _ (fun q (b : BatchPage) => q.keeps_freePage b.page) _ _)
  · exact .refl p

theorem Part.keeps_finishClearing (p : Part) : p.Keeps p.finishClearing := by
  unfold Part.finishClearing
  split
  · exact .refl p
  · extract_lets q r
    refine .trans ?_ (Part.keeps_abortCheck _ _)
    refine .trans ?_ (Part.keeps_stores _ _ _ _ _ _)
    refine .foldl _ (fun q c => ?_) _ _
    split
    · split
      · exact q.keeps_clearClip _
      · exact .refl q
    · exact .refl q

theorem Part.keeps_dropClip (p : Part) (c : ClipId) : p.Keeps (p.dropClip c) := by
  unfold Part.dropClip
  extract_lets x q told r
  split
  · exact p.keeps_freeClip c
  · have hq : p.Keeps q := p.keeps_setClip _ _
    have hr : p.Keeps r := by
      unfold r
      split
      · exact hq.trans (Part.keeps_raise _ _)
      · exact hq
    exact hr.trans (Part.keeps_eachReader _ _ fun o t => t.readersOnly_readerAbandoned c o)

theorem Part.keeps_deleteClip (p : Part) (c : ClipId) : p.Keeps (p.deleteClip c) := by
  unfold Part.deleteClip
  extract_lets x
  split
  · exact p.keeps_freeClip c
  · exact p.keeps_setClip _ _

/-! ### The Clip Store's requests -/

theorem Part.keeps_takeClipOpen (tag : Byte) (body : Bytes) (p : Part) :
    p.Keeps (p.takeClipOpen tag body) := by
  unfold Part.takeClipOpen
  extract_lets reply
  split
  · exact p.keeps_answer _ _ _ _
  · exact (p.keeps_setClip _ _).trans (Part.keeps_answer _ _ _ _ _)

theorem Part.keeps_takeClipFill (tag : Byte) (body : Bytes) (p : Part) :
    p.Keeps (p.takeClipFill tag body) := by
  unfold Part.takeClipFill
  extract_lets refuse
  split
  · exact p.keeps_answer _ _ _ _
  · split
    · split
      · exact p.keeps_answer _ _ _ _
      · exact p.keeps_setJob _ _
    · exact p.keeps_beginFill _ _ _

theorem Part.keeps_takeClipClose (tag : Byte) (body : Bytes) (p : Part) :
    p.Keeps (p.takeClipClose tag body) := by
  unfold Part.takeClipClose
  extract_lets refuse
  have hrefuse : ∀ s, p.Keeps (refuse s) := fun s => p.keeps_answer _ _ _ _
  split
  · exact hrefuse _
  · split
    · exact hrefuse _
    · extract_lets x
      split
      · exact hrefuse _
      · exact hrefuse _
      · exact hrefuse _
      · split
        · exact hrefuse _
        · split
          · exact p.keeps_finishClose _ _
          · exact (p.keeps_setJob _ _).trans (Part.keeps_placeRequest _ _)

theorem Part.keeps_takeClipDrop (tag : Byte) (body : Bytes) (p : Part) :
    p.Keeps (p.takeClipDrop tag body) := by
  unfold Part.takeClipDrop
  extract_lets refuse
  have hrefuse : ∀ s, p.Keeps (refuse s) := fun s => p.keeps_answer _ _ _ _
  split
  · exact hrefuse _
  · split
    · exact hrefuse _
    · extract_lets x
      split
      · exact hrefuse _
      · exact hrefuse _
      · exact hrefuse _
      · exact (p.keeps_dropClip _).trans (Part.keeps_answer _ _ _ _ _)

theorem Part.keeps_takeClipDelete (tag : Byte) (body : Bytes) (p : Part) :
    p.Keeps (p.takeClipDelete tag body) := by
  unfold Part.takeClipDelete
  extract_lets refuse
  have hrefuse : ∀ s, p.Keeps (refuse s) := fun s => p.keeps_answer _ _ _ _
  split
  · exact hrefuse _
  · split
    · exact hrefuse _
    · extract_lets x done
      split
      · exact hrefuse _
      · exact hrefuse _
      · exact (p.keeps_dropClip _).trans (Part.keeps_answer _ _ _ _ _)
      · split
        · exact (p.keeps_deleteClip _).trans (Part.keeps_answer _ _ _ _ _)
        · exact hrefuse _

theorem Part.keeps_takeClipQuery (tag : Byte) (body : Bytes) (p : Part) :
    p.Keeps (p.takeClipQuery tag body) := by
  unfold Part.takeClipQuery
  extract_lets reply
  split
  · exact p.keeps_answer _ _ _ _
  · split <;> exact p.keeps_answer _ _ _ _

theorem Part.keeps_takeStoreQuery (tag : Byte) (body : Bytes) (p : Part) :
    p.Keeps (p.takeStoreQuery tag body) := by
  unfold Part.takeStoreQuery
  split <;> exact p.keeps_answer _ _ _ _

theorem Part.keeps_takeStoreCheck (tag : Byte) (body : Bytes) (p : Part) :
    p.Keeps (p.takeStoreCheck tag body) := by
  unfold Part.takeStoreCheck
  split
  · exact p.keeps_answer _ _ _ _
  · extract_lets k
    split
    · exact p.keeps_answer _ _ _ _
    · exact (p.keeps_setCheck _).trans (Part.keeps_formBatch _)

/-! ### Completions -/

theorem Part.keeps_writeCompletes (client : Fin 16) (done : Part → Part)
    (h : ∀ q, Part.Keeps q (done q)) (p : Part) : p.Keeps (p.writeCompletes client done) := by
  unfold Part.writeCompletes
  split
  · split
    · split
      · exact p.keeps_freeDevice
      · exact h p
    · exact .refl p
  · exact .refl p

theorem Part.keeps_fillWritten (p : Part) : p.Keeps p.fillWritten := by
  unfold Part.fillWritten
  split
  · exact (p.keeps_freeDevice.trans (Part.keeps_loadedMore _ _ _)).trans
      (Part.keeps_nextFillWrite _ _ _ _)
  · exact .refl p

theorem Part.keeps_closeWritten (p : Part) : p.Keeps p.closeWritten := by
  unfold Part.closeWritten
  split
  · exact p.keeps_freeDevice.trans (Part.keeps_finishClose _ _ _)
  · exact .refl p

theorem Part.keeps_fillPageWaitEnd (p : Part) : p.Keeps p.fillPageWaitEnd := by
  unfold Part.fillPageWaitEnd
  split
  · split
    · exact .refl p
    · extract_lets q
      have hq : p.Keeps q := by
        unfold q
        split
        · exact (p.keeps_setJob _ _).trans (Part.keeps_answer _ _ _ _ _)
        · exact p.keeps_beginFill _ _ _
      split
      · exact hq.trans (Part.keeps_continueCheck _)
      · exact hq
  · exact .refl p

theorem Part.keeps_sampleTick (p : Part) : p.Keeps p.sampleTick := by
  unfold Part.sampleTick
  have h := (p.readersOnly_samplePeriods (List.finRange 14)).keeps
  generalize Part.samplePeriods (List.finRange 14) p = r at h
  exact h.trans (r.2.keeps_stores _ _ _ _ _)

end Sys2Proof.Machine
end

section
/-! What the operations of the languages, the announcements, the seat strings, the levels, the supply, the lights and
the link keep, and the statements on what every step keeps. -/

namespace Sys2Proof.Machine

/-! ### The Commentary Scheduler -/

/-- The codes that a seat record holds are in their range. -/
abbrev Seat.codesRight (x : Seat) : Prop :=
  x.pending.inRange = true ∧ x.acknowledged.inRange = true ∧
    x.carried.all (fun c => c.2.inRange) = true

theorem Part.keeps_setSeat (p : Part) (i : SeatId) (x : Seat) (hc : p.codesInRange → x.codesRight)
    (hv : p.volumesInRange → x.volume ≤ 15) : p.Keeps (p.setSeat i x) where
  link := id
  codes h := by
    obtain ⟨h1, h2, h3, h4⟩ := id h
    refine ⟨h1, h2, fun j => ?_, h4⟩
    by_cases hj : j = i
    · subst hj; rw [Part.seat_setSeat]; exact hc h
    · rw [Part.seat_setSeat_ne _ _ hj]; exact h3 j
  alert := id
  targets := id
  settings := id
  shed := id
  volumes h j := by
    by_cases hj : j = i
    · subst hj; rw [Part.seat_setSeat]; exact hv h
    · rw [Part.seat_setSeat_ne _ _ hj]; exact h j

/-- A seat's codes and volume stand. -/
theorem Part.keeps_setSeat_same (p : Part) (i : SeatId) (x : Seat)
    (hp : x.pending = (p.seat i).pending := by rfl)
    (ha : x.acknowledged = (p.seat i).acknowledged := by rfl)
    (hc : x.carried = (p.seat i).carried := by rfl) (hv : x.volume = (p.seat i).volume := by rfl) : p.Keeps (p.setSeat i x) := by
  refine p.keeps_setSeat i x (fun h => ?_) fun h => ?_
  · have := h.2.2.1 i
    rw [← hp, ← ha, ← hc] at this; exact this
  · rw [hv]; exact h i

theorem Part.keeps_setSocket (p : Part) (i : SeatId) (k : Socket) : p.Keeps (p.setSocket i k) :=
  p.keeps_setSeat_same _ _

theorem Part.keeps_seatNotice (p : Part) (i : SeatId) : p.Keeps (p.seatNotice i) := p.keeps_raise _

theorem Part.keeps_nodeNotice (p : Part) (i : SeatId) : p.Keeps (p.nodeNotice i) := p.keeps_raise _

theorem Part.keeps_recomputeSeat (p : Part) (i : SeatId) : p.Keeps (p.recomputeSeat i) := by
  unfold Part.recomputeSeat
  refine p.keeps_setSeat i _ (fun h => ?_) fun h => ?_
  rotate_left
  · exact h i
  obtain ⟨_, ha, hc⟩ := h.2.2.1 i
  exact ⟨Seat.recompute_inRange _ _ _ h.1.1.2, ha, hc⟩

/-- Seat records with their codes in range and the volumes that stood. -/
theorem Part.keeps_seats (p : Part) (v : Vector Seat 96)
    (hc : p.codesInRange → ∀ i, (vget v i).codesRight)
    (hv : ∀ i, (vget v i).volume = (p.seat i).volume) : p.Keeps { p with seats := v } where
  link := id
  codes h := by
    obtain ⟨h1, h2, _, h4⟩ := id h
    exact ⟨h1, h2, hc h, h4⟩
  alert := id
  targets := id
  settings := id
  shed := id
  volumes h i := (hv i).trans_le (h i)

theorem Part.keeps_recomputeLanguage (p : Part) (l : Lang) : p.Keeps (p.recomputeLanguage l) := by
  refine p.keeps_seats _ (fun h i => ?_) fun i => ?_
  · obtain ⟨hp, ha, hc⟩ := h.2.2.1 i
    rw [vget_vmap]
    split
    · exact ⟨Seat.recompute_inRange _ _ _ h.1.1.2, ha, hc⟩
    · exact ⟨hp, ha, hc⟩
  · rw [vget_vmap]
    split <;> rfl

theorem Part.keeps_recomputeSeats (p : Part) : p.Keeps p.recomputeSeats :=
  p.announcesOnly_recomputeSeats.keeps fun hj => by rw [Part.recomputeSeats_ann]; exact hj

theorem Part.keeps_recomputePa (p : Part) : p.Keeps p.recomputePa := 
  p.announcesOnly_recomputePa.keeps fun hj => by rw [Part.recomputePa_ann]; exact hj

theorem Part.keeps_changeLanguage (p : Part) (i : SeatId) (l : Lang) : p.Keeps (p.changeLanguage i l) := by
  unfold Part.changeLanguage
  extract_lets s q r
  have hq : p.Keeps q := p.keeps_setSeat_same _ _
  split
  · exact .refl p
  · refine .trans ?_ (Part.keeps_seatNotice _ i)
    refine .trans ?_ (Part.keeps_recomputeSeat _ i)
    unfold r
    split
    · exact hq.trans (Part.streamsOnly_move _ _ _).keeps
    · exact hq

theorem Part.keeps_changeVolume (p : Part) (i : SeatId) (v : Nat) (h : v ≤ 15) :
    p.Keeps (p.changeVolume i v) := by
  unfold Part.changeVolume
  extract_lets s
  split
  · exact .refl p
  · refine .trans ?_ (Part.keeps_seatNotice _ i)
    refine .trans ?_ (Part.keeps_recomputeSeat _ i)
    exact p.keeps_setSeat _ _ (by intro hc; exact hc.2.2.1 i) (by intro _; exact h)

theorem Part.keeps_languageDisabled (p : Part) (l : Lang) : p.Keeps (p.languageDisabled l) :=
  (p.announcesOnly_languageDisabled l).keeps (p.judged_languageDisabled l)

theorem Part.keeps_disableLanguage (p : Part) (l : Lang) : p.Keeps (p.disableLanguage l).1 := by
  unfold Part.disableLanguage
  split
  · refine .trans ?_ (.foldl _ (fun q i => q.keeps_changeLanguage i _) _ _)
    refine .trans ?_ (Part.keeps_languageDisabled _ l)
    refine .trans ?_ (Part.keeps_setLanguage _ _ _)
    refine .trans ?_ (Part.streamsOnly_dropResume _ _).keeps
    refine .trans ?_ (Part.streamsOnly_stopChannel _ _).keeps
    split
    · exact p.keeps_stores _ _ _ _ _
    · exact .refl p
  · exact .refl p

theorem Part.keeps_enableLanguage (p : Part) (l : Lang) : p.Keeps (p.enableLanguage l) := by
  unfold Part.enableLanguage
  extract_lets x
  split
  · exact .refl p
  · exact p.keeps_setLanguage _ _

theorem Part.keeps_applySettings (p : Part) (w : LangWrite) : p.Keeps (p.applySettings w) := by
  unfold Part.applySettings
  have hdefault : ∀ q : Part, q = p ∨ q = { p with lang := { p.lang with default := w.lang } } →
      p.Keeps q := by
    rintro q (rfl | rfl)
    · exact .refl _
    · exact p.keeps_stores _ _ _ _ _
  generalize hq : (if w.makeDefault then { p with lang := { p.lang with default := w.lang } } else p) = q
  have hq : p.Keeps q := hdefault q (by rw [← hq]; split <;> simp)
  simp only
  split
  · exact hq.trans (q.keeps_stores _ _ _ _ _)
  · exact hq.trans (q.keeps_stores _ _ _ _ _)
  · exact hq

theorem Part.keeps_writeLanguage (p : Part) (w : LangWrite) : p.Keeps (p.writeLanguage w).1 := by
  unfold Part.writeLanguage
  extract_lets x trim q r
  have hq : p.Keeps q := p.keeps_setLanguage _ _
  have hr : p.Keeps r := by
    unfold r
    split
    · exact hq
    · exact hq.trans (Part.keeps_recomputeLanguage _ _)
  clear_value r
  refine .trans ?_ (Part.keeps_applySettings _ w)
  split
  · exact hr.trans (r.keeps_disableLanguage _)
  · exact hr.trans (r.keeps_enableLanguage _)

theorem Part.keeps_takeLangSet (tag : Byte) (body : Bytes) (p : Part) :
    p.Keeps (p.takeLangSet tag body) := by
  unfold Part.takeLangSet
  split
  · exact p.keeps_answer _ _ _ _
  · exact (p.keeps_writeLanguage _).trans (Part.keeps_answer _ _ _ _ _)

theorem Part.keeps_takeReelSet (tag : Byte) (body : Bytes) (p : Part) :
    p.Keeps (p.takeReelSet tag body) := by
  unfold Part.takeReelSet
  extract_lets reply
  have hreply : ∀ s (q : Part), q.Keeps (reply s q) := fun s q => q.keeps_answer _ _ _ _
  split
  · exact hreply _ _
  · split
    · exact hreply _ _
    · split
      · exact (p.keeps_setLanguage _ _).trans (hreply _ _)
      · exact hreply _ _

theorem Part.keeps_takeReelClear (tag : Byte) (body : Bytes) (p : Part) :
    p.Keeps (p.takeReelClear tag body) := by
  unfold Part.takeReelClear
  split
  · exact p.keeps_answer _ _ _ _
  · split
    · exact p.keeps_answer _ _ _ _
    · exact (p.keeps_setLanguage _ _).trans (Part.keeps_answer _ _ _ _ _)

theorem Part.keeps_takeCue (tag : Byte) (body : Bytes) (p : Part) : p.Keeps (p.takeCue tag body) := by
  unfold Part.takeCue
  split
  · exact .trans (.foldl _ (fun q l => (q.streamsOnly_placeEntry _ l).keeps) _ p)
      (Part.keeps_answer _ _ _ _ _)
  · exact p.keeps_answer _ _ _ _

theorem Part.keeps_takeStreamQuery (tag : Byte) (body : Bytes) (p : Part) :
    p.Keeps (p.takeStreamQuery tag body) := by
  unfold Part.takeStreamQuery
  extract_lets fields
  split <;> exact p.keeps_answer _ _ _ _

/-! ### The Announcement Controller -/

/-- The sets, the queue and the last ending are none of what DECK-ALERT rests on. -/
theorem Part.keeps_annRecords (p : Part) (s : Vector AnnSet 64) (q : List QEntry) (e : Option LastEnding) :
    p.Keeps { p with ann := { p.ann with sets := s, queue := q, last := e } } :=
  ⟨id, id, id, id, id, id, id⟩

theorem Part.keeps_addRefs (p : Part) (cs : List ClipId) : p.Keeps (p.addRefs cs) :=
  .foldl _ (fun q c => q.keeps_setClip c _) _ p

theorem Part.keeps_dropRefs (p : Part) (cs : List ClipId) : p.Keeps (p.dropRefs cs) :=
  .foldl _ (fun q c => q.keeps_setClip c _) _ p

theorem Part.keeps_setAnnSet (p : Part) (i : SetId) (s : AnnSet) : p.Keeps (p.setAnnSet i s) :=
  p.keeps_annRecords _ _ _

theorem Part.keeps_takeSetDefine (tag : Byte) (body : Bytes) (p : Part) :
    p.Keeps (p.takeSetDefine tag body) := by
  unfold Part.takeSetDefine
  extract_lets fields
  split
  · exact p.keeps_answer _ _ _ _
  · exact (((p.keeps_dropRefs _).trans (Part.keeps_addRefs _ _)).trans (Part.keeps_setAnnSet _ _ _)).trans
      (Part.keeps_answer _ _ _ _ _)

theorem Part.keeps_takeSetRemove (tag : Byte) (body : Bytes) (p : Part) :
    p.Keeps (p.takeSetRemove tag body) := by
  unfold Part.takeSetRemove
  split
  · exact p.keeps_answer _ _ _ _
  · extract_lets s
    split
    · exact p.keeps_answer _ _ _ _
    · split
      · exact p.keeps_answer _ _ _ _
      · exact ((p.keeps_dropRefs _).trans (Part.keeps_setAnnSet _ _ _)).trans (Part.keeps_answer _ _ _ _ _)

theorem Part.keeps_annNotice (p : Part) (i : SetId) (e : AnnEvent) (r : Option AnnReason) :
    p.Keeps (p.annNotice i e r) :=
  (p.announcesOnly_annNotice i e r).keeps fun hj =>
    Announcer.judged_congr hj (by rw [p.annNotice_ann]) (by rw [p.annNotice_ann]) (by
      unfold Announcer.safetyPlaying; rw [p.annNotice_ann])

theorem Part.keeps_setQueue (p : Part) (q : List QEntry) : p.Keeps (p.setQueue q) :=
  p.keeps_annRecords _ _ _

theorem Part.keeps_offerStart (p : Part) : p.Keeps p.offerStart :=
  p.announcesOnly_offerStart.keeps p.judged_offerStart

theorem Playing.cutBy_not_safety {r : Playing} {c : SetClass} (h : r.cutBy c = true) :
    r.entry.cls ≠ .safety := by
  simp only [Playing.cutBy, Bool.and_eq_true, decide_eq_true_eq] at h
  exact h.1.2

theorem Part.keeps_offerPlaced (p : Part) (e : QEntry) : p.Keeps (p.offerPlaced e) := by
  unfold Part.offerPlaced
  split
  · rename_i r hr
    split
    · rename_i hc
      exact ((p.announcesOnly_cutPlaying r).keeps
        (p.judged_cutPlaying r hr (Playing.cutBy_not_safety hc))).trans (Part.keeps_offerStart _)
    · exact p.keeps_offerStart
  · exact p.keeps_offerStart

theorem Part.keeps_placeAnnouncement (p q : Part) (e : QEntry) (d : Option SetId)
    (h : p.placeAnnouncement e = some (q, d)) : p.Keeps q := by
  unfold Part.placeAnnouncement at h
  split at h
  · injection h with h; injection h with h _; subst h; exact p.keeps_setQueue _
  · split at h
    · cases h
    · injection h with h; injection h with h _; subst h
      exact (p.keeps_annNotice _ _ _).trans (Part.keeps_setQueue _ _)

theorem Part.keeps_takeAnnounce (tag : Byte) (body : Bytes) (p : Part) :
    p.Keeps (p.takeAnnounce tag body) := by
  unfold Part.takeAnnounce
  extract_lets reply
  have hreply : ∀ s b d (q : Part), q.Keeps (reply s b d q) := fun s b d q => q.keeps_answer _ _ _ _
  split
  · exact hreply _ _ _ _
  · split
    · exact hreply _ _ _ _
    · split
      · exact hreply _ _ _ _
      · extract_lets e
        split
        · exact hreply _ _ _ _
        · rename_i q d hq
          exact ((p.keeps_placeAnnouncement q e d hq).trans (q.keeps_offerPlaced e)).trans
            (hreply _ _ _ _)

theorem Part.keeps_removeEntry (p : Part) (i : SetId) (r : AnnReason) : p.Keeps (p.removeEntry i r) := by
  unfold Part.removeEntry
  extract_lets head q t
  have ht : p.Keeps t := (p.keeps_setQueue _).trans (q.keeps_annNotice _ _ _)
  split
  · exact ht.trans (Part.keeps_offerStart _)
  · exact ht

theorem Part.keeps_cancelPlaying (p : Part) (r : Playing) : p.Keeps (p.cancelPlaying r) :=
  (p.announcesOnly_cancelPlaying r).keeps fun _ => p.judged_cancelPlaying r

theorem Part.keeps_takeAnnounceCancel (tag : Byte) (body : Bytes) (p : Part) :
    p.Keeps (p.takeAnnounceCancel tag body) := by
  unfold Part.takeAnnounceCancel
  extract_lets reply
  have hreply : ∀ s b (q : Part), q.Keeps (reply s b q) := fun s b q => q.keeps_answer _ _ _ _
  split
  · exact hreply _ _ _
  · split
    · exact (p.keeps_removeEntry _ _).trans (hreply _ _ _)
    · split
      · split
        · exact (p.keeps_cancelPlaying _).trans (hreply _ _ _)
        · exact hreply _ _ _
      · exact hreply _ _ _

theorem Part.keeps_takeQueueQuery (tag : Byte) (body : Bytes) (p : Part) :
    p.Keeps (p.takeQueueQuery tag body) := by
  unfold Part.takeQueueQuery
  split
  · exact p.keeps_answer _ _ _ _
  · split <;> exact p.keeps_answer _ _ _ _

theorem Part.keeps_entryExpiry (i : SetId) (p : Part) : p.Keeps (p.entryExpiry i) := by
  unfold Part.entryExpiry
  split
  · exact .refl p
  · exact (p.keeps_reach _).trans (Part.keeps_removeEntry _ _ _)

theorem Part.keeps_tailEnds (p : Part) : p.Keeps p.tailEnds := by
  unfold Part.tailEnds
  split
  · exact .refl p
  · rename_i r _
    split
    · exact (p.keeps_reach _).trans
        ((Part.announcesOnly_endTail _ r).keeps fun _ => Part.judged_endTail _ r)
    · exact .refl p

/-! ### The Seat String Controller -/

/-- The code of a string's last poll is in its range. -/
abbrev StringRec.codeRight (x : StringRec) : Prop := x.lastPoll.all (fun q => q.gain.inRange) = true

theorem Part.keeps_setString (p : Part) (i : StringId) (x : StringRec)
    (h : p.codesInRange → x.codeRight) : p.Keeps (p.setString i x) where
  link := id
  codes hp := by
    obtain ⟨h1, h2, h3, h4⟩ := id hp
    refine ⟨h1, h2, h3, fun j => ?_⟩
    by_cases hj : j = i
    · subst hj; rw [Part.string_setString]; exact h hp
    · have e : (p.setString i x).string j = p.string j := by simp [Part.string, Part.setString, hj]
      rw [e]; exact h4 j
  alert := id
  targets := id
  settings := id
  shed := id
  volumes := id

theorem Part.keeps_setString_same (p : Part) (i : StringId) (x : StringRec)
    (h : x.lastPoll = (p.string i).lastPoll := by rfl) : p.Keeps (p.setString i x) :=
  p.keeps_setString i x fun hp => by unfold StringRec.codeRight; rw [h]; exact hp.2.2.2 i

theorem Seat.poll_gain_inRange (s : Seat) (n : Nat) (d : Shed) (h : s.pending.inRange = true) :
    (s.poll n d).gain.inRange = true := by
  unfold Seat.poll
  simp only
  split
  · exact h
  · rfl

theorem Part.keeps_beginExchange (p : Part) (i : StringId) : p.Keeps (p.beginExchange i) := by
  unfold Part.beginExchange
  extract_lets x
  split
  · exact .refl p
  · rename_i k _
    extract_lets s q
    split
    · refine .trans (p.keeps_setString i _ (fun h => ?_)) (Part.keeps_setSeat _ k _ (fun h => ?_) ?_)
      · exact Seat.poll_gain_inRange _ _ _ (h.2.2.1 k).1
      · obtain ⟨hp, ha, _⟩ := h.2.2.1 k
        exact ⟨hp, ha, Seat.poll_gain_inRange s (positionOf k) p.supply.shed hp⟩
      · intro h; exact h k
    · exact .refl p

theorem Part.keeps_beginRound (p : Part) (i : StringId) : p.Keeps (p.beginRound i) := by
  unfold Part.beginRound
  extract_lets x
  split
  · exact p.keeps_setString_same _ _
  · exact (p.keeps_setString_same _ _).trans (Part.keeps_beginExchange _ _)

theorem Part.keeps_continueRound (p : Part) (i : StringId) : p.Keeps (p.continueRound i) := by
  unfold Part.continueRound
  extract_lets x q
  have hq : p.Keeps q := p.keeps_setString_same _ _
  split
  · exact .refl p
  · split
    · exact p.keeps_beginExchange _
    · split
      · exact hq.trans (Part.keeps_beginRound _ _)
      · exact hq

theorem Part.keeps_nodeDown (p : Part) (i : SeatId) : p.Keeps (p.nodeDown i) := by
  unfold Part.nodeDown
  extract_lets s k q r
  split
  · exact .refl p
  · have hq : p.Keeps q := p.keeps_setSocket _ _
    have hr : p.Keeps r := by
      unfold r
      split
      · exact (hq.trans (Part.streamsOnly_leave _ _).keeps).trans (Part.keeps_recomputeSeat _ _)
      · exact hq
    split
    · exact hr
    · exact hr.trans (Part.keeps_seatNotice _ _)

theorem Part.keeps_unconfigure (p : Part) (i : SeatId) : p.Keeps (p.unconfigure i) :=
  ((p.keeps_setSeat_same _ _).trans (Part.keeps_nodeNotice _ _)).trans
    (Part.keeps_nodeDown _ _)

theorem Part.keeps_configure (p : Part) (i : SeatId) : p.Keeps (p.configure i) :=
  (p.keeps_setSeat_same _ _).trans (Part.keeps_nodeNotice _ _)

theorem Part.keeps_applyPopulation (p : Part) (i : StringId) (n : Nat) :
    p.Keeps (p.applyPopulation i n) := by
  unfold Part.applyPopulation
  extract_lets x old q
  have hq : p.Keeps q := p.keeps_setString_same _ _
  split
  · exact hq.trans (.foldl _ (fun q k => q.keeps_unconfigure k) _ _)
  · exact hq.trans (.foldl _ (fun q k => q.keeps_configure k) _ _)

theorem Part.keeps_applyPending (p : Part) (i : StringId) : p.Keeps (p.applyPending i) := by
  unfold Part.applyPending
  extract_lets x
  split
  · exact .refl p
  · extract_lets q
    split
    · exact p.keeps_applyPopulation _ _
    · exact (p.keeps_applyPopulation _ _).trans (Part.keeps_answer _ _ _ _ _)

theorem Part.keeps_endExchange (p : Part) (i : StringId) : p.Keeps (p.endExchange i) := by
  unfold Part.endExchange
  refine .trans ?_ (Part.keeps_continueRound _ i)
  refine .trans ?_ (Part.keeps_setString_same _ _ _)
  refine .trans ?_ (Part.keeps_applyPending _ i)
  split
  · exact p.keeps_setString_same _ _
  · rename_i k _
    refine .trans (p.keeps_setSeat k _ (fun h => ?_) ?_) (Part.keeps_setString_same _ _ _)
    · obtain ⟨hp, ha, _⟩ := h.2.2.1 k
      exact ⟨hp, ha, rfl⟩
    · intro h; exact h k

theorem Part.keeps_acknowledgePower (p : Part) (i : SeatId) (b : Bool) :
    p.Keeps (p.acknowledgePower i b) := by
  unfold Part.acknowledgePower
  extract_lets k k' q
  have hq : p.Keeps q := p.keeps_setSocket _ _
  split
  · split
    · exact hq
    · exact hq.trans (Part.keeps_seatNotice _ _)
  · exact p.keeps_setSocket _ _

theorem Part.keeps_acknowledge (p : Part) (i : SeatId) : p.Keeps (p.acknowledge i) := by
  unfold Part.acknowledge
  split
  · exact .refl p
  · rename_i power gain hcar
    refine .trans (p.keeps_setSeat i _ (fun h => ?_) ?_) (Part.keeps_acknowledgePower _ _ _)
    · obtain ⟨hp, _, hc⟩ := h.2.2.1 i
      refine ⟨hp, ?_, hc⟩
      rw [hcar] at hc
      exact hc
    · intro h; exact h i

theorem pressedVolume_le (v u d : Nat) : pressedVolume v u d ≤ 15 := by
  unfold pressedVolume clampInt
  omega

theorem Part.keeps_takePresses (p : Part) (i : SeatId) (c : Counters) : p.Keeps (p.takePresses i c) := by
  unfold Part.takePresses
  extract_lets s q
  have hq : p.Keeps q := p.keeps_setSeat_same _ _
  split
  · exact hq
  · exact (hq.trans (Part.keeps_changeLanguage _ _ _)).trans
      (Part.keeps_changeVolume _ _ _ (pressedVolume_le _ _ _))

theorem Part.keeps_socketFault (p : Part) (i : SeatId) (r : FaultReason) (s a : Nat) :
    p.Keeps (p.socketFault i r s a) := by
  unfold Part.socketFault
  refine .trans ?_ (Part.keeps_seatNotice _ _)
  refine .trans ?_ (Part.keeps_setSocket _ _ _)
  split
  · have hseat : (p.leave (p.seat i).language).seat i = p.seat i := by
      unfold Part.seat; rw [(p.streamsOnly_leave _).seats]
    refine .trans (p.streamsOnly_leave _).keeps (Part.keeps_setSeat _ _ _ (fun h => ?_) fun h => ?_)
    · obtain ⟨_, ha, hc⟩ := h.2.2.1 i
      rw [hseat] at ha hc
      exact ⟨rfl, ha, hc⟩
    · have := h i
      rw [hseat] at this
      exact this
  · exact .refl p

theorem Part.keeps_decideSocket (p : Part) (i : SeatId) (x : Indication) (n : Nat) :
    p.Keeps (p.decideSocket i x n) := by
  unfold Part.decideSocket
  extract_lets s k q t u
  split
  · exact p.keeps_socketFault _ _ _ _
  · split
    · exact .refl p
    · refine .trans ?_ (Part.keeps_seatNotice _ _)
      refine .trans ?_ (Part.keeps_recomputeSeat _ _)
      exact (p.keeps_setSocket _ _).trans (Part.streamsOnly_join _ _).keeps
  · split
    · exact .refl p
    · refine .trans ?_ (Part.keeps_seatNotice _ _)
      unfold u
      split
      · refine .trans ?_ (Part.keeps_recomputeSeat _ _)
        exact (p.keeps_setSocket _ _).trans (Part.streamsOnly_leave _ _).keeps
      · exact p.keeps_setSocket _ _

theorem Part.keeps_takeSample (p : Part) (i : SeatId) (n : Nat) : p.Keeps (p.takeSample i n) := by
  unfold Part.takeSample
  have hk : ∀ k, p.Keeps (p.setSocket i k) := fun k => p.keeps_setSocket i k
  extract_lets k k' x run q
  split
  · split
    · exact (hk _).trans (Part.keeps_socketFault _ _ _ _ _)
    · split
      · split
        · exact (hk _).trans (Part.keeps_decideSocket _ _ _ _)
        · exact hk _
      · exact hk _
  · exact hk _

theorem Part.keeps_takeAnswer (p : Part) (i : SeatId) (a : Answer) : p.Keeps (p.takeAnswer i a) := by
  unfold Part.takeAnswer
  extract_lets s
  have hbegin : p.Keeps ((((p.setSeat i { s with
      node := .online, missCount := 0, baselines := some a.counters }).nodeNotice i).acknowledge
        i).takeSample i a.sample) := by
    refine .trans ?_ (Part.keeps_takeSample _ _ _)
    refine .trans ?_ (Part.keeps_acknowledge _ _)
    exact (p.keeps_setSeat_same _ _).trans (Part.keeps_nodeNotice _ _)
  split
  · refine .trans ?_ (Part.keeps_takeSample _ _ _)
    refine .trans ?_ (Part.keeps_takePresses _ _ _)
    exact (p.keeps_setSeat_same _ _).trans (Part.keeps_acknowledge _ _)
  · exact hbegin
  · exact hbegin
  · exact .refl p

theorem Part.keeps_takeMiss (p : Part) (i : SeatId) : p.Keeps (p.takeMiss i) := by
  unfold Part.takeMiss
  extract_lets s
  split
  · split
    · exact ((p.keeps_setSeat_same _ _).trans (Part.keeps_nodeNotice _ _)).trans
        (Part.keeps_nodeDown _ _)
    · exact p.keeps_setSeat_same _ _
  all_goals exact .refl p

theorem Part.keeps_takeStringSet (tag : Byte) (body : Bytes) (p : Part) :
    p.Keeps (p.takeStringSet tag body) := by
  unfold Part.takeStringSet
  extract_lets refuse
  split
  · exact p.keeps_answer _ _ _ _
  · split
    · exact p.keeps_answer _ _ _ _
    · extract_lets x
      split
      · exact p.keeps_setString_same _ _
      · exact (p.keeps_applyPopulation _ _).trans (Part.keeps_answer _ _ _ _ _)

theorem Part.keeps_roundStarts (i : StringId) (p : Part) : p.Keeps (p.roundStarts i) := by
  unfold Part.roundStarts
  extract_lets x
  split
  · exact (p.keeps_reach _).trans (Part.keeps_beginRound _ _)
  · exact .refl p

theorem Part.keeps_nodeAnswers (i : StringId) (bytes : Bytes) (p : Part) :
    p.Keeps (p.nodeAnswers i bytes) := by
  unfold Part.nodeAnswers
  split
  · exact .refl p
  · split
    · exact .refl p
    · exact (p.keeps_takeAnswer _ _).trans (Part.keeps_endExchange _ _)

theorem Part.keeps_answerTimesOut (i : StringId) (p : Part) : p.Keeps (p.answerTimesOut i) := by
  unfold Part.answerTimesOut
  split
  · exact .refl p
  · exact (p.keeps_takeMiss _).trans (Part.keeps_endExchange _ _)

theorem Part.keeps_releasePollsSent (i : StringId) (p : Part) : p.Keeps (p.releasePollsSent i) := by
  unfold Part.releasePollsSent
  extract_lets x q
  have hq : p.Keeps q := p.keeps_setString_same _ _
  split
  · exact .refl p
  · split
    · exact hq
    · exact hq.trans (Part.keeps_continueRound _ _)

/-! ### The seat requests and the sockets' timers -/

theorem Part.keeps_takeSeatSet (tag : Byte) (body : Bytes) (p : Part) :
    p.Keeps (p.takeSeatSet tag body) := by
  unfold Part.takeSeatSet
  extract_lets refuse
  have hrefuse : ∀ s, p.Keeps (refuse s) := fun s => p.keeps_answer _ _ _ _
  split
  · exact hrefuse _
  · split
    · split
      · refine .trans (.foldl _ (fun q i => ?_) _ p) (Part.keeps_answer _ _ _ _ _)
        exact (q.keeps_changeLanguage _ _).trans (Part.keeps_changeVolume _ _ _ (Nat.min_le_left _ _))
      · exact hrefuse _
    · exact hrefuse _

theorem Part.keeps_takeSeatQuery (tag : Byte) (body : Bytes) (p : Part) :
    p.Keeps (p.takeSeatQuery tag body) := by
  unfold Part.takeSeatQuery
  extract_lets reply
  have hreply : ∀ s, p.Keeps (reply s) := fun s => p.keeps_answer _ _ _ _
  split
  · exact hreply _
  · split
    · split
      · exact hreply _
      · exact (hreply _).trans (Part.keeps_setSocket _ _ _)
    · exact hreply _

theorem Part.keeps_takeSeatRelease (tag : Byte) (body : Bytes) (p : Part) :
    p.Keeps (p.takeSeatRelease tag body) := by
  unfold Part.takeSeatRelease
  extract_lets reply
  have hreply : ∀ s (q : Part), q.Keeps (reply s q) := fun s q => q.keeps_answer _ _ _ _
  split
  · exact hreply _ _
  · split
    · exact hreply _ _
    · split
      · exact ((p.keeps_setSocket _ _).trans (Part.keeps_seatNotice _ _)).trans (hreply _ _)
      · exact hreply _ _

theorem Part.keeps_settleEnds (i : SeatId) (p : Part) : p.Keeps (p.settleEnds i) := by
  unfold Part.settleEnds
  extract_lets k
  split
  · exact .refl p
  · exact (p.keeps_reach _).trans (Part.keeps_setSocket _ _ _)

theorem Part.keeps_coolDownEnds (i : SeatId) (p : Part) : p.Keeps (p.coolDownEnds i) := by
  unfold Part.coolDownEnds
  extract_lets k
  split
  · exact .refl p
  · exact ((p.keeps_reach _).trans (Part.keeps_setSocket _ _ _)).trans (Part.keeps_seatNotice _ _)

end Sys2Proof.Machine
end

section
/-! What the operations of the levels, the supply, the lights, the resets and the link keep, and the statements on what
every step keeps. -/

namespace Sys2Proof.Machine

/-! ### The Level Unit -/

/-- A Level Unit with its limits in range, its PA code and its shed reduction. -/
theorem Part.keeps_level (p : Part) (l : LevelUnit) (hl : p.level.limitsInRange → l.limitsInRange)
    (hp : l.paCode = p.level.paCode) (hs : l.shed = p.level.shed) : p.Keeps { p with level := l } where
  link := id
  codes h := by
    obtain ⟨h1, h2, h3, h4⟩ := h
    exact ⟨hl h1, by rw [hp]; exact h2, h3, h4⟩
  alert := id
  targets := id
  settings := id
  shed h := by
    obtain ⟨h1, h2, h3⟩ := h
    exact ⟨h1, hs.trans h2, h3⟩
  volumes := id

theorem Part.keeps_takeSpeedValue (p : Part) (n : Nat) : p.Keeps (p.takeSpeedValue n) := by
  unfold Part.takeSpeedValue
  extract_lets q
  have hq : p.Keeps q := p.keeps_level _ id (by rfl) (by rfl)
  split
  · exact hq
  · exact (hq.trans q.keeps_recomputeSeats).trans (Part.keeps_recomputePa _)

theorem Part.keeps_takeSpeed (tag : Byte) (body : Bytes) (p : Part) : p.Keeps (p.takeSpeed tag body) := by
  unfold Part.takeSpeed
  split
  · exact p.keeps_answer _ _ _ _
  · exact (p.keeps_takeSpeedValue _).trans (Part.keeps_answer _ _ _ _ _)

theorem Part.keeps_speedStale (p : Part) : p.Keeps p.speedStale := by
  unfold Part.speedStale
  split
  · exact .refl p
  · exact (p.keeps_reach _).trans (Part.keeps_level _ _ id (by rfl) (by rfl))

theorem newLimit_inRange (old low high : Int) (f : Option Int) (hr : low ≤ high)
    (h : low ≤ old ∧ old ≤ high) : low ≤ newLimit old low high f ∧ newLimit old low high f ≤ high := by
  unfold newLimit clampInt
  split
  · exact h
  · omega

theorem LevelUnit.withLimits_inRange (l : LevelUnit) (body : Bytes) (h : l.limitsInRange) :
    (l.withLimits body).limitsInRange := by
  obtain ⟨h1, h2, h3, h4⟩ := h
  exact ⟨newLimit_inRange _ _ _ _ (by decide) h1, newLimit_inRange _ _ _ _ (by decide) h2,
    newLimit_inRange _ _ _ _ (by decide) h3, newLimit_inRange _ _ _ _ (by decide) h4⟩

theorem Part.keeps_writeLimits (p : Part) (body : Bytes) : p.Keeps (p.writeLimits body) := by
  unfold Part.writeLimits
  extract_lets old new q r
  have hq : p.Keeps q := p.keeps_level _ (LevelUnit.withLimits_inRange _ body) (by rfl) (by rfl)
  have hr : p.Keeps r := by
    unfold r
    split
    · exact hq.trans q.keeps_recomputeSeats
    · exact hq
  split
  · exact hr.trans r.keeps_recomputePa
  · exact hr

theorem Part.keeps_takeLevelSet (tag : Byte) (body : Bytes) (p : Part) :
    p.Keeps (p.takeLevelSet tag body) := by
  unfold Part.takeLevelSet
  split
  · exact p.keeps_answer _ _ _ _
  · exact (p.keeps_writeLimits _).trans (Part.keeps_answer _ _ _ _ _)

/-! ### Targets and alarms of zones -/

/-- R163: a zone's effective level depends on its own record alone among the zones. -/
theorem Light.effective_zones (l : Light) (v : Vector Zone 8) (z : ZoneId) (h : vget v z = vget l.zones z) :
    Light.effective { l with zones := v } z = l.effective z :=
  l.effective_configured v z (by rw [h]; exact .refl _) (by rw [h])

/-- R98: a zone that keeps DECK-ALERT asserted. -/
def Zone.alarmed (x : Zone) : Bool := x.safety && decide (x.fault ≠ .ok)

theorem Light.safetyFault_congr {l m : Light}
    (h : ∀ z, (vget m.zones z).alarmed = (vget l.zones z).alarmed) : m.safetyFault = l.safetyFault := by
  unfold Light.safetyFault
  congr 1
  funext z
  exact h z

theorem Zone.Configured.alarmed {x y : Zone} (h : x.Configured y) : y.alarmed = x.alarmed := by
  rw [h]; rfl

/-- Lights with the targets right, the shed state that stood and the zone report, told anew if it may differ. -/
theorem Part.keeps_light (p : Part) (l : Light) (ht : p.targetsRight → ∀ z, (vget l.zones z).target = l.effective z)
    (hs : l.shed = p.light.shed) (hf : l.safetyFault = p.light.safetyFault) :
    p.Keeps { p with light := l } where
  link := id
  codes := id
  alert h := by
    obtain ⟨h1, h2⟩ := h
    exact ⟨h1, h2.trans hf.symm⟩
  targets := ht
  settings := id
  shed h := by
    obtain ⟨h1, h2, h3⟩ := h
    exact ⟨h1, h2, hs.trans h3⟩
  volumes := id

/-- R98: after the zone report, DECK-ALERT is right whatever it was. -/
theorem Part.keeps_told (p : Part) (l : Light) (ht : p.targetsRight → ∀ z, (vget l.zones z).target = l.effective z)
    (hs : l.shed = p.light.shed) : p.Keeps (Part.tellSafety { p with light := l }) where
  link := id
  codes := id
  alert _ := ⟨rfl, rfl⟩
  targets := ht
  settings := id
  shed h := by
    obtain ⟨h1, h2, h3⟩ := h
    exact ⟨h1, h2, hs.trans h3⟩
  volumes := id

/-- One zone's record is written with a target that is its effective level. -/
theorem Light.targets_vset (l : Light) (z : ZoneId) (x : Zone)
    (h : ∀ y, (vget l.zones y).target = l.effective y)
    (hx : x.target = Light.effective { l with zones := vset l.zones z x } z) (y : ZoneId) :
    (vget (vset l.zones z x) y).target = Light.effective { l with zones := vset l.zones z x } y := by
  by_cases hy : y = z
  · subst hy; rw [vget_vset_same]; exact hx
  · rw [l.effective_zones _ y (by simp [hy]), vget_vset_ne _ _ hy]
    exact h y

/-- A zone's record is written that differs in none of what its target and DECK-ALERT rest on. -/
theorem Part.keeps_setZone (p : Part) (z : ZoneId) (x : Zone) (he : ∀ s b, x.effective s b = (p.zone z).effective s b)
    (hh : x.halves = (p.zone z).halves) (ht : x.target = (p.zone z).target)
    (ha : x.alarmed = (p.zone z).alarmed) : p.Keeps (p.setZone z x) := by
  refine p.keeps_light _ (fun h => Light.targets_vset _ _ _ h ?_) (by rfl) (Light.safetyFault_congr fun y => ?_)
  · rw [ht, h z]
    unfold Light.effective
    simp only [vget_vset_same, he]
    unfold Light.base
    simp only [vget_vset_same, hh]
    rfl
  · by_cases hy : y = z
    · subst hy; rw [vget_vset_same]; exact ha
    · rw [vget_vset_ne _ _ hy]

/-- R164: a zone's target has been recomputed after its record was written. -/
theorem Light.retargetZone_vset (l : Light) (now : PartTime) (how : Follow) (z : ZoneId) (x : Zone) :
    ∃ y, Light.retargetZone { l with zones := vset l.zones z x } now how z =
        { l with zones := vset l.zones z y } ∧ x.Configured y ∧ y.halves = x.halves ∧
      y.target = Light.effective { l with zones := vset l.zones z y } z := by
  have hspec := x.retarget_spec now l.stepInterval how
    (Light.effective { l with zones := vset l.zones z x } z)
  refine ⟨_, ?_, hspec.1, hspec.2.2, ?_⟩
  · simp only [Light.retargetZone, vget_vset_same, vset_vset]
    rfl
  · rw [hspec.2.1]
    have := Light.effective_configured { l with zones := vset l.zones z x } (vset l.zones z
      (x.retarget now l.stepInterval how (Light.effective { l with zones := vset l.zones z x } z))) z
      (by simpa using hspec.1) (by simpa using hspec.2.2)
    exact this.symm

theorem Light.targets_retargetZone (l : Light) (now : PartTime) (how : Follow) (z : ZoneId) (x : Zone)
    (h : ∀ y, (vget l.zones y).target = l.effective y) :
    ∀ y, (vget (Light.retargetZone { l with zones := vset l.zones z x } now how z).zones y).target =
      (Light.retargetZone { l with zones := vset l.zones z x } now how z).effective y := by
  obtain ⟨w, hw, _, _, ht⟩ := l.retargetZone_vset now how z x
  rw [hw]
  exact l.targets_vset z w h ht

/-! ### The Supply Monitor -/

theorem Part.keeps_supply (p : Part) (s : Supply) (hs : p.supply.settingsRight → s.settingsRight)
    (hd : s.shed = p.supply.shed) (hv : s.voltageState = p.supply.voltageState)
    (hc : s.currentLow = p.supply.currentLow) : p.Keeps { p with supply := s } where
  link := id
  codes := id
  alert := id
  targets := id
  settings := hs
  shed h := by
    obtain ⟨h1, h2, h3⟩ := h
    unfold Part.shedRight
    simp only [hd, hv, hc]
    exact ⟨h1, h2, h3⟩
  volumes := id

/-- R164: the GENERAL zones' targets follow the shed state told; a SAFETY zone's does not depend on it. -/
theorem Light.tellShed_spec (l : Light) (now : PartTime) (s : Shed) (z : ZoneId) :
    (vget l.zones z).Configured (vget (l.tellShed now s).zones z) ∧
      ((vget l.zones z).target = l.effective z →
        (vget (l.tellShed now s).zones z).target = (l.tellShed now s).effective z) := by
  have hv : vget (l.tellShed now s).zones z = if (vget l.zones z).safety then vget l.zones z
      else (vget l.zones z).retarget now l.stepInterval .fading (Light.effective { l with shed := s } z) := by
    simp only [Light.tellShed, vget_vmap]
    rfl
  have hh : (vget (l.tellShed now s).zones z).halves = (vget l.zones z).halves ∧
      (vget l.zones z).Configured (vget (l.tellShed now s).zones z) := by
    rw [hv]
    split
    · exact ⟨rfl, .refl _⟩
    · exact ⟨(Zone.retarget_spec _ _ _ _ _).2.2, (Zone.retarget_spec _ _ _ _ _).1⟩
  refine ⟨hh.2, fun h => ?_⟩
  have he : (l.tellShed now s).effective z = Light.effective { l with shed := s } z :=
    Light.effective_configured { l with shed := s } _ z hh.2 hh.1
  rw [he, hv]
  split
  · rename_i hsafe
    rw [h]
    simp only [Light.effective, Zone.effective, hsafe, if_true]
    rfl
  · exact (Zone.retarget_spec _ _ _ _ _).2.1

theorem Part.tellLevelShed_codes (p : Part) (s : Shed) (h : p.codesInRange) :
    (p.tellLevelShed s).codesInRange := by
  refine (Part.keeps_recomputePa _).codes ((Part.keeps_recomputeSeats _).codes ?_)
  exact h

theorem Part.tellLevelShed_shed (p : Part) (s : Shed) : (p.tellLevelShed s).level.shed = s.reduction := rfl

/-- R155: a Supply Monitor whose judgements may have moved, with the shed state found again. -/
theorem Part.keeps_findShed (p : Part) (s : Supply) (hs : p.supply.settingsRight → s.settingsRight)
    (hd : s.shed = p.supply.shed) : p.Keeps (Part.findShed { p with supply := s }) := by
  have hsupply := Part.findShed_supply { p with supply := s }
  by_cases hsame : worse s.voltageState s.currentLow = s.shed
  · have e : Part.findShed { p with supply := s } = { p with supply := s } := by
      unfold Part.findShed
      exact if_pos hsame
    rw [e]
    refine ⟨id, id, id, id, hs, fun h => ?_, id⟩
    obtain ⟨h1, h2, h3⟩ := h
    exact ⟨hsame.symm, by simpa [hd] using h2, by simpa [hd] using h3⟩
  · have e : Part.findShed { p with supply := s } =
        (let q := Part.raise (.supply s.shed (worse s.voltageState s.currentLow) s.voltageAverage
            s.currentAverage) { p with supply := { s with shed := worse s.voltageState s.currentLow } }
          let r := q.tellLevelShed (worse s.voltageState s.currentLow)
          { r with light := r.light.tellShed r.time (worse s.voltageState s.currentLow) }) := by
      unfold Part.findShed
      exact if_neg hsame
    rw [e]
    extract_lets q r
    obtain ⟨k, hq⟩ : ∃ k, q = { p with
        supply := { s with shed := worse s.voltageState s.currentLow }, link := k } :=
      ⟨_, Part.raise_only_link _ _⟩
    have hlight : r.light = p.light := by
      unfold r Part.tellLevelShed
      rw [Part.recomputePa_light, Part.recomputeSeats_light, hq]
    have hann : r.ann = p.ann := by
      unfold r Part.tellLevelShed
      rw [Part.recomputePa_ann, Part.recomputeSeats_ann, hq]
    have hsup : r.supply = { s with shed := worse s.voltageState s.currentLow } := by
      unfold r Part.tellLevelShed
      rw [Part.recomputePa_supply, Part.recomputeSeats_supply, hq]
    have hlink : r.link = q.link := by
      unfold r Part.tellLevelShed
      rw [Part.recomputePa_link, Part.recomputeSeats_link]
    have hseats : ∀ i, (r.seat i).volume = (p.seat i).volume := by
      intro i
      unfold r Part.tellLevelShed
      rw [(Part.announcesOnly_recomputePa _).seats, (Part.announcesOnly_recomputeSeats _).seats, hq]
      rfl
    have hcodes : q.codesInRange → r.codesInRange := q.tellLevelShed_codes _
    have hshed : r.level.shed = (worse s.voltageState s.currentLow).reduction := q.tellLevelShed_shed _
    have hbound : p.link.bounded → q.link.bounded := (Part.keeps_raise { p with
      supply := { s with shed := worse s.voltageState s.currentLow } } _).link
    have hspec := Light.tellShed_spec r.light r.time (worse s.voltageState s.currentLow)
    clear_value r
    generalize hnew : r.light.tellShed r.time (worse s.voltageState s.currentLow) = m at hspec
    have hm : m.shed = worse s.voltageState s.currentLow := by rw [← hnew]; rfl
    refine ⟨fun h => ?_, fun h => ?_, fun h => ?_, fun h z => ?_, fun h => ?_, fun _ => ?_, fun h i => ?_⟩
    · simp only [hlink]; exact hbound h
    · refine Part.codesInRange_congr (p := r) rfl rfl rfl (hcodes ?_)
      rw [hq]; exact h
    · obtain ⟨h1, h2⟩ := h
      have hf : m.safetyFault = r.light.safetyFault := Light.safetyFault_congr fun z => (hspec z).1.alarmed
      exact ⟨by simp only [hann]; exact h1, by simp only [hann, hf, hlight]; exact h2⟩
    · refine (hspec z).2 ?_
      rw [hlight]; exact h z
    · simp only [hsup]; exact hs h
    · exact ⟨by simp only [hsup], by simp only [hsup, hshed], by simp only [hsup, hm]⟩
    · exact (hseats i).trans_le (h i)

theorem Supply.judgeVoltageNow_settings (s : Supply) (h : s.settingsRight) :
    s.judgeVoltageNow.settingsRight := by
  unfold Supply.judgeVoltageNow; split <;> exact h

theorem Supply.judgeCurrentNow_settings (s : Supply) (h : s.settingsRight) :
    s.judgeCurrentNow.settingsRight := by
  unfold Supply.judgeCurrentNow; split <;> exact h

theorem Supply.judgeVoltageNow_shed (s : Supply) : s.judgeVoltageNow.shed = s.shed := by
  unfold Supply.judgeVoltageNow; split <;> rfl

theorem Supply.judgeCurrentNow_shed (s : Supply) : s.judgeCurrentNow.shed = s.shed := by
  unfold Supply.judgeCurrentNow; split <;> rfl

theorem Part.keeps_voltageSample (n : Nat) (p : Part) : p.Keeps (p.voltageSample n) := by
  unfold Part.voltageSample
  split
  · exact (p.keeps_reach _).trans (Part.keeps_findShed _ _
      (fun h => Supply.judgeVoltageNow_settings _ h) (Supply.judgeVoltageNow_shed _))
  · exact .refl p

theorem Part.keeps_currentSample (n : Nat) (p : Part) : p.Keeps (p.currentSample n) := by
  unfold Part.currentSample
  extract_lets q lit r
  split
  · have hr : p.Keeps r := (p.keeps_reach _).trans (Part.keeps_findShed q _
      (fun h => Supply.judgeCurrentNow_settings _ h) (Supply.judgeCurrentNow_shed _))
    exact hr.trans (r.keeps_supply _ id (by rfl) (by rfl) (by rfl))
  · exact .refl p

/-- R156: the pair as checked. -/
theorem checkPair_right (a b : Nat) (ha : 16000 ≤ a ∧ a ≤ 30000) (hb : 16000 ≤ b ∧ b ≤ 30000) :
    16000 ≤ (checkPair a b).2 ∧ (checkPair a b).2 < (checkPair a b).1 ∧ (checkPair a b).1 ≤ 30000 := by
  unfold checkPair
  split
  · split
    · simp
    · dsimp only; omega
  · dsimp only; omega

theorem Supply.withSettings_right (s : Supply) (body : Bytes) (h : s.settingsRight) :
    (s.withSettings body).settingsRight := by
  obtain ⟨hscan, hshift, ⟨h1, h2, h3⟩, hbudget⟩ := h
  have hheld : ∀ old low high f, low ≤ high → low ≤ old → old ≤ high →
      low ≤ heldField old low high f ∧ heldField old low high f ≤ high := by
    intro old low high f hr ho hh
    unfold heldField clampNat
    split
    · exact ⟨ho, hh⟩
    · omega
  have hlow := hheld s.vLow 16000 30000 (keep16 body 0) (by decide) (by omega) h3
  have hcrit := hheld s.vCrit 16000 30000 (keep16 body 2) (by decide) h1 (by omega)
  refine ⟨?_, hheld _ _ _ _ (by decide) hshift.1 hshift.2, ?_,
    hheld _ _ _ _ (by decide) hbudget.1 hbudget.2⟩
  · simp only [Supply.withSettings]
    split
    · exact hscan
    · unfold storedScan
      split
      · simp
      · split <;> simp
  · exact checkPair_right _ _ hlow hcrit

theorem Part.keeps_writeSettings (p : Part) (body : Bytes) : p.Keeps (p.writeSettings body) := by
  unfold Part.writeSettings
  extract_lets old new q r
  have hnew : p.supply.settingsRight → new.settingsRight := p.supply.withSettings_right body
  have hq : p.Keeps q := p.keeps_supply _ hnew (by rfl) (by rfl) (by rfl)
  have hfind : ∀ t : Part, t.Keeps t.findShed := fun t => t.keeps_findShed t.supply id rfl
  have hr : p.Keeps r := by
    unfold r
    split
    · exact hq.trans (q.keeps_findShed _ (Supply.judgeVoltageNow_settings _) (Supply.judgeVoltageNow_shed _))
    · exact hq
  clear_value r
  refine .trans ?_ (hfind _)
  split
  · exact hr.trans (r.keeps_findShed _ (Supply.judgeCurrentNow_settings _) (Supply.judgeCurrentNow_shed _))
  · exact hr

theorem Part.keeps_takeSupplySet (tag : Byte) (body : Bytes) (p : Part) :
    p.Keeps (p.takeSupplySet tag body) := by
  unfold Part.takeSupplySet
  split
  · exact p.keeps_answer _ _ _ _
  · exact (p.keeps_writeSettings _).trans (Part.keeps_answer _ _ _ _ _)

theorem Part.keeps_takeSupplyQuery (tag : Byte) (body : Bytes) (p : Part) :
    p.Keeps (p.takeSupplyQuery tag body) := by
  unfold Part.takeSupplyQuery
  split <;> exact p.keeps_answer _ _ _ _

theorem Part.keeps_takeSupplyPeakClear (tag : Byte) (body : Bytes) (p : Part) :
    p.Keeps (p.takeSupplyPeakClear tag body) := by
  unfold Part.takeSupplyPeakClear
  split
  · exact p.keeps_answer _ _ _ _
  · exact .trans (p.keeps_supply { p.supply with peak := 0 } id rfl rfl rfl)
      (Part.keeps_answer _ _ _ _ _)

/-! ### Lamp judgement -/

/-- R171: the light after a fault is set, before DECK-ALERT is judged. -/
theorem Part.setFault_targets (p : Part) (z : ZoneId) (f : ZoneFault) (h : p.targetsRight) (how : Follow) :
    let l := (p.setZone z { p.zone z with fault := f }).light
    (∀ y, (vget (l.retargetZone p.time how z).zones y).target = (l.retargetZone p.time how z).effective y) :=
  p.light.targets_retargetZone p.time how z { p.zone z with fault := f } h

end Sys2Proof.Machine
end

section
/-! What the operations of the lamps, the resets and the link keep, the shape of every command, and the statements on
what every step keeps. -/

namespace Sys2Proof.Machine

/-! ### Lamps -/

theorem Light.safetyFault_vset (l : Light) (z : ZoneId) (x : Zone)
    (h : x.alarmed = (vget l.zones z).alarmed) :
    Light.safetyFault { l with zones := vset l.zones z x } = l.safetyFault := by
  refine Light.safetyFault_congr fun y => ?_
  by_cases hy : y = z
  · subst hy; rw [vget_vset_same]; exact h
  · rw [vget_vset_ne _ _ hy]

/-- A dark zone whose effective level is 0 stands at its target. -/
theorem Zone.dark_effective (x : Zone) (now : PartTime) (s : Shed) (b : Nat) :
    (x.dark now).effective s b = x.effective s b := rfl

theorem Zone.faultDarkens_effective (x : Zone) (s : Shed) (b : Nat) (h : x.faultDarkens x.fault = true) :
    x.effective s b = 0 := by
  unfold Zone.faultDarkens at h
  unfold Zone.effective
  cases hf : x.fault <;> simp_all

/-- R171: the lights after a zone's record is written and its target is recomputed or put to 0. -/
theorem Part.zoneFollows (p : Part) (z : ZoneId) (x : Zone) (dark : Bool)
    (hd : dark = true → ∀ s b, x.effective s b = 0) :
    ∃ y, (if dark then (p.setZone z x).setZone z (x.dark p.time)
        else { p.setZone z x with light := (p.setZone z x).light.retargetZone p.time .fading z }) =
        p.setZone z y ∧ x.Configured y ∧
      (p.targetsRight → (p.setZone z y).targetsRight) := by
  cases dark with
  | true =>
    refine ⟨x.dark p.time, by simp, rfl, fun h => p.light.targets_vset z _ h ?_⟩
    unfold Light.effective
    rw [vget_vset_same, Zone.dark_effective, hd rfl]
    rfl
  | false =>
    obtain ⟨y, hy, hconf, _, ht⟩ := p.light.retargetZone_vset p.time .fading z x
    refine ⟨y, ?_, hconf, fun h => p.light.targets_vset z y h ht⟩
    simp only [Bool.false_eq_true, if_false, Part.setZone]
    rw [hy]

/-- A zone's record is written, a notice may be raised, and the Announcement Controller is told where the zone report
may differ. -/
theorem Part.keeps_zoneWritten (p : Part) (z : ZoneId) (y : Zone) (k : Link) (told : Bool)
    (hk : p.link.bounded → k.bounded) (ht : p.targetsRight → (p.setZone z y).targetsRight)
    (ha : told = false → y.alarmed = (p.zone z).alarmed) :
    p.Keeps (if told then Part.tellSafety { p.setZone z y with link := k }
      else { p.setZone z y with link := k }) := by
  cases told with
  | true => exact (p.keeps_told _ ht rfl).trans (Part.keeps_link _ k hk)
  | false =>
    exact (p.keeps_light _ ht rfl (p.light.safetyFault_vset z y (ha rfl))).trans (Part.keeps_link _ k hk)

theorem Part.keeps_setFault (p : Part) (z : ZoneId) (f : ZoneFault) : p.Keeps (p.setFault z f) := by
  have hdark : (p.zone z).faultDarkens f = true → ∀ s b, Zone.effective { p.zone z with fault := f } s b = 0 :=
    fun h s b => Zone.faultDarkens_effective { p.zone z with fault := f } s b h
  obtain ⟨y, hy, hconf, ht⟩ :=
    p.zoneFollows z { p.zone z with fault := f } ((p.zone z).faultDarkens f) hdark
  have hfault : p.setFault z f = (if y.safety then Part.tellSafety
      { p.setZone z y with link := p.link.noted (.zone z f) p.time }
      else { p.setZone z y with link := p.link.noted (.zone z f) p.time }) := by
    unfold Part.setFault
    extract_lets x q r t
    have hq : q.zone z = { p.zone z with fault := f } := p.zone_setZone z _
    have hr : r = p.setZone z y := by
      unfold r
      rw [hq]
      exact hy
    have ht : t = { p.setZone z y with link := p.link.noted (.zone z f) p.time } := by
      unfold t
      rw [hr, Part.raise_only_link]
      rfl
    have hz : t.zone z = y := by
      rw [ht]
      exact p.zone_setZone z y
    rw [hz, ht]
  rw [hfault]
  refine p.keeps_zoneWritten z y _ _ (Link.noted_noted _ _ _).bounded ht fun hs => ?_
  have hsafe : (p.zone z).safety = false := by rw [hconf] at hs; exact hs
  simp [Zone.alarmed, hs, hsafe]

theorem Part.keeps_judgeZone (z : ZoneId) (mA level : Nat) (p : Part) : p.Keeps (p.judgeZone z mA level) := by
  unfold Part.judgeZone
  extract_lets x a count q
  have hq : p.Keeps q := p.keeps_setZone z _ (fun _ _ => rfl) rfl rfl rfl
  split
  · exact .refl p
  · split
    · exact p.keeps_setFault _ _
    · split
      · exact .refl p
      · split
        · exact hq.trans (q.keeps_setFault _ _)
        · exact hq

theorem Part.keeps_zoneSample (z : ZoneId) (mA level : Nat) (p : Part) : p.Keeps (p.zoneSample z mA level) := by
  rcases p.zoneSample_cases z mA level with ⟨_, e⟩ | ⟨_, e⟩
  · rw [e]; exact .refl p
  · rw [e]
    exact .trans (p.keeps_supply (p.supply.storeSample z ⟨min 60000 mA, level⟩) id rfl rfl rfl)
      (Part.keeps_judgeZone _ _ _ _)

/-! ### Lighting requests and events -/

theorem Zone.configured_effective_disabled (x : Zone) (w : ZoneWrite) (h : w.enabled = false) (s : Shed) (b : Nat) :
    (x.configured w).effective s b = 0 := by
  have he : (x.configured w).enabled = false := by
    unfold Zone.configured
    simp only [h, true_or, if_true]
  simp [Zone.effective, he]

theorem Zone.configured_alarm (x : Zone) (w : ZoneWrite) :
    (x.configured w).safety = w.safety ∧ (x.configured w).fault = .ok := by
  unfold Zone.configured
  simp only
  split <;> exact ⟨rfl, rfl⟩

theorem Part.keeps_configureZone (z : ZoneId) (w : ZoneWrite) (p : Part) : p.Keeps (p.configureZone z w) := by
  have hdark : (!w.enabled) = true → ∀ s b, ((p.zone z).configured w).effective s b = 0 :=
    fun h => (p.zone z).configured_effective_disabled w (by simpa using h)
  obtain ⟨y, hy, hconf, ht⟩ := p.zoneFollows z ((p.zone z).configured w) (!w.enabled) hdark
  obtain ⟨hsafety, hok⟩ := (p.zone z).configured_alarm w
  have halarm : ∀ told : Bool,
      (told = true ↔ ((p.zone z).fault ≠ .ok ∧ w.safety = true) ∨ (p.zone z).safety ≠ w.safety) →
      told = false → y.alarmed = (p.zone z).alarmed := by
    rintro told htold rfl
    have hcond : ¬(((p.zone z).fault ≠ .ok ∧ w.safety = true) ∨ (p.zone z).safety ≠ w.safety) := by
      rw [← htold]; simp
    rw [hconf.alarmed]
    simp only [Zone.alarmed, hsafety, hok]
    by_cases hs : (p.zone z).safety = w.safety
    · cases hw : w.safety <;> simp_all
    · exact absurd (.inr hs) hcond
  have hbound : ∀ l, p.link.Noted l → p.link.bounded → l.bounded := fun l h => h.bounded
  have hwritten : ∃ k, p.link.Noted k ∧ p.configureZone z w =
      (if decide (((p.zone z).fault ≠ .ok ∧ w.safety = true) ∨ (p.zone z).safety ≠ w.safety) then
        Part.tellSafety { p.setZone z y with link := k } else { p.setZone z y with link := k }) := by
    unfold Part.configureZone
    extract_lets old q r t
    have hq : q.zone z = (p.zone z).configured w := p.zone_setZone z _
    have hr : r = p.setZone z y := by
      rw [← hy]
      unfold r
      rw [hq]
      cases w.enabled <;> rfl
    have ht : ∃ k, p.link.Noted k ∧ t = { p.setZone z y with link := k } := by
      unfold t
      rw [hr]
      split
      · exact ⟨p.link, .refl _, rfl⟩
      · exact ⟨_, Link.noted_noted p.link (.zone z .ok) p.time, Part.raise_only_link _ _⟩
    obtain ⟨k, hk, ht⟩ := ht
    refine ⟨k, hk, ?_⟩
    rw [ht]
    simp only [decide_eq_true_eq]
    rfl
  obtain ⟨k, hk, e⟩ := hwritten
  rw [e]
  exact p.keeps_zoneWritten z y k _ (hbound k hk) ht (halarm _ decide_eq_true_iff)

theorem Part.keeps_takeZoneSet (tag : Byte) (body : Bytes) (p : Part) :
    p.Keeps (p.takeZoneSet tag body) := by
  unfold Part.takeZoneSet
  extract_lets reply
  have hreply : ∀ s (q : Part), q.Keeps (reply s q) := fun s q => q.keeps_answer _ _ _ _
  split
  · exact hreply _ _
  · split
    · exact hreply _ _
    · exact (p.keeps_configureZone _ _).trans (hreply _ _)

/-- R164: every target recomputed under other scenes, another active scene, another cue or other halves. -/
theorem Part.keeps_retargetAll (p : Part) (l : Light) (now : PartTime) (how : Follow)
    (hz : ∀ z, (vget l.zones z).alarmed = (p.zone z).alarmed) (hs : l.shed = p.light.shed) :
    p.Keeps { p with light := l.retargetAll now how } := by
  have hspec := l.retargetAll_spec now how
  refine p.keeps_light _ (fun _ z => (hspec.2 z).2.2) (by rw [hspec.1]; exact hs)
    (Light.safetyFault_congr fun z => ?_)
  rw [(hspec.2 z).1.alarmed, hz]
  rfl

theorem Part.keeps_writeScene (n : Fin 8) (x : Scene) (p : Part) : p.Keeps (p.writeScene n x) := by
  unfold Part.writeScene
  extract_lets x l
  split
  · exact p.keeps_retargetAll l _ _ (fun _ => rfl) rfl
  · rename_i hn
    have hscene : vget l.scenes l.active = vget p.light.scenes p.light.active := by
      simp only [l]; rw [vget_vset_ne]; exact fun e => hn e.symm
    refine p.keeps_light l (fun h z => (h z).trans ?_) rfl rfl
    unfold Light.effective Light.base
    rw [hscene]

theorem Part.keeps_takeSceneSet (tag : Byte) (body : Bytes) (p : Part) :
    p.Keeps (p.takeSceneSet tag body) := by
  unfold Part.takeSceneSet
  extract_lets reply
  have hreply : ∀ s (q : Part), q.Keeps (reply s q) := fun s q => q.keeps_answer _ _ _ _
  split
  · exact hreply _ _
  · split
    · exact hreply _ _
    · exact (p.keeps_writeScene _ _).trans (hreply _ _)

theorem Part.keeps_selectScene (n : Fin 8) (p : Part) : p.Keeps (p.selectScene n) := by
  unfold Part.selectScene
  split
  · exact .refl p
  · exact p.keeps_retargetAll _ _ _ (fun _ => rfl) rfl

theorem Part.keeps_takeSceneSelect (tag : Byte) (body : Bytes) (p : Part) :
    p.Keeps (p.takeSceneSelect tag body) := by
  unfold Part.takeSceneSelect
  split
  · exact p.keeps_answer _ _ _ _
  · split
    · exact p.keeps_answer _ _ _ _
    · exact (p.keeps_selectScene _).trans (Part.keeps_answer _ _ _ _ _)

/-- R175: a cue that is not the active one is written. -/
theorem Part.keeps_writeCue (p : Part) (c : Fin 16) (x : Vector CueItem 8)
    (h : p.light.activeCue.any (fun a => decide (a.1 = c)) = false) :
    p.Keeps { p with light := { p.light with cues := vset p.light.cues c x } } := by
  refine p.keeps_light _ (fun ht z => (ht z).trans ?_) rfl rfl
  unfold Light.effective Light.base
  simp only
  cases ha : p.light.activeCue with
  | none => rfl
  | some a =>
    rw [ha] at h
    have hne : a.1 ≠ c := by simpa using h
    simp only [vget_vset_ne _ _ hne]

theorem Part.keeps_takeLightcueSet (tag : Byte) (body : Bytes) (p : Part) :
    p.Keeps (p.takeLightcueSet tag body) := by
  unfold Part.takeLightcueSet
  extract_lets reply
  have hreply : ∀ s (q : Part), q.Keeps (reply s q) := fun s q => q.keeps_answer _ _ _ _
  split
  · exact hreply _ _
  · split
    · exact hreply _ _
    · split
      · exact hreply _ _
      · split
        · exact hreply _ _
        · rename_i h
          exact (p.keeps_writeCue _ _ (by simpa using h)).trans (hreply _ _)

theorem Part.keeps_takeDeckQuery (tag : Byte) (body : Bytes) (p : Part) :
    p.Keeps (p.takeDeckQuery tag body) := by
  unfold Part.takeDeckQuery
  split <;> exact p.keeps_answer _ _ _ _

theorem Zone.step_spec (x : Zone) (d : PartTime) (n : Nat) :
    x.Configured (x.step d n) ∧ (x.step d n).halves = x.halves ∧ (x.step d n).target = x.target := by
  unfold Zone.step
  extract_lets level
  split <;> exact ⟨rfl, rfl, rfl⟩

theorem Part.keeps_fadeStep (z : ZoneId) (p : Part) : p.Keeps (p.fadeStep z) := by
  unfold Part.fadeStep
  split
  · exact .refl p
  · rename_i d _
    obtain ⟨hconf, hh, ht⟩ := (p.zone z).step_spec d p.light.stepInterval
    have hzone : (p.reach d).zone z = p.zone z := by rw [Part.reach_eq]; rfl
    refine (p.keeps_reach d).trans (Part.keeps_setZone _ _ _ (fun s b => ?_) ?_ ?_ ?_)
    · rw [hzone]; exact hconf.effective s b
    · rw [hzone]; exact hh
    · rw [hzone]; exact ht
    · rw [hzone]; exact hconf.alarmed

theorem Part.keeps_flashHalf (z : ZoneId) (p : Part) : p.Keeps (p.flashHalf z) := by
  unfold Part.flashHalf
  split
  · exact .refl p
  · rename_i d _
    refine (p.keeps_reach d).trans ?_
    generalize p.reach d = q
    obtain ⟨y, hy, hconf, _, ht⟩ := q.light.retargetZone_vset q.time .atOnce z
      { q.zone z with halves := (q.zone z).halves + 1 }
    simp only [Part.setZone]
    rw [hy]
    refine q.keeps_light _ (fun h => q.light.targets_vset z y h ht) rfl (q.light.safetyFault_vset z y ?_)
    rw [hconf.alarmed]
    rfl

/-! ### Resets, standby and wake -/

theorem Part.keeps_clearStore (p : Part) : p.Keeps p.clearStore := p.keeps_stores _ _ _ _ _

theorem Part.keeps_withdrawAll (p : Part) : p.Keeps p.withdrawAll := p.keeps_stores _ _ _ _ _

theorem Light.cleared_zone (l : Light) (z : ZoneId) :
    (vget l.cleared.zones z).fault = .ok ∧
      (vget l.cleared.zones z).target = l.cleared.effective z := by
  refine ⟨by simp [Light.cleared], ?_⟩
  simp only [Light.effective, Light.base, Zone.effective, Light.cleared, vget_vmap]

/-- R147, R159, R177, R101, R118, R135: the cleared blocks meet the invariants. -/
theorem Part.keeps_cleared (p : Part) (q : Part) (hlevel : q.level = p.level.cleared)
    (hsupply : q.supply = { p.supply.cleared with running := q.supply.running }) (hlight : q.light = p.light.cleared)
    (hann : q.ann.playing = none ∧ q.ann.safetyFault = false ∧ q.ann.deckAlert = false)
    (hseats : ∀ i, (q.seat i).pending = .mute ∧ (q.seat i).acknowledged = .mute ∧ (q.seat i).carried = none ∧
      (q.seat i).volume = (p.seat i).volume)
    (hstrings : ∀ i, (q.string i).lastPoll = (p.string i).lastPoll) (hlink : q.link = p.link) : p.Keeps q where
  link h := by rw [hlink]; exact h
  codes h := by
    obtain ⟨h1, _, _, h4⟩ := h
    refine ⟨by rw [hlevel]; exact h1, by rw [hlevel]; rfl, fun i => ?_, fun i => ?_⟩
    · obtain ⟨hp, ha, hc, _⟩ := hseats i
      rw [hp, ha, hc]; exact ⟨rfl, rfl, rfl⟩
    · rw [hstrings]; exact h4 i
  alert _ := by
    obtain ⟨hp, hf, hd⟩ := hann
    have hsafe : q.light.safetyFault = false := by
      rw [hlight]
      unfold Light.safetyFault
      simp only [(Light.cleared_zone p.light _).1]
      simp
    exact ⟨by simp [hp, hf, hd, Announcer.safetyPlaying], by rw [hf, hsafe]⟩
  targets _ z := by
    unfold Part.zone
    rw [hlight]
    exact (Light.cleared_zone p.light z).2
  settings h := by rw [hsupply]; exact h
  shed _ := by
    refine ⟨by rw [hsupply]; rfl, by rw [hlevel, hsupply]; rfl, by rw [hlight, hsupply]; rfl⟩
  volumes h i := by rw [(hseats i).2.2.2]; exact h i

theorem Part.resetStrings_seat (p : Part) (i : SeatId) :
    ∃ n m, p.resetStrings.seat i = (p.seat i).reset n m := by
  simp only [Part.resetStrings, Part.seat, vget_vmap]
  exact ⟨_, _, rfl⟩

theorem Part.keeps_clearBlocks (p : Part) (c : ResetCause) : p.Keeps (p.clearBlocks c) := by
  refine p.keeps_cleared _ rfl rfl rfl ⟨rfl, rfl, rfl⟩ (fun i => ?_) (fun i => ?_) rfl
  · obtain ⟨n, m, h⟩ := Part.resetStrings_seat
      { p.clearStore.withdrawAll with
        store := { p.clearStore.withdrawAll.store with clearing := some c }
        bank := p.bank.cleared, lang := p.lang.cleared, ann := p.ann.cleared } i
    have e : (p.clearBlocks c).seat i = (p.seat i).reset n m := h
    rw [e]
    exact ⟨rfl, rfl, rfl, rfl⟩
  · unfold Part.clearBlocks Part.resetStrings Part.string
    simp only [vget_vmap]
    rfl

theorem Part.keeps_clearNow (p : Part) : p.Keeps p.clearNow := by
  unfold Part.clearNow
  split
  · exact .refl p
  · exact p.keeps_finishClearing

theorem Part.keeps_cutOff (p : Part) (s : Status) (x : Slot) : p.Keeps (p.cutOff s x) := by
  unfold Part.cutOff
  split
  · exact .refl p
  · split
    · exact .refl p
    · exact .refl p
    · exact p.keeps_answer _ _ _ _
    · split
      · exact .refl p
      · exact p.keeps_answer _ _ _ _

theorem Part.keeps_cutOffAll (p : Part) (s : Status) : p.Keeps (p.cutOffAll s) :=
  .foldl _ (fun q x => q.keeps_cutOff s x) _ p

theorem Part.keeps_answerTaken (p : Part) (k : Kind) (s : Status) : p.Keeps (p.answerTaken k s) := by
  unfold Part.answerTaken
  split
  · exact p.keeps_answer _ _ _ _
  · exact .refl p

theorem Part.keeps_recordReset (p : Part) : p.Keeps p.recordReset := by
  unfold Part.recordReset
  split
  · exact .refl p
  · exact p.keeps_annRecords _ _ _

theorem Part.keeps_dropForStandby (p : Part) : p.Keeps p.dropForStandby :=
  .foldl _ (fun q i => q.keeps_annNotice i _ _) _ p

theorem Part.keeps_clearNotices (p : Part) : p.Keeps p.clearNotices :=
  p.keeps_link _ fun ⟨h1, h2, _⟩ => ⟨h1, h2, Nat.zero_le _⟩

theorem Part.keeps_setResetting (p : Part) (b : Bool) : p.Keeps (p.setResetting b) := p.keeps_link _ id

theorem Part.keeps_setEntering (p : Part) (b : Bool) : p.Keeps (p.setEntering b) := p.keeps_link _ id

theorem Light.comeUp_zone (l : Light) (now : PartTime) (z : ZoneId) :
    (vget l.zones z).Configured (vget (l.comeUp now).zones z) ∧
      (vget (l.comeUp now).zones z).target = (l.comeUp now).effective z := by
  have hv : vget (l.comeUp now).zones z =
      (vget l.zones z).startFade now l.stepInterval (l.effective z) := by simp [Light.comeUp]
  have hconf : (vget l.zones z).Configured (vget (l.comeUp now).zones z) := by rw [hv]; rfl
  refine ⟨hconf, ?_⟩
  have he : (l.comeUp now).effective z = l.effective z :=
    l.effective_configured _ z hconf (by simp only [vget_vmap]; rfl)
  rw [he, hv]
  rfl

theorem Part.keeps_startRunning (p : Part) : p.Keeps p.startRunning := by
  have hrounds : p.Keeps p.beginRounds := .foldl _ (fun q i => q.keeps_beginRound i) _ p
  refine hrounds.trans ?_
  unfold Part.startRunning
  generalize p.beginRounds = q
  refine .trans (q.keeps_supply (q.supply.start q.time) id rfl rfl rfl) ?_
  exact Part.keeps_light _ _ (fun _ z => (Light.comeUp_zone q.light q.time z).2) rfl
    (Light.safetyFault_congr fun z => (Light.comeUp_zone q.light q.time z).1.alarmed)

theorem Part.keeps_beginWarmReset (p : Part) : p.Keeps p.beginWarmReset := by
  unfold Part.beginWarmReset
  extract_lets running q r m t u
  have hq : p.Keeps q := .trans (.trans (p.keeps_setResetting true) (Part.keeps_cutOffAll _ _))
    (Part.keeps_recordReset _)
  have hr : p.Keeps r := hq.trans (q.keeps_clearBlocks .warm)
  have ht : p.Keeps t := hr.trans (r.keeps_stores _ _ _ _ _)
  have hu : p.Keeps u := ht.trans t.keeps_clearNow
  clear_value u
  split
  · exact hu.trans u.keeps_startRunning
  · exact hu

theorem Part.keeps_releaseHeld (p : Part) :
    p.Keeps { p with link := { p.link with slots := releaseHeld p.link.slots } } :=
  p.keeps_link _ fun ⟨h1, h2, h3⟩ => ⟨by simpa [releaseHeld] using h1, h2, h3⟩

theorem Part.keeps_endWarmReset (p : Part) : p.Keeps p.endWarmReset := by
  unfold Part.endWarmReset
  refine .trans ?_ (Part.keeps_setResetting _ _)
  refine .trans ?_ (Part.keeps_releaseHeld _)
  exact (p.keeps_finishClearing.trans (Part.keeps_clearNotices _)).trans (Part.keeps_answerTaken _ _ _)

theorem Part.keeps_beginStandby (p : Part) : p.Keeps p.beginStandby := by
  unfold Part.beginStandby
  extract_lets q r s t
  have hq : p.Keeps q := .trans (.trans (.trans (p.keeps_setEntering true) (Part.keeps_clearNotices _))
    (Part.keeps_cutOffAll _ _)) (Part.keeps_dropForStandby _)
  have hr : p.Keeps r := hq.trans (q.keeps_clearBlocks .standby)
  have ht : p.Keeps t := hr.trans (r.keeps_supply _ id (by rfl) (by rfl) (by rfl))
  exact ht.trans t.keeps_clearNow

/-- String records with the last polls that stood. -/
theorem Part.keeps_strings (p : Part) (v : Vector StringRec 4)
    (h : ∀ i, (vget v i).lastPoll = (p.string i).lastPoll) : p.Keeps { p with strings := v } where
  link := id
  codes hp := by
    obtain ⟨h1, h2, h3, h4⟩ := hp
    exact ⟨h1, h2, h3, fun i => by unfold Part.string; rw [h]; exact h4 i⟩
  alert := id
  targets := id
  settings := id
  shed := id
  volumes := id

theorem Part.keeps_completeStandby (p : Part) : p.Keeps p.completeStandby := by
  unfold Part.completeStandby
  extract_lets q m r t b u
  have ht : p.Keeps t := .trans (.trans p.keeps_finishClearing (q.keeps_stores _ _ _ _ _)) (r.keeps_raise _)
  have hu : p.Keeps u := by
    refine (ht.trans (t.keeps_strings (vmap (fun _ x => x.switchOff) t.strings) fun i => ?_)).trans
      (Part.keeps_stores _ _ _ _ _ _)
    rw [vget_vmap]
    rfl
  exact (hu.trans (u.keeps_answerTaken _ _)).trans (Part.keeps_setEntering _ _)

theorem Part.keeps_enterRunning (p : Part) : p.Keeps p.enterRunning := by
  unfold Part.enterRunning
  extract_lets m q r t
  have hr : p.Keeps r := (p.keeps_stores _ _ _ _ _).trans (q.keeps_raise _)
  have ht : p.Keeps t := hr.trans (r.keeps_strings _ fun i => by rw [vget_vmap]; rfl)
  exact ht.trans t.keeps_startRunning

theorem Part.keeps_modeSettingDone (p : Part) : p.Keeps p.modeSettingDone := by
  unfold Part.modeSettingDone
  split
  · exact p.keeps_enterRunning
  · exact .refl p

theorem Part.keeps_coldResetEnd (p : Part) : p.Keeps p.coldResetEnd := by
  unfold Part.coldResetEnd
  split
  · exact p.keeps_stores _ _ _ _ _
  · exact .refl p

theorem Part.keeps_selfRefreshEntered (p : Part) : p.Keeps p.selfRefreshEntered := by
  unfold Part.selfRefreshEntered
  split
  · exact p.keeps_completeStandby
  · exact .refl p

theorem Part.keeps_warmResetComplete (p : Part) : p.Keeps p.warmResetComplete := by
  unfold Part.warmResetComplete
  split
  · exact p.keeps_endWarmReset
  · exact .refl p

/-! ### The Link Port -/

theorem Part.keeps_takePartIdent (tag : Byte) (body : Bytes) (p : Part) :
    p.Keeps (p.takePartIdent tag body) := by
  unfold Part.takePartIdent
  split <;> exact p.keeps_answer _ _ _ _

theorem Part.keeps_takePartStatus (tag : Byte) (body : Bytes) (p : Part) :
    p.Keeps (p.takePartStatus tag body) := by
  unfold Part.takePartStatus
  split
  · exact p.keeps_answer _ _ _ _
  · exact (p.keeps_answer _ _ _ _).trans (Part.keeps_link _ _ id)

theorem Part.keeps_takePartReset (tag : Byte) (body : Bytes) (p : Part) :
    p.Keeps (p.takePartReset tag body) := by
  unfold Part.takePartReset
  split
  · exact p.keeps_answer _ _ _ _
  · exact p.keeps_beginWarmReset

theorem Part.keeps_takeStandby (tag : Byte) (body : Bytes) (p : Part) :
    p.Keeps (p.takeStandby tag body) := by
  unfold Part.takeStandby
  split
  · exact p.keeps_answer _ _ _ _
  · split
    · exact p.keeps_beginStandby
    · exact p.keeps_answer _ _ _ _

theorem Part.keeps_wake (p : Part) : p.Keeps p.wake :=
  (p.keeps_raise _).trans (Part.keeps_stores _ _ _ _ _ _)

theorem Part.keeps_takeWake (tag : Byte) (body : Bytes) (p : Part) : p.Keeps (p.takeWake tag body) := by
  unfold Part.takeWake
  split
  · exact p.keeps_answer _ _ _ _
  · split
    · exact p.keeps_wake.trans (Part.keeps_answer _ _ _ _ _)
    · exact p.keeps_answer _ _ _ _

theorem Part.keeps_onReceiver (f : Part → Part) (h : ∀ q, Part.Keeps q (f q)) (p : Part) :
    p.Keeps (p.onReceiver f) := by
  unfold Part.onReceiver
  split
  · exact .refl p
  · exact h p

theorem Part.keeps_frameReceived (k tag : Byte) (body : Bytes) (c : BitVec 16) (p : Part) :
    p.Keeps (p.frameReceived k tag body c) := by
  unfold Part.frameReceived
  split
  · exact p.keeps_frameError _
  · split
    · exact p.keeps_accept _ _ _
    · exact p.keeps_frameError _

theorem Part.keeps_lengthTaken (n : BitVec 16) (p : Part) : p.Keeps (p.lengthTaken n) := by
  unfold Part.lengthTaken
  split
  · exact p.keeps_frameError _
  · exact .refl p

theorem Part.keeps_errorInFrame (c : ErrorCause) (p : Part) : p.Keeps (p.errorInFrame c) := by
  unfold Part.errorInFrame
  split
  · exact .refl p
  · exact p.keeps_frameError _

theorem Part.keeps_syncReceived (p : Part) : p.Keeps p.syncReceived := p.keeps_link _ id

theorem Part.keeps_frameSent (p : Part) : p.Keeps p.frameSent := p.keeps_link _ id

end Sys2Proof.Machine
end

section
/-! The shape of every command, what a step keeps of each invariant, and the state after reset: the statements on
steps, assembled from what the operations keep. -/

namespace Sys2Proof.Machine

/-! ### The shape of a command -/

/-- What a command is on a state: an operation of the part that keeps the invariants, with the command's end; one of
the three commands that also speak of clip memory; or nothing at all. -/
inductive Instr.Shape (c : Instr) (s : State) : Prop where
  | acts (f : Part → Part) (keeps : ∀ p : Part, p.Keeps (f p)) (h : exec c s = .next (s.onPart f))
  | coldReset (hc : c = .coldReset) (h : exec c s = .next { s with dram := [], part := Part.cold })
  | grants (hc : c = .arbiterGrant)
  | reads (r : ReaderId) (hc : c = .readerReadCompletion r)
  | stands (h : exec c s = .next s)

theorem Instr.shape (c : Instr) (s : State) : Instr.Shape c s := by
  cases c with
  | clipOpen tag body =>
    exact .acts _ (Part.keeps_request _ tag body _ (Part.keeps_takeClipOpen tag body)) rfl
  | clipFill tag body =>
    exact .acts _ (Part.keeps_request _ tag body _ (Part.keeps_takeClipFill tag body)) rfl
  | clipClose tag body =>
    exact .acts _ (Part.keeps_request _ tag body _ (Part.keeps_takeClipClose tag body)) rfl
  | clipDrop tag body =>
    exact .acts _ (Part.keeps_request _ tag body _ (Part.keeps_takeClipDrop tag body)) rfl
  | clipDelete tag body =>
    exact .acts _ (Part.keeps_request _ tag body _ (Part.keeps_takeClipDelete tag body)) rfl
  | clipQuery tag body =>
    exact .acts _ (Part.keeps_request _ tag body _ (Part.keeps_takeClipQuery tag body)) rfl
  | storeQuery tag body =>
    exact .acts _ (Part.keeps_request _ tag body _ (Part.keeps_takeStoreQuery tag body)) rfl
  | storeCheck tag body =>
    exact .acts _ (Part.keeps_request _ tag body _ (Part.keeps_takeStoreCheck tag body)) rfl
  | langSet tag body =>
    exact .acts _ (Part.keeps_request _ tag body _ (Part.keeps_takeLangSet tag body)) rfl
  | reelSet tag body =>
    exact .acts _ (Part.keeps_request _ tag body _ (Part.keeps_takeReelSet tag body)) rfl
  | reelClear tag body =>
    exact .acts _ (Part.keeps_request _ tag body _ (Part.keeps_takeReelClear tag body)) rfl
  | cue tag body =>
    exact .acts _ (Part.keeps_request _ tag body _ (Part.keeps_takeCue tag body)) rfl
  | streamQuery tag body =>
    exact .acts _ (Part.keeps_request _ tag body _ (Part.keeps_takeStreamQuery tag body)) rfl
  | setDefine tag body =>
    exact .acts _ (Part.keeps_request _ tag body _ (Part.keeps_takeSetDefine tag body)) rfl
  | setRemove tag body =>
    exact .acts _ (Part.keeps_request _ tag body _ (Part.keeps_takeSetRemove tag body)) rfl
  | announce tag body =>
    exact .acts _ (Part.keeps_request _ tag body _ (Part.keeps_takeAnnounce tag body)) rfl
  | announceCancel tag body =>
    exact .acts _ (Part.keeps_request _ tag body _ (Part.keeps_takeAnnounceCancel tag body)) rfl
  | queueQuery tag body =>
    exact .acts _ (Part.keeps_request _ tag body _ (Part.keeps_takeQueueQuery tag body)) rfl
  | stringSet tag body =>
    exact .acts _ (Part.keeps_request _ tag body _ (Part.keeps_takeStringSet tag body)) rfl
  | seatSet tag body =>
    exact .acts _ (Part.keeps_request _ tag body _ (Part.keeps_takeSeatSet tag body)) rfl
  | seatQuery tag body =>
    exact .acts _ (Part.keeps_request _ tag body _ (Part.keeps_takeSeatQuery tag body)) rfl
  | seatRelease tag body =>
    exact .acts _ (Part.keeps_request _ tag body _ (Part.keeps_takeSeatRelease tag body)) rfl
  | speed tag body =>
    exact .acts _ (Part.keeps_request _ tag body _ (Part.keeps_takeSpeed tag body)) rfl
  | levelSet tag body =>
    exact .acts _ (Part.keeps_request _ tag body _ (Part.keeps_takeLevelSet tag body)) rfl
  | supplySet tag body =>
    exact .acts _ (Part.keeps_request _ tag body _ (Part.keeps_takeSupplySet tag body)) rfl
  | supplyQuery tag body =>
    exact .acts _ (Part.keeps_request _ tag body _ (Part.keeps_takeSupplyQuery tag body)) rfl
  | supplyPeakClear tag body =>
    exact .acts _ (Part.keeps_request _ tag body _ (Part.keeps_takeSupplyPeakClear tag body)) rfl
  | zoneSet tag body =>
    exact .acts _ (Part.keeps_request _ tag body _ (Part.keeps_takeZoneSet tag body)) rfl
  | sceneSet tag body =>
    exact .acts _ (Part.keeps_request _ tag body _ (Part.keeps_takeSceneSet tag body)) rfl
  | sceneSelect tag body =>
    exact .acts _ (Part.keeps_request _ tag body _ (Part.keeps_takeSceneSelect tag body)) rfl
  | lightcueSet tag body =>
    exact .acts _ (Part.keeps_request _ tag body _ (Part.keeps_takeLightcueSet tag body)) rfl
  | deckQuery tag body =>
    exact .acts _ (Part.keeps_request _ tag body _ (Part.keeps_takeDeckQuery tag body)) rfl
  | partIdent tag body =>
    exact .acts _ (Part.keeps_request _ tag body _ (Part.keeps_takePartIdent tag body)) rfl
  | partStatus tag body =>
    exact .acts _ (Part.keeps_request _ tag body _ (Part.keeps_takePartStatus tag body)) rfl
  | partReset tag body =>
    exact .acts _ (Part.keeps_request _ tag body _ (Part.keeps_takePartReset tag body)) rfl
  | standby tag body =>
    exact .acts _ (Part.keeps_request _ tag body _ (Part.keeps_takeStandby tag body)) rfl
  | wake tag body =>
    exact .acts _ (Part.keeps_request _ tag body _ (Part.keeps_takeWake tag body)) rfl
  | coldReset => exact .coldReset rfl rfl
  | coldResetEnd => exact .acts _ Part.keeps_coldResetEnd rfl
  | startupPauseEnd => exact .acts _ (fun p => p.keeps_stores _ _ _ _ _) rfl
  | startupRefreshDone => exact .acts _ (fun p => p.keeps_stores _ _ _ _ _) rfl
  | modeSettingDone => exact .acts _ Part.keeps_modeSettingDone rfl
  | refreshIntervalExpiry => exact .acts _ (fun p => p.keeps_stores _ _ _ _ _) rfl
  | arbiterGrant => exact .grants rfl
  | refreshDone => exact .acts _ (fun p => p.keeps_stores _ _ _ _ _) rfl
  | readerReadCompletion r => exact .reads r rfl
  | loaderWriteCompletion => exact .acts _ (Part.keeps_writeCompletes _ _ Part.keeps_fillWritten) rfl
  | closeWriteCompletion => exact .acts _ (Part.keeps_writeCompletes _ _ Part.keeps_closeWritten) rfl
  | checkerTransferCompletion equal => exact .acts _ (Part.keeps_writeCompletes _ _ fun q =>
      q.keeps_freeDevice.trans (Part.keeps_checkerDone _ equal)) rfl
  | selfRefreshEntered => exact .acts _ Part.keeps_selfRefreshEntered rfl
  | warmResetComplete => exact .acts _ Part.keeps_warmResetComplete rfl
  | fillPageWaitEnd => exact .acts _ Part.keeps_fillPageWaitEnd rfl
  | samplePeriod => exact .acts _ Part.keeps_sampleTick rfl
  | announceEntryExpiry i => exact .acts _ (Part.keeps_entryExpiry i) rfl
  | tailEnd => exact .acts _ Part.keeps_tailEnds rfl
  | roundStart i => exact .acts _ (Part.keeps_roundStarts i) rfl
  | nodeAnswer i bytes => exact .acts _ (Part.keeps_nodeAnswers i bytes) rfl
  | invalidAnswer i bytes => exact .stands rfl
  | answerTimeout i => exact .acts _ (Part.keeps_answerTimesOut i) rfl
  | settleEnd i => exact .acts _ (Part.keeps_settleEnds i) rfl
  | coolDownEnd i => exact .acts _ (Part.keeps_coolDownEnds i) rfl
  | speedStaleExpiry => exact .acts _ Part.keeps_speedStale rfl
  | voltageSample n => exact .acts _ (Part.keeps_voltageSample n) rfl
  | currentSample n => exact .acts _ (Part.keeps_currentSample n) rfl
  | zoneSample x level => exact .acts _ (Part.keeps_zoneSample x.zone x.mA level) rfl
  | fadeStep z => exact .acts _ (Part.keeps_fadeStep z) rfl
  | flashHalfBoundary z => exact .acts _ (Part.keeps_flashHalf z) rfl
  | frameReceived k tag body c => exact .acts _ (Part.keeps_onReceiver _ (Part.keeps_frameReceived k tag body c)) rfl
  | frameLengthError n => exact .acts _ (Part.keeps_onReceiver _ (Part.keeps_lengthTaken n)) rfl
  | frameGapTimeout => exact .acts _ (Part.keeps_onReceiver _ (Part.keeps_errorInFrame .gap)) rfl
  | transmitDone => exact .acts _ Part.keeps_frameSent rfl
  | syncByteReceived => exact .acts _ (Part.keeps_onReceiver _ Part.keeps_syncReceived) rfl
  | frameStopBitError => exact .acts _ (Part.keeps_onReceiver _ (Part.keeps_errorInFrame .check)) rfl
  | releasePollsSent i => exact .acts _ (Part.keeps_releasePollsSent i) rfl

/-- R4, R6: a grant moves the memory record and the device, and writes bytes within clip memory. -/
theorem exec_arbiterGrant_cases (s : State) :
    ∃ m d, exec .arbiterGrant s = .next { s with dram := d, part := { s.part with mem := m } } ∧
      (Memory.wf s.dram = true → Memory.wf d = true) := by
  change ∃ m d, execArbiterGrant s = _ ∧ _
  unfold execArbiterGrant
  split
  · exact ⟨s.part.mem, s.dram, rfl, id⟩
  · exact ⟨_, s.dram, rfl, id⟩
  · rename_i c _
    unfold State.grantTo
    extract_lets p mem
    split
    · exact ⟨_, s.dram, rfl, id⟩
    · rename_i t _
      cases ht : t.write with
      | none => exact ⟨_, s.dram, rfl, id⟩
      | some w => exact ⟨_, _, rfl, Memory.wf_write _ _ _⟩

/-- R5: a read completion stops at an unwritten byte, and is otherwise the end of a transfer or nothing. -/
theorem exec_readerReadCompletion_cases (r : ReaderId) (s : State) :
    (∃ g b a, s.part.mem.device = .transfer (ringOf r) g b false ∧
      Memory.readBytes s.dram (blockAddress g b) Config.blockBytes = .error a ∧
      exec (.readerReadCompletion r) s = .fault (.unwrittenByte a)) ∨
    (∃ f : Part → Part, (∀ p : Part, p.Keeps (f p)) ∧
      exec (.readerReadCompletion r) s = .next (s.onPart f)) ∨
    exec (.readerReadCompletion r) s = .next s := by
  change (∃ g b a, _ ∧ _ ∧ execReaderReadCompletion r s = _) ∨ (∃ f : Part → Part, _ ∧
    execReaderReadCompletion r s = _) ∨ execReaderReadCompletion r s = _
  unfold execReaderReadCompletion
  split
  · rename_i c g b w hdev
    split
    · rename_i hc
      subst hc
      split
      · exact .inr (.inl ⟨_, Part.keeps_freeDevice, rfl⟩)
      · rename_i hw
        have hw : w = false := by simpa using hw
        subst hw
        split
        · rename_i a ha
          exact .inl ⟨g, b, a, hdev, ha, rfl⟩
        · exact .inr (.inl ⟨_, fun p => p.keeps_freeDevice.trans
            (Part.readersOnly_readDone _ _ _).keeps, rfl⟩)
    · exact .inr (.inr rfl)
  · exact .inr (.inr rfl)

/-! ### What a step keeps -/

/-- What a step that answers a next state does: the part keeps the invariants or takes its cold values, clip memory
keeps its form, and no report is left waiting that was not. -/
structure StepKeeps (s t : State) : Prop where
  part : s.part.Keeps t.part ∨ t.part = Part.cold
  memory : Memory.wf s.dram = true → Memory.wf t.dram = true
  quiet : s.quiet → t.quiet

theorem StepKeeps.of_onPart (s : State) (f : Part → Part) (h : ∀ p : Part, p.Keeps (f p)) :
    StepKeeps s (s.onPart f) :=
  ⟨.inl ((h s.part).trans (Part.keeps_finish _)), id, fun _ => Part.finish_reports _⟩

theorem step_keeps (s t : State) (h : step s = .next t) : StepKeeps s t := by
  rcases step_cases s t h with ⟨_, rfl⟩ | ⟨c, rest, _, h⟩
  · unfold State.idle
    split
    · exact ⟨.inl (.refl _), id, id⟩
    · exact ⟨.inl (s.part.keeps_stores _ _ _ _ _), id, id⟩
  · let w : State := { s with pending := rest }
    have hw : ∀ v, exec c w = .next v → v = t := fun v hv => by
      rw [show exec c w = .next t from h] at hv
      injection hv with hv
      exact hv.symm
    suffices hk : StepKeeps w t from ⟨hk.part, hk.memory, hk.quiet⟩
    cases Instr.shape c w with
    | acts f keeps he => rw [← hw _ he]; exact .of_onPart w f keeps
    | coldReset _ he => rw [← hw _ he]; exact ⟨.inr rfl, fun _ => rfl, fun _ => rfl⟩
    | grants hc =>
      subst hc
      obtain ⟨m, d, he, hd⟩ := exec_arbiterGrant_cases w
      rw [← hw _ he]
      exact ⟨.inl (w.part.keeps_stores _ _ _ _ _), hd, id⟩
    | reads r hc =>
      subst hc
      rcases exec_readerReadCompletion_cases r w with ⟨_, _, _, _, _, he⟩ | ⟨f, keeps, he⟩ | he
      · rw [show exec _ w = .next t from h] at he; cases he
      · rw [← hw _ he]; exact .of_onPart w f keeps
      · rw [← hw _ he]; exact ⟨.inl (.refl _), id, id⟩
    | stands he => rw [← hw _ he]; exact ⟨.inl (.refl _), id, id⟩

/-! ### The state after reset -/

theorem Part.cold_codes : Part.cold.codesInRange := by
  refine ⟨by decide, rfl, fun i => ?_, fun i => ?_⟩
  · simp [Part.seat, Part.cold, Seat.cold, GainCode.inRange]
  · simp [Part.string, Part.cold, StringRec.cold]

theorem Light.cold_safetyFault : Light.cold.safetyFault = false := by
  simp [Light.safetyFault, Light.cold, Zone.cold]

theorem Part.cold_alert : Part.cold.alertRight := ⟨rfl, Light.cold_safetyFault.symm⟩

theorem Part.cold_targets : Part.cold.targetsRight := by
  intro z
  simp [Part.zone, Part.cold, Light.cold, Zone.cold, Light.effective, Zone.effective]

theorem Part.cold_volumes : Part.cold.volumesInRange := by
  intro i
  simp [Part.seat, Part.cold, Seat.cold]

/-- Every invariant holds after reset. -/
theorem State.reset_safe : State.Safe State.reset where
  memory := rfl
  quiet := rfl
  link := by decide
  codes := Part.cold_codes
  alert := Part.cold_alert
  targets := Part.cold_targets
  settings := by decide
  shed := by decide
  volumes := Part.cold_volumes

/-! ### The statements -/

/-- Settles O3: a step writes clip memory by `Memory.write` alone, or forgets it. -/
theorem stepKeepsClipMemoryForm : Obligations.StepKeepsClipMemoryForm :=
  fun s t h hstep => (step_keeps s t hstep).memory h

/-- An invariant that operations keep and the cold part meets is kept by every step. -/
theorem StepKeeps.invariant {s t : State} (h : StepKeeps s t) {I : Part → Prop}
    (hk : s.part.Keeps t.part → I s.part → I t.part) (hcold : I Part.cold) (hs : I s.part) : I t.part := by
  rcases h.part with h | h
  · exact hk h hs
  · rw [h]; exact hcold

/-- Settles O4. -/
theorem stepKeepsLinkBounds : Obligations.StepKeepsLinkBounds :=
  fun s t h hstep => (step_keeps s t hstep).invariant (I := fun p => p.link.bounded) Part.Keeps.link
    State.reset_safe.link h

/-- Settles O5. -/
theorem stepKeepsGainCodesInRange : Obligations.StepKeepsGainCodesInRange :=
  fun s t h hstep => (step_keeps s t hstep).invariant Part.Keeps.codes Part.cold_codes h

/-- Settles O6. -/
theorem stepKeepsDeckAlertRight : Obligations.StepKeepsDeckAlertRight :=
  fun s t h hstep => (step_keeps s t hstep).invariant Part.Keeps.alert Part.cold_alert h

/-- Settles O7. -/
theorem stepKeepsTargetsEffective : Obligations.StepKeepsTargetsEffective :=
  fun s t h hstep => (step_keeps s t hstep).invariant Part.Keeps.targets Part.cold_targets h

/-- Settles O8. -/
theorem stepKeepsSupplyAndShedRight : Obligations.StepKeepsSupplyAndShedRight :=
  fun s t hset hshed hstep =>
    have hk := step_keeps s t hstep
    ⟨hk.invariant (I := fun p => p.supply.settingsRight) Part.Keeps.settings State.reset_safe.settings hset,
      hk.invariant Part.Keeps.shed State.reset_safe.shed hshed⟩

/-- Settles O9. -/
theorem stepKeepsReportsTakenAndVolumes : Obligations.StepKeepsReportsTakenAndVolumes :=
  fun s t hq hv hstep =>
    have hk := step_keeps s t hstep
    ⟨hk.quiet hq, hk.invariant Part.Keeps.volumes Part.cold_volumes hv⟩

/-- The address at which a read of a block stops lies in the block and has not been written. -/
theorem Memory.readBytes_error (m : List Host.Cell) (a n x : Nat)
    (h : Memory.readBytes m a n = .error x) : a ≤ x ∧ x < a + n ∧ Memory.read m x = none := by
  induction n generalizing a with
  | zero => cases h
  | succ n ih =>
    unfold Memory.readBytes at h
    split at h
    · rename_i hnone
      injection h with h
      subst h
      exact ⟨le_refl _, by omega, hnone⟩
    · split at h
      · rename_i e he
        injection h with h
        subst h
        obtain ⟨h1, h2, h3⟩ := ih _ he
        exact ⟨by omega, by omega, h3⟩
      · cases h

/-- Settles O10: of the shapes of a command, the read completion alone can stop. -/
theorem onlyUnwrittenReadsStop : Obligations.OnlyUnwrittenReadsStop := by
  intro s
  cases hp : s.pending with
  | nil => exact .inl ⟨_, step_idle s hp⟩
  | cons c rest =>
    rw [step_front s c rest hp]
    cases Instr.shape c { s with pending := rest } with
    | acts f _ he => exact .inl ⟨_, he⟩
    | coldReset _ he => exact .inl ⟨_, he⟩
    | grants hc =>
      subst hc
      obtain ⟨m, d, he, _⟩ := exec_arbiterGrant_cases { s with pending := rest }
      exact .inl ⟨_, he⟩
    | reads r hc =>
      subst hc
      rcases exec_readerReadCompletion_cases r { s with pending := rest } with
        ⟨g, b, a, hdev, hread, he⟩ | ⟨f, _, he⟩ | he
      · obtain ⟨hlow, hhigh, hnone⟩ := Memory.readBytes_error _ _ _ _ hread
        exact .inr ⟨r, rest, g, b, a, rfl, hdev, hlow, hhigh, hnone, he⟩
      · exact .inl ⟨_, he⟩
      · exact .inl ⟨_, he⟩
    | stands he => exact .inl ⟨_, he⟩

/-- Settles O1. -/
theorem stepRunsFrontCommandOrIdles : Obligations.StepRunsFrontCommandOrIdles := by
  intro s
  refine ⟨fun c rest h => step_front s c rest h, fun h => ⟨_, step_idle s h, ?_⟩⟩
  unfold State.idle
  split
  · exact ⟨rfl, h, rfl⟩
  · exact ⟨rfl, h, rfl⟩

theorem Bank.idleReaders_get (r : ReaderId) :
    vget Bank.idleReaders r = Reader.idle (if r.val < 12 then .commentary else .none) := by
  revert r; decide

/-- Settles O2: the cold values are read off the definitions of the cold records. -/
theorem resetLeavesColdValues : Obligations.ResetLeavesColdValues := by
  have hpages : runsPages State.reset.part.store.freeList = List.range 65536 := by
    rw [List.range_eq_range']
    exact List.append_nil _
  refine ⟨rfl, rfl, rfl, ⟨fun _ => rfl, fun _ => rfl, hpages, rfl, ⟨rfl, rfl, rfl, rfl, rfl⟩, rfl, rfl⟩,
    ⟨Bank.idleReaders_get, rfl, rfl, rfl⟩, ⟨?langs, rfl, rfl, rfl⟩,
    ⟨fun i => vget_replicate _ i, rfl, rfl, rfl, rfl, rfl⟩, ?strings, fun i => vget_replicate _ i, rfl,
    ⟨rfl, rfl, rfl, rfl, rfl, rfl, rfl, rfl, rfl, rfl, rfl, rfl, rfl, rfl, rfl, rfl, ?samples⟩,
    ⟨?zones, ?levels, ?fades, ?cues, rfl, rfl, rfl⟩, rfl, State.reset_safe⟩
  case langs => decide
  case strings => decide
  case samples => decide
  case zones => decide
  case levels =>
    intro n z
    simp [State.reset, Part.cold, Light.cold, Scene.cold]
  case fades => decide
  case cues =>
    intro c z
    simp [State.reset, Part.cold, Light.cold]

end Sys2Proof.Machine
end

section
/-! Clip memory: the start-up, refreshes, the arbiter's grants and the readers' completions. -/

namespace Sys2Proof.Machine

/-! ### Commands that give no report -/

/-- A command that leaves a part without a waiting report ends with the transmitter served. -/
theorem State.onPart_eq (s : State) (f : Part → Part) (q : Part) (h : f s.part = q)
    (hq : q.bank.reports = []) : s.onPart f = { s with part := q.served } := by
  subst h
  exact State.onPart_quiet s f hq

/-- A command that leaves the link alone too. -/
theorem State.onPart_mem (s : State) (f : MemCtl → MemCtl) (hq : s.quiet) :
    s.onPart (fun p => { p with mem := f p.mem }) =
      { s with part := { s.part.served with mem := f s.part.mem } } :=
  s.onPart_eq _ _ rfl hq

/-! ### Start-up (R2, R3) -/

theorem Part.coldResetEnd_of_off (p : Part) (h : p.mem.state = .off) :
    p.coldResetEnd = { p with mem := p.mem.startUp .cold, bank := { p.bank with busOn := true } } := if_pos h

theorem MemCtl.pauseEnd_of_pause (m : MemCtl) (h : m.state = .initialising) (hs : m.stage = .pause) :
    m.pauseEnd = { m with stage := .refresh 0 } := by
  simp [MemCtl.pauseEnd, h, hs]

theorem MemCtl.startupRefreshDone_of_refresh (m : MemCtl) (n : Nat) (h : m.state = .initialising)
    (hs : m.stage = .refresh n) :
    m.startupRefreshDone = { m with
      row := (m.row + 1) % 8192, stage := if n < 7 then .refresh (n + 1) else .modeSetting } := by
  simp only [MemCtl.startupRefreshDone, h, hs, nextRow]
  congr 1
  by_cases hn : n < 7
  · rw [if_pos hn, if_neg (by omega)]
  · rw [if_neg hn, if_pos (by omega)]

/-- Settles O11: each event of the start-up by the stage it finds. -/
theorem coldResetAndStartUpStages : Obligations.ColdResetAndStartUpStages := by
  intro s
  refine ⟨rfl, fun hq => ⟨fun hoff => ?_, fun hi hp => ?_, fun n hi hr => ?_⟩⟩
  · exact congrArg _ (s.onPart_eq _ _ (s.part.coldResetEnd_of_off hoff) hq)
  · rw [← s.part.mem.pauseEnd_of_pause hi hp]
    exact congrArg _ (s.onPart_mem MemCtl.pauseEnd hq)
  · rw [← s.part.mem.startupRefreshDone_of_refresh n hi hr]
    exact congrArg _ (s.onPart_mem MemCtl.startupRefreshDone hq)

/-! ### Refreshes (R4) -/

theorem MemCtl.intervalExpiry_of_ready (m : MemCtl) (h : m.state = .ready) :
    m.intervalExpiry = { m with owed := min 8 (m.owed + 1) } := if_pos h

theorem MemCtl.refreshDone_of_refreshing (m : MemCtl) (h : m.device = .refreshing) :
    m.refreshDone = { m with device := .idle, row := (m.row + 1) % 8192 } := if_pos h

/-- Settles O13. -/
theorem refreshIsOwedAndPerformed : Obligations.RefreshIsOwedAndPerformed := by
  intro s hq
  have hexpiry : exec .refreshIntervalExpiry s = .next { s with
      part := { s.part.served with mem := s.part.mem.intervalExpiry } } :=
    congrArg _ (s.onPart_mem MemCtl.intervalExpiry hq)
  have hdone : exec .refreshDone s = .next { s with
      part := { s.part.served with mem := s.part.mem.refreshDone } } :=
    congrArg _ (s.onPart_mem MemCtl.refreshDone hq)
  refine ⟨fun hr hlt => ?_, fun hr h8 => ?_, fun hd => ?_⟩
  · have hmin : min 8 (s.part.mem.owed + 1) = s.part.mem.owed + 1 := by omega
    rw [hexpiry, s.part.mem.intervalExpiry_of_ready hr, hmin]
  · have hmin : min 8 (s.part.mem.owed + 1) = s.part.mem.owed := by omega
    rw [hexpiry, s.part.mem.intervalExpiry_of_ready hr, hmin]
    rfl
  · rw [hdone, s.part.mem.refreshDone_of_refreshing hd]

/-! ### The grant decision (R6) -/

theorem ringOrder_length (ring : Fin 16) : (ringOrder ring).length = 16 := by simp [ringOrder]

/-- The places behind the ring position at which a client is searched. -/
theorem ringOrder_get (ring c : Fin 16) (i : Nat) (hi : i < (ringOrder ring).length)
    (h : i = (c.val + 15 - ring.val) % 16) : (ringOrder ring)[i] = c := by
  subst h
  simp only [ringOrder, List.getElem_map, List.getElem_range, Fin.ext_iff]
  omega

/-- R6: the first waiting client after the ring position is found. -/
theorem ringOrder_find (ring c : Fin 16) (w : Vector Bool 16) (hc : vget w c = true)
    (hfirst : ∀ d : Fin 16, vget w d = true →
      (c.val + 15 - ring.val) % 16 ≤ (d.val + 15 - ring.val) % 16) :
    (ringOrder ring).find? (fun d => vget w d) = some c := by
  rw [List.find?_eq_some_iff_getElem]
  refine ⟨hc, (c.val + 15 - ring.val) % 16, by rw [ringOrder_length]; omega,
    ringOrder_get _ _ _ _ rfl, fun j hj => ?_⟩
  have hj16 : j < (ringOrder ring).length := by rw [ringOrder_length]; omega
  by_contra hw
  have hd : vget w ((ringOrder ring)[j]) = true := by simpa using hw
  have hplace := hfirst _ hd
  simp only [ringOrder, List.getElem_map, List.getElem_range] at hplace
  omega

theorem MemCtl.decide_urgent (m : MemCtl) (hr : m.state = .ready) (hd : m.device = .idle)
    (h : m.owed = 8) : m.decide = some .refresh := by
  simp [MemCtl.decide, hr, hd, h]

theorem MemCtl.decide_client (m : MemCtl) (hr : m.state = .ready) (hd : m.device = .idle)
    (h : m.owed ≠ 8) (c : Fin 16) (hc : (ringOrder m.ring).find? (fun d => vget m.waiting d) = some c) :
    m.decide = some (.client c) := by
  simp [MemCtl.decide, hr, hd, h, hc]

theorem MemCtl.decide_quiet (m : MemCtl) (hr : m.state = .ready) (hd : m.device = .idle)
    (h : m.owed ≠ 8) (hw : ∀ d : Fin 16, vget m.waiting d = false) :
    m.decide = if 1 ≤ m.owed then some .refresh else none := by
  have hnone : (ringOrder m.ring).find? (fun d => vget m.waiting d) = none := by
    simp [List.find?_eq_none, hw]
  simp [MemCtl.decide, hr, hd, h, hnone]

theorem exec_arbiterGrant_refresh (s : State) (h : s.part.mem.decide = some .refresh) :
    exec .arbiterGrant s = .next { s with part := { s.part with mem := s.part.mem.grantRefresh } } := by
  change execArbiterGrant s = _
  simp [execArbiterGrant, h]

theorem exec_arbiterGrant_none (s : State) (h : s.part.mem.decide = none) :
    exec .arbiterGrant s = .next s := by
  change execArbiterGrant s = _
  simp [execArbiterGrant, h]

/-- A grant to a client with a transfer: what it writes lands, and its transfer is in the device. -/
theorem exec_arbiterGrant_client (s : State) (c : Fin 16) (x : Transfer)
    (h : s.part.mem.decide = some (.client c)) (hx : s.part.transferOf c = some x) :
    exec .arbiterGrant s = .next { s with
      dram := match x.write with
        | some (a, bytes) => Memory.write s.dram a bytes
        | none => s.dram
      part := { s.part with mem := { s.part.mem with
        ring := c, waiting := vset s.part.mem.waiting c false
        device := .transfer c x.page x.block false } } } := by
  change execArbiterGrant s = _
  simp only [execArbiterGrant, h, State.grantTo, hx] <;> rfl

/-- Settles O14: the decision by the owed refreshes and the waiting clients. -/
theorem arbiterGrantsInRingOrder : Obligations.ArbiterGrantsInRingOrder := by
  intro s hr hd m refreshed
  refine ⟨fun h => ?_, fun c x h hc hfirst hx => ?_, fun hw h => ?_, fun hw h => ?_⟩
  · exact exec_arbiterGrant_refresh s (m.decide_urgent hr hd h)
  · have hdecide := m.decide_client hr hd h c (ringOrder_find _ _ _ hc hfirst)
    exact ⟨_, exec_arbiterGrant_client s c x hdecide hx, rfl, rfl⟩
  · by_cases h8 : m.owed = 8
    · exact exec_arbiterGrant_refresh s (m.decide_urgent hr hd h8)
    · exact exec_arbiterGrant_refresh s (by rw [m.decide_quiet hr hd h8 hw, if_pos h])
  · exact exec_arbiterGrant_none s (by rw [m.decide_quiet hr hd (by omega) hw, if_neg (by omega)])

/-! ### What a grant writes (R5, R12, R25, R28) -/

/-- Bytes laid out two by two. -/
theorem flatMap_pair_getElem (f g : Nat → Byte) (m n : Nat) :
    ((List.range m).flatMap fun w => [f w, g w])[n]? =
      if n < 2 * m then some (if n % 2 = 0 then f (n / 2) else g (n / 2)) else none := by
  have hlen : ∀ k, ((List.range k).flatMap fun w => [f w, g w]).length = 2 * k := by
    intro k
    simp [List.length_flatMap, Nat.mul_comm]
  induction m with
  | zero => simp
  | succ m ih =>
    rw [List.range_succ, List.flatMap_append, List.getElem?_append, hlen, ih]
    by_cases hn : n < 2 * m
    · simp only [hn, if_true, if_pos (show n < 2 * (m + 1) by omega)]
    · rw [if_neg hn]
      obtain h0 | h1 | h2 : n = 2 * m ∨ n = 2 * m + 1 ∨ 2 * m + 2 ≤ n := by omega
      · subst h0
        rw [if_pos (by omega), if_pos (by omega), show 2 * m / 2 = m by omega]
        simp
      · subst h1
        rw [if_pos (by omega), if_neg (by omega), show (2 * m + 1) / 2 = m by omega,
          show 2 * m + 1 - 2 * m = 1 by omega]
        simp
      · rw [if_neg (by omega)]
        exact List.getElem?_eq_none (by simp; omega)

/-- The two bytes of an inverted word are the inverted bytes of the word. -/
theorem e16_complement (x : BitVec 16) : e16 (~~~x).toNat = (e16 x.toNat).map fun b => ~~~b := by
  have hx := x.isLt
  simp only [e16, List.map_cons, List.map_nil, List.cons.injEq, and_true]
  constructor
  · apply BitVec.eq_of_toNat_eq
    simp only [BitVec.toNat_ofNat, BitVec.toNat_not]
    omega
  · apply BitVec.eq_of_toNat_eq
    simp only [BitVec.toNat_ofNat, BitVec.toNat_not]
    omega

/-- R12: the bytes of a pattern, byte by byte. -/
theorem patternBytes_getElem (page block : Nat) (second : Bool) (n : Nat) :
    (patternBytes page block second)[n]? =
      if n < 256 then
        (e16 (let x := Config.checkPattern page (128 * block + n / 2)
          if second then ~~~x else x).toNat)[n % 2]?
      else none := by
  have h := flatMap_pair_getElem
    (fun w => BitVec.ofNat 8 (let x := Config.checkPattern page (128 * block + w)
      if second then ~~~x else x).toNat)
    (fun w => BitVec.ofNat 8 ((let x := Config.checkPattern page (128 * block + w)
      if second then ~~~x else x).toNat / 256)) 128 n
  refine h.trans ?_
  split
  · obtain h0 | h1 : n % 2 = 0 ∨ n % 2 = 1 := by omega
    · simp [h0, e16]
    · simp [h1, e16]
  · rfl

theorem patternBytes_length (page block : Nat) (second : Bool) :
    (patternBytes page block second).length = 256 := by
  simp [patternBytes, List.length_flatMap, e16]

theorem checkWrites_iff (made : Nat) (h : made < 64) :
    checkWrites made = true ↔ made < 16 ∨ (32 ≤ made ∧ made < 48) := by
  simp only [checkWrites, decide_eq_true_eq]
  omega

theorem Part.transferOf_loader (p : Part) (c : ClipId) (g : Nat) (hc : p.store.job.clip = some c)
    (hg : pageAt p.store.pageMap ((p.clip c).loaded / 4096) (p.clip c).firstPage = some g) :
    p.transferOf 14 = some
      { page := g, block := (p.clip c).loaded % 4096 / 256
        write := some (g * 4096 + (p.clip c).loaded % 4096, p.store.buffer) } := by
  unfold Part.transferOf
  rw [dif_neg (by decide), if_pos (show (14 : Fin 16) = loaderClient from rfl), hc]
  simp only [hg, Option.map_some]

theorem Part.transferOf_checker (p : Part) (g : Nat) (hg : p.store.check.current = some g) :
    p.transferOf 15 = some
      { page := g, block := p.store.check.made % 16
        write := if checkWrites p.store.check.made then
            some (blockAddress g (p.store.check.made % 16),
              patternBytes g (p.store.check.made % 16) (32 ≤ p.store.check.made))
          else none } := by
  unfold Part.transferOf
  rw [dif_neg (by decide), if_neg (by decide)]
  simp only [hg, Option.map_some]

/-- Settles O15: clip memory after a grant is that of `Memory.write` of the granted transfer. -/
theorem grantWritesOnlyTheGrantedBytes : Obligations.GrantWritesOnlyTheGrantedBytes := by
  refine ⟨fun s t ht => ⟨?written, ?standing, s.part.transferOf_loader, ?checker⟩,
    fun g b second => ⟨patternBytes_length g b second, fun n hn => ?pattern⟩⟩
  case written =>
    intro c x a bytes hdecide hx hw hfit n
    rw [exec_arbiterGrant_client s c x hdecide hx] at ht
    injection ht with ht
    subst ht
    simp only [hw]
    rw [Memory.read_write]
    by_cases hn : a ≤ n ∧ n < a + bytes.length
    · rw [if_pos hn, if_pos ⟨hn.1, hn.2, by simp only [Config.pages, Config.pageBytes]; omega⟩]
    · rw [if_neg hn, if_neg fun h => hn ⟨h.1, h.2.1⟩]
  case standing =>
    intro hnone
    change execArbiterGrant s = _ at ht
    unfold execArbiterGrant at ht
    split at ht
    · injection ht with ht; subst ht; rfl
    · injection ht with ht; subst ht; rfl
    · rename_i c hc
      injection ht with ht
      subst ht
      cases hx : s.part.transferOf c with
      | none => simp only [State.grantTo, hx]
      | some x => simp only [State.grantTo, hx, hnone c x hc hx]
  case checker =>
    intro g hg hmade made block second
    rw [s.part.transferOf_checker g hg]
    by_cases hw : checkWrites s.part.store.check.made = true
    · rw [if_pos hw, if_pos ((checkWrites_iff _ hmade).mp hw)]
      rfl
    · rw [if_neg hw, if_neg fun h => hw ((checkWrites_iff _ hmade).mpr h)]
  case pattern =>
    rw [patternBytes_getElem, patternBytes_getElem, if_pos hn, if_pos hn]
    simp only [if_true, Bool.false_eq_true, if_false, e16_complement, List.getElem?_map]

/-! ### A reader's completion (R5, R41) -/

/-- What a fetch can do to the arbiter: its own reader's request is placed, or nothing. -/
theorem Part.fetch_only (r : ReaderId) (p : Part) :
    ∃ w page out, p.fetch r = { p with
        mem := { p.mem with waiting := w }
        bank := { p.bank with
          readers := vset p.bank.readers r { p.reader r with page := page, outstanding := out } } } ∧
      ∀ c, c ≠ ringOf r → vget w c = vget p.mem.waiting c := by
  rcases p.fetch_cases r with h | ⟨g, _, h⟩
  · refine ⟨p.mem.waiting, (p.reader r).page, (p.reader r).outstanding, h.trans ?_, fun _ _ => rfl⟩
    change p = { p with bank := { p.bank with readers := vset p.bank.readers r (p.reader r) } }
    rw [Part.reader, vset_vget]
  · exact ⟨_, _, _, h, fun c hc => by simp [hc]⟩

/-- R41, R42: what a completed read leaves. -/
theorem Part.readDone_only (r : ReaderId) (data : Bytes) (p : Part) :
    ∃ w st page out, p.readDone r data = { p with
        mem := { p.mem with waiting := w }
        bank := { p.bank with
          readers := vset p.bank.readers r
            { p.reader r with
              state := st, buffer := (p.reader r).buffer ++ [data]
              nextBlock := (p.reader r).nextBlock + 1, page := page, outstanding := out } } } ∧
      (∀ c, c ≠ ringOf r → vget w c = vget p.mem.waiting c) ∧
      ((p.reader r).state = .priming → (p.reader r).clip ≠ none → 3 ≤ (p.reader r).buffer.length →
        st = .running) := by
  unfold Part.readDone
  extract_lets x page y
  obtain ⟨st, hst, hprimed, _⟩ := (p.setReader r y).primeReader_spec r
  rw [hst]
  simp only [Part.reader_setReader, Part.setReader_setReader]
  obtain ⟨w, pg, out, hf, hw⟩ := Part.fetch_only r (p.setReader r { y with state := st })
  refine ⟨w, st, pg, out, ?_, hw, fun hpr hc hlen => ?_⟩
  · rw [hf, Part.reader_setReader]
    simp only [Part.setReader, vset_vset]
    rfl
  · obtain ⟨c, hc⟩ := Option.ne_none_iff_exists'.mp hc
    simp only [Part.reader_setReader] at hprimed
    refine hprimed c hc hpr ?_
    simp only [Reader.primed, Bool.or_eq_true, decide_eq_true_eq]
    left
    simp only [y, List.length_append, List.length_cons, List.length_nil]
    exact Nat.succ_le_succ hlen

theorem exec_readerReadCompletion_withdrawn (s : State) (r : ReaderId) (g b : Nat) (hq : s.quiet)
    (h : s.part.mem.device = .transfer (ringOf r) g b true) :
    exec (.readerReadCompletion r) s = .next { s with
      part := { s.part.served with mem := { s.part.mem with device := .idle } } } := by
  change execReaderReadCompletion r s = _
  unfold execReaderReadCompletion
  rw [h]
  simp only [if_true]
  exact congrArg _ (s.onPart_eq _ _ rfl hq)

/-- Settles O16. -/
theorem readCompletionFillsTheBuffer : Obligations.ReadCompletionFillsTheBuffer := by
  intro s r g b hq
  refine ⟨fun bytes hdev hread => ?done, exec_readerReadCompletion_withdrawn s r g b hq,
    fun a hdev hread => ?stops⟩
  case done =>
    have hexec : exec (.readerReadCompletion r) s =
        .next (s.onPart fun p => p.freeDevice.readDone r bytes) := by
      change execReaderReadCompletion r s = _
      unfold execReaderReadCompletion
      rw [hdev]
      simp only [if_true, Bool.false_eq_true, if_false]
      rw [show Memory.readBytes s.dram (blockAddress g b) Config.blockBytes = .ok bytes from hread]
    obtain ⟨w, st, page, out, hdone, hw, hrun⟩ := Part.readDone_only r bytes s.part.freeDevice
    have hpart := s.onPart_eq (fun p => p.freeDevice.readDone r bytes) _ hdone hq
    have hreader : s.part.freeDevice.reader r = s.part.reader r := rfl
    rw [hreader] at hrun
    refine ⟨_, hexec.trans (congrArg _ hpart), rfl, rfl, (Memory.readBytes_ok _ _ _ _ hread).1, ?_⟩
    simp only [Part.reader, vget_vset_same, Part.served]
    refine ⟨rfl, rfl, rfl, rfl, rfl, hrun, fun q hne => by simp [hne, Part.freeDevice], rfl, hw, rfl⟩
  case stops =>
    change execReaderReadCompletion r s = _
    unfold execReaderReadCompletion
    rw [hdev]
    simp only [if_true, Bool.false_eq_true, if_false]
    rw [show Memory.readBytes s.dram (blockAddress g b) Config.blockBytes = .error a from hread]

end Sys2Proof.Machine
end

section
/-! The sockets' timers, the lighting's levels and the link's own events. -/

namespace Sys2Proof.Machine

/-! ### Events that come at a part time (R1) -/

@[simp] theorem Part.reach_mem (p : Part) (d : PartTime) : (p.reach d).mem = p.mem := by rw [p.reach_eq]
@[simp] theorem Part.reach_light (p : Part) (d : PartTime) : (p.reach d).light = p.light := by rw [p.reach_eq]
@[simp] theorem Part.reach_seats (p : Part) (d : PartTime) : (p.reach d).seats = p.seats := by rw [p.reach_eq]
@[simp] theorem Part.reach_strings (p : Part) (d : PartTime) : (p.reach d).strings = p.strings := by
  rw [p.reach_eq]
@[simp] theorem Part.reach_link (p : Part) (d : PartTime) : (p.reach d).link = p.link := by rw [p.reach_eq]
@[simp] theorem Part.reach_level (p : Part) (d : PartTime) : (p.reach d).level = p.level := by rw [p.reach_eq]
@[simp] theorem Part.reach_ann (p : Part) (d : PartTime) : (p.reach d).ann = p.ann := by rw [p.reach_eq]
@[simp] theorem Part.reach_store (p : Part) (d : PartTime) : (p.reach d).store = p.store := by rw [p.reach_eq]
@[simp] theorem Part.reach_lang (p : Part) (d : PartTime) : (p.reach d).lang = p.lang := by rw [p.reach_eq]
@[simp] theorem Part.reach_seat (p : Part) (d : PartTime) (i : SeatId) : (p.reach d).seat i = p.seat i :=
  congrArg (vget · i) (p.reach_seats d)
@[simp] theorem Part.reach_zone (p : Part) (d : PartTime) (z : ZoneId) : (p.reach d).zone z = p.zone z :=
  congrArg (fun l : Light => vget l.zones z) (p.reach_light d)

/-! ### Socket timers (R124, R128) -/

theorem Part.settleEnds_at (i : SeatId) (p : Part) (d : PartTime) (h : (p.seat i).socket.settleEnd = some d) :
    p.settleEnds i = (p.reach d).setSeat i { p.seat i with
      socket := { (p.seat i).socket with settleEnd := none, classifying := true } } := by
  simp only [Part.settleEnds, h, Part.setSocket, Part.reach_seat]

theorem Part.coolDownEnds_at (i : SeatId) (p : Part) (d : PartTime) (h : (p.seat i).socket.coolEnd = some d) :
    p.coolDownEnds i =
      let state := if p.supply.shed = .critical then SocketState.unpowered else .settling
      { (p.reach d).setSeat i { p.seat i with
          socket := { (p.seat i).socket with coolEnd := none, state := state } } with
        link := p.link.noted (.seat i state (p.seat i).language (p.seat i).volume none)
          (p.reach d).time } := by
  simp only [Part.coolDownEnds, h, Part.seatNotice, Part.setSocket, Part.reach_seat, Part.seat_setSeat]
  rw [Part.raise_only_link]
  by_cases hs : p.supply.shed = .critical <;> simp [hs, Socket.noticeReason]

/-- Settles O44. -/
theorem socketTimersEnd : Obligations.SocketTimersEnd := by
  intro s k d hq z
  refine ⟨fun hd => ?_, fun hd => ?_⟩
  · refine congrArg _ ((s.onPart_eq _ _ (s.part.settleEnds_at k d hd) ?_).trans ?_)
    · simpa using hq
    · simp [Part.served, z]
  · refine congrArg _ ((s.onPart_eq _ _ (s.part.coolDownEnds_at k d hd) ?_).trans ?_)
    · simpa using hq
    · simp [Part.served, z]

/-! ### The effective level (R163) -/

/-- R163 steps 3 to 5, in the terms of the statement. -/
theorem Zone.effective_shown (x : Zone) (shed : Shed) (base : Nat)
    (h : x.enabled = true ∧ (x.fault = .ok ∨ (x.fault = .openFault ∧ x.keep = true))) :
    x.effective shed base = if x.safety = true then max base x.minimum else min base shed.ceiling := by
  obtain ⟨he, hf | ⟨hf, hk⟩⟩ := h
  · simp [Zone.effective, he, hf]
  · simp [Zone.effective, he, hf, hk]

theorem Zone.effective_hidden (x : Zone) (shed : Shed) (base : Nat)
    (h : ¬ (x.enabled = true ∧ (x.fault = .ok ∨ (x.fault = .openFault ∧ x.keep = true)))) :
    x.effective shed base = 0 := by
  unfold Zone.effective
  split
  · rename_i he
    split
    · rfl
    · rename_i hf
      exact if_neg fun hk => h ⟨he, .inr ⟨hf, hk⟩⟩
    · rename_i hf
      exact absurd ⟨he, .inl hf⟩ h
  · rfl

/-- R163: a GENERAL zone never exceeds the ceiling. -/
theorem Zone.effective_le_ceiling (x : Zone) (shed : Shed) (base : Nat) (h : x.safety = false) :
    x.effective shed base ≤ shed.ceiling := by
  by_cases hs : x.enabled = true ∧ (x.fault = .ok ∨ (x.fault = .openFault ∧ x.keep = true))
  · rw [x.effective_shown shed base hs, h]
    exact Nat.min_le_right _ _
  · rw [x.effective_hidden shed base hs]
    exact Nat.zero_le _

theorem Light.base_idle (l : Light) (z : ZoneId) (h : l.activeCue = none) :
    l.base z = vget (vget l.scenes l.active).levels z := by
  simp [Light.base, h]

theorem Light.base_cue (l : Light) (z : ZoneId) (c : Fin 16) (t : PartTime)
    (h : l.activeCue = some (c, t)) :
    l.base z = match vget (vget l.cues c) z with
      | .none => vget (vget l.scenes l.active).levels z
      | .level x => max (vget (vget l.scenes l.active).levels z) x
      | .flash x _ => if (vget l.zones z).halves % 2 = 0 then x else 0 := by
  simp only [Light.base, h] <;> rfl

/-- The part of a zone that its effective level does not depend on. -/
theorem Zone.effective_retarget (x : Zone) (now : PartTime) (n : Nat) (how : Follow) (t : Nat)
    (shed : Shed) (base : Nat) : (x.retarget now n how t).effective shed base = x.effective shed base := by
  unfold Zone.retarget
  cases how <;> split <;> rfl

/-- R167: the active cue begins. -/
theorem Light.beginCue_zone (l : Light) (now : PartTime) (c : Fin 16) (z : ZoneId) :
    vget (l.beginCue now c).zones z =
      ({ vget l.zones z with halves := 0 }).retarget now l.stepInterval .atOnce
        (Light.effective { l with
          activeCue := some (c, now), zones := vmap (fun _ x => { x with halves := 0 }) l.zones } z) := by
  simp only [Light.beginCue, Light.retargetAll, vget_vmap]
  rfl

theorem Zone.retarget_target (x : Zone) (now : PartTime) (n : Nat) (how : Follow) (t : Nat) :
    (x.retarget now n how t).target = t := by
  unfold Zone.retarget
  split
  · rename_i h
    exact h.symm
  · cases how <;> rfl

theorem Zone.retarget_halves (x : Zone) (now : PartTime) (n : Nat) (how : Follow) (t : Nat) :
    (x.retarget now n how t).halves = x.halves := by
  unfold Zone.retarget
  cases how <;> split <;> rfl

theorem Shed.ceiling_eq (x : Shed) :
    x.ceiling = match x with
      | .normal => 100
      | .low => 60
      | .critical => 30 := by cases x <;> rfl

/-- Settles O48. -/
theorem effectiveLevelFollowsTheSteps : Obligations.EffectiveLevelFollowsTheSteps := by
  intro l z zone scene ceiling step3 shown
  have hceiling : l.shed.ceiling = ceiling := l.shed.ceiling_eq
  have hshown : shown → ∀ base, zone.effective l.shed base = step3 base := by
    intro h base
    rw [Zone.effective_shown _ _ _ h, hceiling]
  refine ⟨fun h => Zone.effective_hidden _ _ _ h, fun h hc => ?_, fun c began h hc => ⟨fun hi => ?_,
    fun x hi => ?_, fun x half hi => ?_⟩, fun h => ?_, fun now c x half h hi => ?_⟩
  · rw [Light.effective, hshown h, l.base_idle z hc]
  · rw [Light.effective, hshown h, l.base_cue z c began hc, hi]
  · have hstep : l.effective z = step3 (max scene x) := by
      rw [Light.effective, hshown h, l.base_cue z c began hc, hi]
    refine ⟨hstep, ?_⟩
    rw [hstep]
    simp only [step3]
    split <;> omega
  · rw [Light.effective, hshown h, l.base_cue z c began hc, hi]
  · rw [← hceiling]
    exact Zone.effective_le_ceiling _ _ _ h
  · set l' : Light := { l with
      activeCue := some (c, now), zones := vmap (fun _ x => { x with halves := 0 }) l.zones } with hl'
    have hzone : vget l'.zones z = { vget l.zones z with halves := 0 } := by simp [l']
    have hbase : ∀ l₂ : Light, l₂.activeCue = some (c, now) → l₂.cues = l.cues →
        (vget l₂.zones z).halves = 0 → l₂.base z = x := by
      intro l₂ ha hcues hh
      rw [l₂.base_cue z c now ha, hcues, hi]
      simp [hh]
    have heff : l'.effective z = step3 x := by
      rw [Light.effective, hbase l' rfl rfl (by rw [hzone]), hzone]
      exact hshown h x
    have hz := l.beginCue_zone now c z
    rw [← hl', heff] at hz
    have hhalves : (vget (l.beginCue now c).zones z).halves = 0 := by
      rw [hz, Zone.retarget_halves]
    refine ⟨hhalves, ?_, by rw [hz, Zone.retarget_target]⟩
    rw [Light.effective, hbase (l.beginCue now c) rfl rfl hhalves, hz, Zone.effective_retarget]
    exact hshown h x

/-! ### Fades and flashes (R165, R168) -/

/-- The two ways of saying that an output is driven at a level. -/
theorem Zone.drive_eq (x : Zone) (now : PartTime) (level : Nat) : x.drive now level = x.drivenAt now level := by
  unfold Zone.drive Zone.drivenAt
  congr 1
  by_cases h : x.level = level ∨ x.level = 0
  · rw [if_pos h, if_neg (by omega)]
  · rw [if_neg h, if_pos (by omega)]

/-- R165: a fade step in the terms of the statement. -/
theorem Zone.step_eq (x : Zone) (d : PartTime) (interval : Nat) :
    x.step d interval =
      let level := if interval = 0 then x.target
        else if x.level < x.target then x.level + 1
        else if x.target < x.level then x.level - 1 else x.level
      { x.drivenAt d level with stepDue := if level = x.target then none else some (later d interval) } := by
  unfold Zone.step stepToward
  by_cases hi : interval = 0
  · simp [hi, Zone.drive_eq]
  · by_cases hl : (if x.level < x.target then x.level + 1
        else if x.target < x.level then x.level - 1 else x.level) = x.target
    · simp [hi, hl, Zone.drive_eq]
    · simp [hi, hl, Zone.drive_eq]

theorem Part.fadeStep_at (z : ZoneId) (p : Part) (d : PartTime) (h : (p.zone z).stepDue = some d) :
    p.fadeStep z = (p.reach d).setZone z ((p.zone z).step d p.light.stepInterval) := by
  simp only [Part.fadeStep, h]

/-- R168: what a half-boundary makes of its zone and leaves of the part. -/
theorem Part.flashHalf_at (z : ZoneId) (p : Part) (d : PartTime) (h : p.light.nextBoundary z = some d) :
    p.flashHalf z = (p.reach d).setZone z
      (({ p.zone z with halves := (p.zone z).halves + 1 }).retarget (p.reach d).time p.light.stepInterval
        .atOnce (Light.effective { p.light with
          zones := vset p.light.zones z { p.zone z with halves := (p.zone z).halves + 1 } } z)) := by
  simp only [Part.flashHalf, h, Part.setZone, Part.reach_zone, Part.reach_light, Light.retargetZone,
    vget_vset_same, vset_vset]
  rfl

/-- R163: a SAFETY zone that is lit is lit at its minimum or above. -/
theorem Zone.effective_safety (x : Zone) (shed : Shed) (base : Nat) (h : x.safety = true) :
    x.effective shed base = 0 ∨ x.minimum ≤ x.effective shed base := by
  by_cases hs : x.enabled = true ∧ (x.fault = .ok ∨ (x.fault = .openFault ∧ x.keep = true))
  · rw [x.effective_shown shed base hs, if_pos h]
    exact .inr (Nat.le_max_right _ _)
  · exact .inl (x.effective_hidden shed base hs)

/-- R164: how a zone follows a recomputed target at once. -/
theorem Zone.retarget_atOnce (x : Zone) (now : PartTime) (n t : Nat)
    (hsafe : x.safety = true → t = 0 ∨ x.minimum ≤ t) :
    (x.retarget now n .atOnce t = { x.drivenAt now (x.retarget now n .atOnce t).level with
      target := t, stepDue := (x.retarget now n .atOnce t).stepDue }) ∧
    (t ≠ x.target →
      (x.retarget now n .atOnce t).level = t ∧ (x.retarget now n .atOnce t).stepDue = none) ∧
    (t = x.target → x.level = t → (x.retarget now n .atOnce t).level = x.level) := by
  by_cases ht : t = x.target
  · subst ht
    refine ⟨?_, fun h => absurd rfl h, fun _ hl => ?_⟩
    · simp [Zone.retarget, Zone.drive_eq, Zone.drivenAt]
    · simp only [Zone.retarget, if_true, Zone.drive_level, Zone.raised]
      refine if_neg fun ⟨hs, hlow, hon⟩ => ?_
      have := hsafe hs
      omega
  · have hr : x.retarget now n .atOnce t = { x.drivenAt now t with target := t, stepDue := none } := by
      simp [Zone.retarget, ht, Zone.drive_eq]
    rw [hr]
    exact ⟨rfl, fun _ => ⟨rfl, rfl⟩, fun h => absurd h ht⟩

/-- Settles O56. -/
theorem fadesStepAndFlashesAlternate : Obligations.FadesStepAndFlashesAlternate := by
  intro s i d hq z l
  refine ⟨fun hd => ?fade, fun c began x half hcue hitem hd => ?flash⟩
  case fade =>
    intro interval level
    refine congrArg _ ((s.onPart_eq _ _ (s.part.fadeStep_at i d hd) ?_).trans ?_)
    · simpa using hq
    · rw [Zone.step_eq]
      simp only [Part.served, Part.setZone_link, Part.reach_link]
      rfl
  case flash =>
    have hnext : s.part.light.nextBoundary i = some d := by
      simp only [Light.nextBoundary]
      rw [show s.part.light.activeCue = some (c, began) from hcue]
      simp only
      rw [show vget (vget s.part.light.cues c) i = .flash x half from hitem, hd]
      rfl
    have heff : Light.effective { l with
        zones := vset l.zones i { z with halves := z.halves + 1 } } i =
          z.effective l.shed (if z.halves % 2 = 1 then x else 0) := by
      have hparity : ((z.halves + 1) % 2 = 0) = (z.halves % 2 = 1) := by
        apply propext
        omega
      have hbase := Light.base_cue { l with zones := vset l.zones i { z with halves := z.halves + 1 } }
        i c began hcue
      simp only [vget_vset_same, hitem, hparity] at hbase
      rw [Light.effective, hbase, vget_vset_same]
      rfl
    have hflash := s.part.flashHalf_at i d hnext
    rw [heff] at hflash
    have hexec : exec (.flashHalfBoundary i) s = .next (s.onPart (Part.flashHalf i)) := rfl
    rw [s.onPart_eq _ _ hflash (by simpa using hq)] at hexec
    obtain ⟨hy, hmoved, hkept⟩ := Zone.retarget_atOnce { z with halves := z.halves + 1 }
      (s.part.reach d).time l.stepInterval (z.effective l.shed (if z.halves % 2 = 1 then x else 0))
      (fun h => z.effective_safety _ _ h)
    have hhalves := Zone.retarget_halves { z with halves := z.halves + 1 } (s.part.reach d).time
      l.stepInterval .atOnce (z.effective l.shed (if z.halves % 2 = 1 then x else 0))
    have htarget := Zone.retarget_target { z with halves := z.halves + 1 } (s.part.reach d).time
      l.stepInterval .atOnce (z.effective l.shed (if z.halves % 2 = 1 then x else 0))
    refine ⟨_, hexec, rfl, rfl, ?_⟩
    generalize hgen : Zone.retarget { z with halves := z.halves + 1 } (s.part.reach d).time
      l.stepInterval .atOnce (z.effective l.shed (if z.halves % 2 = 1 then x else 0)) = y at *
    have hzone : ((s.part.reach d).setZone i y).served.zone i = y := by
      simp [Part.served, Part.zone, Part.setZone]
    simp only [hzone]
    refine ⟨hhalves, htarget, ?_, ?_, ?_, ?_, ?_⟩
    · rw [htarget]
      exact hmoved
    · rw [htarget]
      exact fun ht hl => hkept ht (hl.trans ht.symm)
    · rw [hhalves, htarget]
      exact hy
    · intro j hj
      simp [Part.served, Part.zone, Part.setZone, hj]
    · simp [Part.served, Part.setZone, l]

end Sys2Proof.Machine
end

section
/-! The link's frames, the receiver, the transmitter, and the requests that the Link Port answers at once. -/

namespace Sys2Proof.Machine

/-- A command that changes the link alone. -/
theorem State.onPart_link (s : State) (f : Part → Part) (l : Link) (h : f s.part = { s.part with link := l })
    (hq : s.quiet) : s.onPart f = { s with part := { s.part with link := l.pump } } :=
  s.onPart_eq f _ h hq

theorem Part.onReceiver_on (f : Part → Part) (p : Part) (h : p.mem.state ≠ .off) : p.onReceiver f = f p :=
  if_neg h

/-! ### Kinds and their numbers (R192) -/

theorem Kind.ofByte_byte (k : Kind) : Kind.ofByte k.byte = some k := by
  cases k <;> rfl

theorem Kind.ofByte_none (b : Byte) (h : b.toNat = 0 ∨ 37 < b.toNat) : Kind.ofByte b = none := by
  unfold Kind.ofByte
  split
  · rfl
  · rw [List.getElem?_eq_none]
    rw [show Kind.all.length = 37 from rfl]
    omega

theorem Kind.owner_linkPort (k : Kind) :
    k.owner = .linkPort ↔ k = .partIdent ∨ k = .partStatus ∨ k = .partReset ∨ k = .standby ∨ k = .wake := by
  cases k <;> simp [Kind.owner]

/-! ### Acceptance (R178, R179, R184) -/

/-- R184, in terms of the memory state. -/
theorem admission_eq (p : Part) (entering : Bool) (k : Kind) :
    admission p.state entering k =
      if k = .partIdent ∨ k = .partStatus then none
      else match p.mem.state with
        | .off | .initialising => some Status.notReady
        | .ready => if entering = true ∧ k ≠ .partReset ∧ k ≠ .wake then some .inStandby else none
        | .selfRefresh => if k ≠ .partReset ∧ k ≠ .wake then some .inStandby else none := by
  by_cases hk : k = .partIdent ∨ k = .partStatus
  · rw [if_pos hk]
    obtain rfl | rfl := hk <;>
    · unfold Part.state admission
      cases p.mem.state <;> cases p.mem.origin <;> cases entering <;> rfl
  · rw [if_neg hk]
    rw [not_or] at hk
    obtain ⟨hi, hs⟩ := hk
    unfold Part.state admission
    by_cases hr : k = .partReset <;> by_cases hw : k = .wake <;>
      cases p.mem.state <;> cases p.mem.origin <;> cases entering <;> simp [hi, hs, hr, hw]

theorem any_tag (l : List Slot) (tag : Byte) :
    (l.any fun s => decide (s.tag = tag)) = true ↔ ∃ x ∈ l, x.tag = tag := by simp

theorem Part.accept_full (kind tag : Byte) (body : Bytes) (p : Part) (h : 4 ≤ p.link.slots.length) :
    p.accept kind tag body =
      { p with link := Link.refuse { p.link with receiver := .hunting } kind tag .full } := if_pos h

theorem Part.accept_badTag (kind tag : Byte) (body : Bytes) (p : Part) (h : p.link.slots.length < 4)
    (ht : tag = 0 ∨ ∃ x ∈ p.link.slots, x.tag = tag) :
    p.accept kind tag body =
      { p with link := Link.refuse { p.link with receiver := .hunting } kind tag .badTag } := by
  unfold Part.accept
  simp only [any_tag]
  rw [if_neg (by omega), if_pos ht]

/-- R179: a frame in a free slot's place with a tag of its own is judged by its kind. -/
theorem Part.accept_kind (kind tag : Byte) (body : Bytes) (p : Part) (h : p.link.slots.length < 4)
    (ht : ¬ (tag = 0 ∨ ∃ x ∈ p.link.slots, x.tag = tag)) :
    p.accept kind tag body =
      match Kind.ofByte kind with
      | none => { p with link := Link.refuse { p.link with receiver := .hunting } kind tag .badKind }
      | some k =>
        match admission p.state p.link.entering k with
        | some s => { p with link := Link.refuse { p.link with receiver := .hunting } kind tag s }
        | none => { p with link := { p.link with
            receiver := .hunting
            slots := p.link.slots ++ [⟨k, tag, body,
              if p.link.resetting ∧ k.owner ≠ .linkPort then Progress.held else .intake⟩] } } := by
  unfold Part.accept
  simp only [any_tag]
  refine (if_neg (by omega)).trans ((if_neg ht).trans ?_)
  cases Kind.ofByte kind with
  | none => rfl
  | some k => cases admission p.state p.link.entering k <;> rfl

/-- Settles O57: the checks of acceptance in their order. -/
theorem framesAreAcceptedOrRefused : Obligations.FramesAreAcceptedOrRefused := by
  intro s kind tag body hq hon l good gives error refused badTag refusal ofLinkPort
  have hgives : ∀ check l', s.part.frameReceived kind tag body check = { s.part with link := l' } →
      gives check l' := fun check l' h =>
    congrArg _ (s.onPart_link _ l' ((s.part.onReceiver_on _ hon).trans h) hq)
  have haccept : ∀ l', body.length ≤ 1040 → s.part.accept kind tag body = { s.part with link := l' } →
      gives good l' := by
    intro l' hlen h
    refine hgives good l' ?_
    unfold Part.frameReceived
    rw [if_neg (by omega), if_pos rfl, h]
  refine ⟨fun check hlen => hgives _ _ ?_, fun check hlen hbad => hgives _ _ ?_, fun hlen hfull => ?_,
    fun hlen hroom ht => ?_, fun hlen hroom ht hk => ?_, fun k hlen hroom ht hk => ⟨fun st hr => ?_,
    fun hr => ?_⟩⟩
  · exact if_pos hlen
  · unfold Part.frameReceived
    rw [if_neg (by omega), if_neg hbad]
    rfl
  · exact haccept _ hlen (s.part.accept_full _ _ _ hfull)
  · exact haccept _ hlen (s.part.accept_badTag _ _ _ hroom ht)
  · refine haccept _ hlen ((s.part.accept_kind _ _ _ hroom ht).trans ?_)
    rw [Kind.ofByte_none _ hk]
    rfl
  · refine haccept _ hlen ((s.part.accept_kind _ _ _ hroom ht).trans ?_)
    have hadm : admission s.part.state s.part.link.entering k = some st := (admission_eq _ _ _).trans hr
    have hof : Kind.ofByte kind = some k := hk ▸ k.ofByte_byte
    simp only [hof, hadm]
    rfl
  · refine haccept _ hlen ((s.part.accept_kind _ _ _ hroom ht).trans ?_)
    have hadm : admission s.part.state s.part.link.entering k = none := (admission_eq _ _ _).trans hr
    have hof : Kind.ofByte kind = some k := hk ▸ k.ofByte_byte
    simp only [hof, hadm, ne_eq, Kind.owner_linkPort]
    rfl

/-! ### The receiver and the transmitter (R178, R181, R183) -/

theorem Part.errorInFrame_inFrame (c : ErrorCause) (p : Part) (h : p.link.receiver = .inFrame) :
    p.errorInFrame c = p.frameError c := by
  simp [Part.errorInFrame, h]

theorem Part.errorInFrame_hunting (c : ErrorCause) (p : Part) (h : p.link.receiver = .hunting) :
    p.errorInFrame c = p := by
  simp [Part.errorInFrame, h]

/-- R181: an idle transmitter takes the reply that became ready first. -/
theorem Link.pump_reply (l : Link) (r : Reply) (rest : List Reply) (ht : l.transmitting = none)
    (h : l.replies = r :: rest) :
    l.pump = { l with
      transmitting := some ⟨r.kind, r.tag, r.body⟩
      replies := rest
      slots := if r.fromSlot then l.slots.filter (fun x => decide (x.tag ≠ r.tag)) else l.slots } := by
  simp only [Link.pump, ht, h]

/-- R181, R183: with no reply waiting it takes the oldest notice. -/
theorem Link.pump_notice (l : Link) (n : QNotice) (rest : List QNotice) (ht : l.transmitting = none)
    (hr : l.replies = []) (h : l.notices = n :: rest) :
    l.pump = { l with
      transmitting := some ⟨n.content.kind, 0, n.body l.noticeLost⟩, notices := rest, noticeLost := false } := by
  simp only [Link.pump, ht, hr, h]

theorem Link.pump_empty (l : Link) (hr : l.replies = []) (h : l.notices = []) : l.pump = l := by
  unfold Link.pump
  split
  · rfl
  · simp only [hr, h]

/-- Settles O58. -/
theorem receiverEventsAndTransmission : Obligations.ReceiverEventsAndTransmission := by
  intro s hq l gives error
  have hsent : ∀ l', Link.pump { l with transmitting := none } = l' → gives .transmitDone l' := by
    intro l' h
    exact h ▸ congrArg _ (s.onPart_link Part.frameSent _ rfl hq)
  refine ⟨fun hon => ⟨?_, fun n hn => ?_, fun hr => ⟨?_, ?_⟩, fun hr => ⟨?_, ?_⟩⟩, fun r rest hr => ?_,
    fun n rest hr hn => ?_, fun hr hn => ?_⟩
  · exact congrArg _ (s.onPart_link _ _ (s.part.onReceiver_on _ hon) hq)
  · exact congrArg _ (s.onPart_link _ (error .length) ((s.part.onReceiver_on _ hon).trans (if_pos hn)) hq)
  · exact congrArg _ (s.onPart_link _ (error .gap)
      ((s.part.onReceiver_on _ hon).trans (s.part.errorInFrame_inFrame _ hr)) hq)
  · exact congrArg _ (s.onPart_link _ (error .check)
      ((s.part.onReceiver_on _ hon).trans (s.part.errorInFrame_inFrame _ hr)) hq)
  · exact congrArg _ (s.onPart_link _ l
      ((s.part.onReceiver_on _ hon).trans (s.part.errorInFrame_hunting _ hr)) hq)
  · exact congrArg _ (s.onPart_link _ l
      ((s.part.onReceiver_on _ hon).trans (s.part.errorInFrame_hunting _ hr)) hq)
  · exact hsent _ (Link.pump_reply _ r rest rfl hr)
  · exact hsent _ (Link.pump_notice _ n rest rfl hr hn)
  · exact hsent _ (Link.pump_empty _ hr hn)

/-! ### PART-STATUS and WAKE (R186, R189) -/

theorem Part.state_standby_iff (p : Part) : p.state = .standby ↔ p.mem.state = .selfRefresh := by
  unfold Part.state
  cases p.mem.state <;> cases p.mem.origin <;> simp

/-- A taken request whose meaning is a part without a waiting report. -/
theorem State.onPart_request (s : State) (k : Kind) (tag : Byte) (body : Bytes) (take : Part → Part)
    (q : Part) (h : s.part.canTake k tag body)
    (hf : take { s.part with link := s.part.takenLink k tag body } = q) (hq : q.bank.reports = []) :
    s.onPart (Part.request k tag body take) = { s with part := q.served } := by
  subst hf
  exact State.onPart_taken s k tag body take h hq

theorem Part.wake_eq (p : Part) :
    p.wake = { p with
      mem := p.mem.startUp .wake, bank := { p.bank with busOn := true }
      link := p.link.noted (.storeMemory .selfRefresh .initialising) p.time } := by
  unfold Part.wake
  rw [Part.raise_only_link]

/-- Settles O59. -/
theorem statusAndWakeAnswerAtOnce : Obligations.StatusAndWakeAnswerAtOnce := by
  intro s tag hq p m
  refine ⟨?_, fun h hm => ?_, fun h hm => ?_⟩
  · intro h l
    exact congrArg _ (s.onPart_request _ _ _ (Part.takePartStatus tag []) _ h rfl hq)
  · refine congrArg _ ((s.onPart_request _ _ _ (Part.takeWake tag []) (Part.answer .wake tag .ok []
      (Part.wake { p with link := p.takenLink .wake tag [] })) h ?_ ?_).trans ?_)
    · exact if_pos ((Part.state_standby_iff _).mpr hm)
    · rw [Part.wake_eq]
      exact hq
    · rw [Part.wake_eq]
      rfl
  · exact congrArg _ (s.onPart_answered _ _ _ _ _ (Part.takeWake tag []) h hq
      (if_neg fun hs => hm ((Part.state_standby_iff _).mp hs)))

end Sys2Proof.Machine
end

section
/-! The Clip Store's requests: opening, closing, the memory check's start, and what is refused. -/

namespace Sys2Proof.Machine

/-! ### Bodies and their fields -/

theorem ident_val {n : Nat} (i : Fin n) : ident n i.val = some i := dif_pos i.isLt

theorem ident_eq {n x : Nat} (i : Fin n) (h : x = i.val) : ident n x = some i := h ▸ ident_val i

theorem ident_none {n x : Nat} (h : n ≤ x) : ident n x = none := dif_neg (by omega)

theorem readWord_two {body : Bytes} (h : body.length = 2) : readWord body = some (b16 body 0) := if_pos h

theorem readWord_none {body : Bytes} (h : body.length ≠ 2) : readWord body = none := if_neg h

theorem named16_long {body : Bytes} (h : 2 ≤ body.length) : named16 body = some (b16 body 0) := if_pos h

theorem named8_long {body : Bytes} (h : 1 ≤ body.length) : named8 body = some (b8 body 0) := if_pos h

theorem namedClip_of {body : Bytes} {c : ClipId} (h : 2 ≤ body.length) (hc : b16 body 0 = c.val) :
    namedClip body = some c := by
  simp only [namedClip, named16_long h, Option.bind_some, ident_eq c hc]

theorem namedClip_none {body : Bytes} (h : 2 ≤ body.length) (hc : 1024 ≤ b16 body 0) :
    namedClip body = none := by
  simp only [namedClip, named16_long h, Option.bind_some, ident_none hc]

/-- A taken request that is answered with the part otherwise as its meaning leaves it. -/
theorem State.onPart_replied (s : State) (k : Kind) (tag : Byte) (body : Bytes) (st : Status)
    (fields : Bytes) (take : Part → Part) (q : Part) (h : s.part.canTake k tag body)
    (hf : take { s.part with link := s.part.takenLink k tag body } =
      Part.answer k tag st fields { q with link := s.part.takenLink k tag body })
    (hq : q.bank.reports = []) :
    s.onPart (Part.request k tag body take) =
      { s with part := { q with link := s.part.repliedLink k tag body st fields } } :=
  s.onPart_request k tag body take _ h hf hq

/-! ### CLIP-OPEN (R22) -/

theorem increasing_iff (l : List Nat) : increasing l = true ↔ l.Pairwise (· < ·) := by
  induction l with
  | nil => simp [increasing]
  | cons a l ih =>
    cases l with
    | nil => simp [increasing]
    | cons b l =>
      simp only [increasing, Bool.and_eq_true, decide_eq_true_eq, ih, List.pairwise_cons,
        List.mem_cons, forall_eq_or_imp]
      refine ⟨fun ⟨hab, hb, hl⟩ => ⟨⟨hab, fun x hx => hab.trans (hb x hx)⟩, hb, hl⟩,
        fun ⟨⟨hab, _⟩, hb, hl⟩ => ⟨hab, hb, hl⟩⟩

/-- The fields of a well-formed CLIP-OPEN that the reply names too. -/
theorem readOpen_some {body : Bytes} {q : OpenReq} (h : readOpen body = some q) :
    2 ≤ body.length ∧ q.clip = b16 body 0 := by
  unfold readOpen at h
  simp only at h
  split at h
  · rename_i hl
    injection h with h
    subst h
    exact ⟨by omega, rfl⟩
  · exact absurd h (by simp)

theorem storedThreshold_eq (t : Nat) :
    storedThreshold t = if t = 0 then 256 else if t < 16 then 16 else min 4096 t := by
  unfold storedThreshold clampNat
  split
  · rfl
  · split <;> omega

theorem Part.openStatus_ok (body : Bytes) (p : Part) (q : OpenReq) (c : ClipId)
    (h : readOpen body = some q) (hc : q.clip = c.val) (hm : q.marks.Pairwise (· < ·))
    (hs : (p.clip c).state = .free) : p.openStatus body = .ok (q, c) := by
  simp [Part.openStatus, h, ident_eq c hc, (increasing_iff _).mpr hm, hs]

/-- Settles O22. -/
theorem clipOpenMakesTheClipLoading : Obligations.ClipOpenMakesTheClipLoading := by
  intro s tag body q c hq hcan hread hc hmarks hfree threshold clamped
  obtain ⟨hlen, hclip⟩ := readOpen_some hread
  have hnamed : namedClip body = some c := namedClip_of hlen (hclip.symm.trans hc)
  have hthreshold : storedThreshold q.threshold = threshold := storedThreshold_eq _
  have hclamped : clampStatus q.clamped = if clamped then .clamped else .ok := by
    unfold clampStatus OpenReq.clamped
    rw [hthreshold]
    by_cases h : clamped
    · rw [if_pos h, if_pos]
      simpa [clamped] using h
    · rw [if_neg h, if_neg]
      simpa [clamped] using h
  have hrecord : openedClip q =
      { state := .loading
        declared := if q.declared = 0 then none else some (min 134217728 q.declared)
        threshold := threshold, loaded := 0, pageCount := 0, firstPage := none, lastPage := none
        marks := q.marks, hold := 0, setRefs := 0, sent := false, cause := none } := by
    simp only [openedClip, hthreshold, storedDeclared]
    rfl
  have hstatus := Part.openStatus_ok body { s.part with link := s.part.takenLink .clipOpen tag body }
    q c hread hc hmarks hfree
  have hpart := s.onPart_replied .clipOpen tag body (if clamped then .clamped else .ok)
    (e16 c.val ++ e16 threshold) (Part.takeClipOpen tag body) (s.part.setClip c (openedClip q)) hcan
    (by
      unfold Part.takeClipOpen
      simp only [hstatus, hclamped, Part.clipFields, hnamed, named16_long hlen, Part.clip_setClip_same,
        ← hclip, hc, show (openedClip q).threshold = threshold from hthreshold]
      rfl) hq
  rw [hrecord] at hpart
  exact congrArg _ hpart

/-! ### CLIP-CLOSE (R28) -/

/-- A ring client's request while the memory is READY. -/
theorem Part.placeRequest_ready (client : Fin 16) (p : Part) (h : p.mem.state = .ready) :
    p.placeRequest client = { p with mem := { p.mem with waiting := vset p.mem.waiting client true } } :=
  if_pos h

/-- What becomes of readers that are told in turn is nothing when none of them is concerned. -/
theorem Part.eachReader_id (f : ReaderId → Part → Part) (p : Part) (h : ∀ r, f r p = p) :
    p.eachReader f = p := by
  unfold Part.eachReader
  generalize List.finRange 14 = l
  induction l with
  | nil => rfl
  | cons r l ih => rw [List.foldl_cons, h r, ih]

theorem Part.readyToPlay_sent (c : ClipId) (p : Part) (h : (p.clip c).sent = true) :
    p.readyToPlay c = p := by
  simp [Part.readyToPlay, h]

theorem Part.readyToPlay_unsent (c : ClipId) (p : Part) (h : (p.clip c).sent = false)
    (hp : (p.clip c).playable = true) :
    p.readyToPlay c = { p.setClip c { p.clip c with sent := true } with
      link := p.link.noted (.clip c .readyToPlay) p.time } := by
  simp only [Part.readyToPlay, h, hp, and_self, if_true]
  rw [Part.raise_only_link]
  rfl

/-- R26: the flag is set by then, and the clip is otherwise as it was. -/
theorem Part.readyToPlay_clip (c : ClipId) (p : Part) (hp : (p.clip c).playable = true) :
    (p.readyToPlay c).clip c = { p.clip c with sent := true } := by
  cases h : (p.clip c).sent with
  | true => rw [Part.readyToPlay_sent c p h, ← h]
  | false =>
    rw [Part.readyToPlay_unsent c p h hp]
    exact Part.clip_setClip_same _ _ _

/-- R26: what it changes of the part. -/
theorem Part.readyToPlay_only (c : ClipId) (p : Part) (hp : (p.clip c).playable = true) :
    p.readyToPlay c = { p with
      store := { p.store with clips := (p.readyToPlay c).store.clips }
      link := if (p.clip c).sent then p.link else p.link.noted (.clip c .readyToPlay) p.time } ∧
    ∀ d, d ≠ c → (p.readyToPlay c).clip d = p.clip d := by
  cases h : (p.clip c).sent with
  | true =>
    rw [Part.readyToPlay_sent c p h]
    exact ⟨rfl, fun _ _ => rfl⟩
  | false =>
    rw [Part.readyToPlay_unsent c p h hp]
    exact ⟨rfl, fun d hd => (Part.clip_setClip p c d _).trans (if_neg hd)⟩

/-- A reply that the transmitter may take at once is waiting or in transmission. -/
theorem Link.pump_keeps (l : Link) (r : Reply) (h : r ∈ l.replies) :
    r ∈ l.pump.replies ∨ l.pump.transmitting = some ⟨r.kind, r.tag, r.body⟩ := by
  unfold Link.pump
  split
  · exact .inl h
  · split
    · rename_i x rest hx
      rw [hx, List.mem_cons] at h
      obtain rfl | h := h
      · exact .inr rfl
      · exact .inl h
    · rename_i hx
      rw [hx] at h
      exact absurd h (by simp)

/-- R28 steps 2 to 4: the closing clip's record. -/
def Part.closedClip (c : ClipId) (p : Part) : Clip :=
  { p.clip c with
    marks := (p.clip c).marks.filter fun m => decide (m < (p.clip c).loaded / 2), state := .ready }

/-- R28 steps 5 and 6: the readers are told of the closed clip. -/
def Part.closeTold (c : ClipId) (p : Part) : Part :=
  ((p.setClip c (p.closedClip c)).readyToPlay c).eachReader fun r t => t.readerClosed c r

theorem Part.finishClose_eq (tag : Byte) (c : ClipId) (p : Part) :
    p.finishClose tag c = ((p.closeTold c).setJob .none []).answer .clipClose tag .ok
      (e32 (p.clip c).loaded ++ e8 (p.closedClip c).marks.length) := rfl

/-- The end of a command: its reports are taken, by operations of announcements, and the transmitter is served. -/
theorem Part.finish_announces (p : Part) :
    ∃ q, p.AnnouncesOnly q ∧ q.bank.reports = [] ∧ p.finish = q.served :=
  ⟨p.drain 1024, p.announcesOnly_drain 1024, p.drain_reports 1024, rfl⟩

/-- The clip has been closed when the readers are told. -/
theorem Part.closeTold_clip (c : ClipId) (p : Part) :
    ({ p.closedClip c with sent := true } : Clip).Held ((p.closeTold c).clip c) := by
  have hready : ((p.setClip c (p.closedClip c)).readyToPlay c).clip c =
      { p.closedClip c with sent := true } := by
    rw [Part.readyToPlay_clip c _ (by rw [Part.clip_setClip_same]; rfl), Part.clip_setClip_same]
  have htold := (Part.readersOnly_eachReader ((p.setClip c (p.closedClip c)).readyToPlay c)
    (fun r t => t.readerClosed c r) (fun r t => Part.readersOnly_readerClosed t c r)).clips c
  rw [hready] at htold
  exact htold

/-- Whatever the readers and their owners do, the closed clip keeps its record but for its holds, and the reply
stands on the link. -/
theorem Part.finishClose_finish (tag : Byte) (c : ClipId) (p : Part) :
    ∃ q, (p.finishClose tag c).finish = Part.served q ∧
      q.clip c = { p.closedClip c with sent := true, hold := (q.clip c).hold } ∧
      (⟨Kind.byte .clipClose, tag, 0 :: e32 (p.clip c).loaded ++ e8 (p.closedClip c).marks.length, true⟩ :
        Reply) ∈ q.link.replies := by
  obtain ⟨q, hq, _, hfinish⟩ := (p.finishClose tag c).finish_announces
  rw [Part.finishClose_eq] at hq
  have htold := p.closeTold_clip c
  generalize p.closeTold c = t at hq htold
  refine ⟨q, hfinish, (htold.trans (hq.clips c)).not_retiring (by simp [Part.closedClip]), ?_⟩
  rw [hq.link.rest]
  simp only [Part.answer, Link.answer, List.mem_append, List.mem_singleton]
  exact .inr rfl

/-- With no reader on the clip, nobody is told. -/
theorem Part.closeTold_unread (c : ClipId) (p : Part) (h : ∀ r, (p.reader r).clip ≠ some c) :
    p.closeTold c = { p with
      store := { p.store with clips := (p.closeTold c).store.clips }
      link := if (p.clip c).sent then p.link else p.link.noted (.clip c .readyToPlay) p.time } ∧
    (p.closeTold c).clip c = { p.closedClip c with sent := true } ∧
    ∀ d, d ≠ c → (p.closeTold c).clip d = p.clip d := by
  have hclip := Part.clip_setClip_same p c (p.closedClip c)
  have hplay : ((p.setClip c (p.closedClip c)).clip c).playable = true := by
    rw [hclip]
    rfl
  obtain ⟨honly, hothers⟩ := Part.readyToPlay_only c (p.setClip c (p.closedClip c)) hplay
  rw [hclip] at honly
  have htold : p.closeTold c = (p.setClip c (p.closedClip c)).readyToPlay c := by
    refine Part.eachReader_id _ _ fun r => if_neg ?_
    have hreader : ((p.setClip c (p.closedClip c)).readyToPlay c).reader r = p.reader r := by
      rw [honly]
      rfl
    rw [hreader]
    exact h r
  rw [htold]
  refine ⟨honly, ?_, fun d hd => ?_⟩
  · rw [Part.readyToPlay_clip c _ hplay, hclip]
  · rw [hothers d hd, Part.clip_setClip, if_neg hd]

theorem Part.takeClipClose_named (tag : Byte) (body : Bytes) (p : Part) (c : ClipId)
    (hl : body.length = 2) (hc : b16 body 0 = c.val) (hs : (p.clip c).state = .loading)
    (h0 : (p.clip c).loaded ≠ 0) :
    p.takeClipClose tag body =
      if (p.clip c).loaded % 256 = 0 then p.finishClose tag c
      else (p.setJob (.closeWrite tag c) (closeZeros (p.clip c).loaded)).placeRequest loaderClient := by
  simp only [Part.takeClipClose, readWord_two hl, ident_eq c hc, hs, h0, if_false]

/-- Settles O24. -/
theorem clipCloseClosesOrWritesZeros : Obligations.ClipCloseClosesOrWritesZeros := by
  intro s tag body c hq hmem hcan hlen hc x hs h0
  have htake := Part.takeClipClose_named tag body
    { s.part with link := s.part.takenLink .clipClose tag body } c hlen hc hs h0
  refine ⟨fun hpart => ?_, ?_⟩
  · refine congrArg _ (s.onPart_request _ _ _ (Part.takeClipClose tag body) _ hcan
      (htake.trans ((if_neg hpart).trans (Part.placeRequest_ready _ _ hmem))) hq)
  · intro hwhole marks reply
    have hexec : exec (.clipClose tag body) s =
        .next (s.onPart (Part.request .clipClose tag body (Part.takeClipClose tag body))) := rfl
    set p : Part := { s.part with link := s.part.takenLink .clipClose tag body } with hp
    have htaken : p.takeClipClose tag body = p.finishClose tag c := htake.trans (if_pos hwhole)
    have hpart : (s.onPart (Part.request .clipClose tag body (Part.takeClipClose tag body))).part =
        (p.finishClose tag c).finish := by
      rw [State.onPart_part, Part.request_taken _ _ _ _ _ hcan, ← hp, htaken]
    obtain ⟨q, hfinish, hrecord, hreply⟩ := p.finishClose_finish tag c
    refine ⟨_, hexec, rfl, rfl, ?_, ?_, fun hunread => ?_⟩
    · rw [hpart, hfinish]
      exact hrecord
    · rw [hpart, hfinish]
      exact Link.pump_keeps _ _ hreply
    · obtain ⟨htold, hclosed, hothers⟩ := p.closeTold_unread c hunread
      have hserved : (p.finishClose tag c).finish = Part.served (p.finishClose tag c) := by
        refine Part.finish_quiet _ ?_
        rw [Part.finishClose_eq, htold]
        exact hq
      rw [hpart, hserved, Part.finishClose_eq]
      generalize p.closeTold c = t at htold hclosed hothers
      have hhold := congrArg Clip.hold hclosed
      refine ⟨?_, hhold, hothers⟩
      rw [htold]
      rfl

end Sys2Proof.Machine
end

section
/-! Refused Clip Store requests, the start of a memory check, the reels, and the announcement sets. -/

namespace Sys2Proof.Machine

/-! ### Refused requests of the Clip Store (R22, R23, R28, R29, R31, R35) -/

/-- A request that its block answers and that changes nothing else, whatever the reply carries. -/
theorem State.exec_refused {s : State} {i : Instr} {k : Kind} {tag : Byte} {body : Bytes}
    {take : Part → Part} {st : Status} (hq : s.quiet)
    (hi : exec i s = .next (s.onPart (Part.request k tag body take)))
    (h : ∃ fields, take { s.part with link := s.part.takenLink k tag body } =
      Part.answer k tag st fields { s.part with link := s.part.takenLink k tag body }) :
    ∃ fields, s.part.canTake k tag body → exec i s = .next { s with
      part := { s.part with link := s.part.repliedLink k tag body st fields } } := by
  obtain ⟨fields, hf⟩ := h
  exact ⟨fields, fun hcan => hi.trans (congrArg _ (s.onPart_answered k tag body st fields take hcan hq hf))⟩

theorem Part.takeClipOpen_error {tag : Byte} {body : Bytes} {p : Part} {st : Status}
    (h : p.openStatus body = .error st) :
    ∃ fields, p.takeClipOpen tag body = p.answer .clipOpen tag st fields := by
  unfold Part.takeClipOpen
  simp only [h]
  exact ⟨_, rfl⟩

/-- R22: the checks of CLIP-OPEN, in their order. -/
theorem Part.openStatus_error (body : Bytes) (p : Part) :
    (readOpen body = none → p.openStatus body = .error .badLength) ∧
    (∀ q, readOpen body = some q → 1024 ≤ q.clip → p.openStatus body = .error .badValue) ∧
    ∀ q (c : ClipId), readOpen body = some q → q.clip = c.val →
      (¬ q.marks.Pairwise (· < ·) → p.openStatus body = .error .badValue) ∧
      (q.marks.Pairwise (· < ·) → (p.clip c).state ≠ .free → p.openStatus body = .error .wrongState) := by
  refine ⟨fun h => ?_, fun q h hc => ?_, fun q c h hc => ⟨fun hm => ?_, fun hm hs => ?_⟩⟩
  · simp [Part.openStatus, h]
  · simp [Part.openStatus, h, ident_none hc]
  · have hinc : increasing q.marks = false := by
      rw [← Bool.not_eq_true, increasing_iff]
      exact hm
    simp [Part.openStatus, h, ident_eq c hc, hinc]
  · simp [Part.openStatus, h, ident_eq c hc, (increasing_iff _).mpr hm, hs]

theorem Part.takeClipFill_error {tag : Byte} {body : Bytes} {p : Part} {st : Status}
    (h : p.fillStatus body = .error st) :
    p.takeClipFill tag body = p.answer .clipFill tag st
      (o16 (named16 body) ++ p.clipFields body 4 fun x => e32 x.loaded) := by
  unfold Part.takeClipFill
  simp only [h]

theorem readFill_none {body : Bytes}
    (h : (body.drop 6).length % 2 = 1 ∨ (body.drop 6).length < 2 ∨ 1024 < (body.drop 6).length) :
    readFill body = none := by
  unfold readFill
  exact if_neg (by omega)

theorem readFill_some {body : Bytes} {q : FillReq} (h : readFill body = some q) :
    2 ≤ body.length ∧ q.clip = b16 body 0 ∧ q.offset = b32 body 2 ∧ q.data = body.drop 6 := by
  unfold readFill at h
  simp only at h
  split at h
  · rename_i hl
    injection h with h
    subst h
    simp only [List.length_drop] at hl
    exact ⟨by omega, rfl, rfl, rfl⟩
  · exact absurd h (by simp)

/-- R23: the checks of CLIP-FILL up to the clip's state, in their order. -/
theorem Part.fillStatus_state (body : Bytes) (p : Part) (q : FillReq) (c : ClipId)
    (h : readFill body = some q) (hc : q.clip = c.val) :
    ((p.clip c).state = .free → p.fillStatus body = .error .notFound) ∧
    ((p.clip c).state = .ready ∨ (p.clip c).state = .retiring → p.fillStatus body = .error .wrongState) ∧
    ((p.clip c).state = .loading → p.fillStatus body =
      if q.offset ≠ (p.clip c).loaded then .error .wrongOffset
      else if (p.clip c).declared.any fun d => decide (2 * d < q.offset + q.data.length) then .error .badValue
      else .ok (q, c)) := by
  unfold Part.fillStatus
  simp only [h, ident_eq c hc]
  refine ⟨fun hs => ?_, fun hs => ?_, fun hs => ?_⟩
  · simp only [hs]
  · obtain hs | hs := hs <;> simp only [hs]
  · simp only [hs]

/-- R24: a fill whose clip needs a page is refused FULL when there is none and no batch holds any. -/
theorem Part.takeClipFill_full {tag : Byte} {body : Bytes} {p : Part} {q : FillReq} {c : ClipId}
    (h : p.fillStatus body = .ok (q, c)) (hneeds : (p.clip c).needsPage q.data.length = true)
    (hfree : runsPages p.store.freeList = []) (hbatch : p.store.check.batch = []) :
    p.takeClipFill tag body = p.answer .clipFill tag .full
      (o16 (named16 body) ++ p.clipFields body 4 fun x => e32 x.loaded) := by
  have hlen : runsLength p.store.freeList = 0 := by rw [← runsPages_length, hfree]; rfl
  unfold Part.takeClipFill
  simp only [h]
  rw [if_pos ⟨hneeds, hlen⟩, if_pos hbatch]

/-- R28, R29, R31, R35: the requests that name one clip, refused for their length or for the clip id. -/
theorem Part.namedRequests_unread (tag : Byte) (body : Bytes) (p : Part) :
    (body.length ≠ 2 →
      (∃ f, p.takeClipClose tag body = p.answer .clipClose tag .badLength f) ∧
      (∃ f, p.takeClipDrop tag body = p.answer .clipDrop tag .badLength f) ∧
      (∃ f, p.takeClipDelete tag body = p.answer .clipDelete tag .badLength f) ∧
      ∃ f, p.takeClipQuery tag body = p.answer .clipQuery tag .badLength f) ∧
    (body.length = 2 → 1024 ≤ b16 body 0 →
      (∃ f, p.takeClipClose tag body = p.answer .clipClose tag .badValue f) ∧
      (∃ f, p.takeClipDrop tag body = p.answer .clipDrop tag .badValue f) ∧
      (∃ f, p.takeClipDelete tag body = p.answer .clipDelete tag .badValue f) ∧
      ∃ f, p.takeClipQuery tag body = p.answer .clipQuery tag .badValue f) := by
  unfold Part.takeClipClose Part.takeClipDrop Part.takeClipDelete Part.takeClipQuery
  refine ⟨fun hl => ?_, fun hl hc => ?_⟩
  · simp only [readWord_none hl]
    exact ⟨⟨_, rfl⟩, ⟨_, rfl⟩, ⟨_, rfl⟩, ⟨_, rfl⟩⟩
  · simp only [readWord_two hl, ident_none hc]
    exact ⟨⟨_, rfl⟩, ⟨_, rfl⟩, ⟨_, rfl⟩, ⟨_, rfl⟩⟩

/-- R28, R29, R31, R35: the requests that name one clip, refused for the clip's state. -/
theorem Part.namedRequests_state (tag : Byte) (body : Bytes) (p : Part) (c : ClipId)
    (hl : body.length = 2) (hc : b16 body 0 = c.val) :
    ((p.clip c).state = .free →
      (∃ f, p.takeClipClose tag body = p.answer .clipClose tag .notFound f) ∧
      (∃ f, p.takeClipDrop tag body = p.answer .clipDrop tag .notFound f) ∧
      (∃ f, p.takeClipDelete tag body = p.answer .clipDelete tag .notFound f) ∧
      ∃ f, p.takeClipQuery tag body = p.answer .clipQuery tag .notFound f) ∧
    ((p.clip c).state = .ready →
      (∃ f, p.takeClipClose tag body = p.answer .clipClose tag .wrongState f) ∧
      ∃ f, p.takeClipDrop tag body = p.answer .clipDrop tag .wrongState f) ∧
    ((p.clip c).state = .loading → (p.clip c).loaded = 0 →
      ∃ f, p.takeClipClose tag body = p.answer .clipClose tag .wrongState f) ∧
    ((p.clip c).state = .retiring →
      (∃ f, p.takeClipClose tag body = p.answer .clipClose tag .wrongState f) ∧
      (∃ f, p.takeClipDrop tag body = p.answer .clipDrop tag .ok f) ∧
      ∃ f, p.takeClipDelete tag body = p.answer .clipDelete tag .ok f) := by
  unfold Part.takeClipClose Part.takeClipDrop Part.takeClipDelete Part.takeClipQuery
  simp only [readWord_two hl, ident_eq c hc]
  refine ⟨fun hs => ?_, fun hs => ?_, fun hs h0 => ?_, fun hs => ?_⟩
  · simp only [hs, if_true]
    exact ⟨⟨_, rfl⟩, ⟨_, rfl⟩, ⟨_, rfl⟩, ⟨_, rfl⟩⟩
  · simp only [hs]
    exact ⟨⟨_, rfl⟩, ⟨_, rfl⟩⟩
  · simp only [hs, h0, if_true]
    exact ⟨_, rfl⟩
  · simp only [hs]
    exact ⟨⟨_, rfl⟩, ⟨_, rfl⟩, ⟨_, rfl⟩⟩

/-- Settles O26. -/
theorem refusedClipRequestsChangeNothing : Obligations.RefusedClipRequestsChangeNothing := by
  intro s tag body hq answered refused
  have hfill : ∀ st fields,
      (s.part.canTake .clipFill tag body →
        Part.takeClipFill tag body { s.part with link := s.part.takenLink .clipFill tag body } =
        Part.answer .clipFill tag st fields { s.part with link := s.part.takenLink .clipFill tag body }) →
      answered (.clipFill tag body) .clipFill st fields := fun st fields h hcan =>
    congrArg _ (s.onPart_answered _ _ _ _ _ (Part.takeClipFill tag body) hcan hq (h hcan))
  have hopen := Part.openStatus_error body { s.part with link := s.part.takenLink .clipOpen tag body }
  obtain ⟨hlength, hvalue, hclip⟩ := hopen
  have hwrong := fun (k : Kind) =>
    Part.namedRequests_unread tag body { s.part with link := s.part.takenLink k tag body }
  have hstate := fun (k : Kind) =>
    Part.namedRequests_state tag body { s.part with link := s.part.takenLink k tag body }
  refine ⟨fun h => ?_, fun q h hc => ?_, fun q c h hc hm => ?_, fun q c h hc hm hs => ?_, ?_,
    fun q h hc => ?_, ?_, fun hl => ?_, fun hl hc => ?_, fun c hl hc => ?_⟩
  · exact State.exec_refused hq rfl (Part.takeClipOpen_error (hlength h))
  · exact State.exec_refused hq rfl (Part.takeClipOpen_error (hvalue q h hc))
  · exact State.exec_refused hq rfl (Part.takeClipOpen_error ((hclip q c h hc).1 hm))
  · exact State.exec_refused hq rfl (Part.takeClipOpen_error ((hclip q c h hc).2 hm hs))
  · intro wrong
    have hbad : wrong → ∀ p : Part, p.fillStatus body = .error .badLength := fun h p => by
      simp only [Part.fillStatus, readFill_none h]
    refine ⟨fun h => ⟨_, hfill _ _ fun _ => Part.takeClipFill_error (hbad h _)⟩, fun h c hl hc =>
      hfill _ _ fun _ => ?_⟩
    rw [Part.takeClipFill_error (hbad h _), named16_long hl, hc]
    simp only [Part.clipFields, namedClip_of hl hc]
    rfl
  · obtain ⟨hl, hclip, _⟩ := readFill_some h
    refine hfill _ _ fun _ => ?_
    rw [Part.takeClipFill_error (st := .badValue) (by simp only [Part.fillStatus, h, ident_none hc]),
      named16_long hl, ← hclip]
    simp only [Part.clipFields, namedClip_none hl (hclip ▸ hc)]
    rfl
  · intro q c h hc x filled
    obtain ⟨hl, hclip, _, _⟩ := readFill_some h
    set p : Part := { s.part with link := s.part.takenLink .clipFill tag body } with hp
    obtain ⟨hfree, hother, hloading⟩ := p.fillStatus_state body q c h hc
    have hfields : o16 (named16 body) ++ p.clipFields body 4 (fun x => e32 x.loaded) =
        e16 c.val ++ e32 x.loaded := by
      rw [named16_long hl, ← hclip, hc]
      simp only [Part.clipFields, namedClip_of hl (hclip.symm.trans hc)]
      rfl
    have herror : ∀ st, p.fillStatus body = .error st → filled st := fun st hst =>
      hfill _ _ fun _ => by rw [Part.takeClipFill_error hst, hfields]
    refine ⟨fun hs => herror _ (hfree hs), fun hs => herror _ (hother hs), fun hs ho => ?_,
      fun d hs ho hd hlong => ?_, fun hs ho hd hpage hempty hbatch => ?_⟩
    · exact herror _ ((hloading hs).trans (if_pos ho))
    · refine herror _ ((hloading hs).trans ((if_neg (not_not.mpr ho)).trans (if_pos ?_)))
      rw [show (p.clip c).declared = some d from hd]
      simpa using hlong
    · have hok : p.fillStatus body = .ok (q, c) := by
        refine (hloading hs).trans ((if_neg (not_not.mpr ho)).trans (if_neg ?_))
        intro hany
        rw [Option.any_eq_true] at hany
        obtain ⟨d, hsome, hlt⟩ := hany
        have := hd d hsome
        simp only [decide_eq_true_eq] at hlt
        omega
      refine hfill _ _ fun _ => ?_
      rw [Part.takeClipFill_full hok ?_ hempty hbatch, hfields]
      simp only [Clip.needsPage, decide_eq_true_eq]
      rw [ho] at hpage
      exact hpage
  · exact ⟨State.exec_refused hq rfl ((hwrong _).1 hl).1, State.exec_refused hq rfl ((hwrong _).1 hl).2.1,
      State.exec_refused hq rfl ((hwrong _).1 hl).2.2.1, State.exec_refused hq rfl ((hwrong _).1 hl).2.2.2⟩
  · exact ⟨State.exec_refused hq rfl ((hwrong _).2 hl hc).1,
      State.exec_refused hq rfl ((hwrong _).2 hl hc).2.1,
      State.exec_refused hq rfl ((hwrong _).2 hl hc).2.2.1,
      State.exec_refused hq rfl ((hwrong _).2 hl hc).2.2.2⟩
  · refine ⟨fun hs => ?_, fun hs => ?_, fun hs h0 => ?_, fun hs => ?_⟩
    · exact ⟨State.exec_refused hq rfl ((hstate _ c hl hc).1 hs).1,
        State.exec_refused hq rfl ((hstate _ c hl hc).1 hs).2.1,
        State.exec_refused hq rfl ((hstate _ c hl hc).1 hs).2.2.1,
        State.exec_refused hq rfl ((hstate _ c hl hc).1 hs).2.2.2⟩
    · exact ⟨State.exec_refused hq rfl ((hstate _ c hl hc).2.1 hs).1,
        State.exec_refused hq rfl ((hstate _ c hl hc).2.1 hs).2⟩
    · exact State.exec_refused hq rfl ((hstate _ c hl hc).2.2.1 hs h0)
    · exact ⟨State.exec_refused hq rfl ((hstate _ c hl hc).2.2.2 hs).1,
        State.exec_refused hq rfl ((hstate _ c hl hc).2.2.2 hs).2.1,
        State.exec_refused hq rfl ((hstate _ c hl hc).2.2.2 hs).2.2⟩

end Sys2Proof.Machine
end

section
/-! The start of a memory check, the reels, and the announcement sets with their references. -/

namespace Sys2Proof.Machine

/-! ### Batches (R11) -/

/-- Pages taken from the list's head, as the list stands for them. -/
theorem takePages_spec (n : Nat) (l : List PageRun) :
    (takePages n l).1 = (runsPages l).take n ∧ runsPages (takePages n l).2 = (runsPages l).drop n := by
  induction n generalizing l with
  | zero => exact ⟨rfl, rfl⟩
  | succ n ih =>
    unfold takePages
    cases h : runsPop l with
    | none => simp [(runsPop_none l).mp h]
    | some x =>
      obtain ⟨g, rest⟩ := x
      obtain ⟨h1, h2⟩ := ih rest
      have hpages := runsPop_some l rest g h
      simp only
      rw [hpages, h1, h2]
      exact ⟨rfl, rfl⟩

/-- Entries of pages written one after the other. -/
theorem Part.setPages (pages : List Nat) (e : PageEntry) (p : Part) :
    let q := pages.foldl (fun q g => q.setPage g e) p
    (∀ n, q.pageEntry n = if n ∈ pages then e else p.pageEntry n) ∧
      q = { p with store := { p.store with pageMap := q.store.pageMap } } := by
  induction pages generalizing p with
  | nil => simp
  | cons x l ih =>
    obtain ⟨h1, h2⟩ := ih (p.setPage x e)
    simp only [List.foldl_cons]
    refine ⟨fun n => ?_, ?_⟩
    · rw [h1, Part.pageEntry_setPage]
      by_cases hx : n = x <;> simp [hx]
    · rw [h2]
      rfl

/-- R11: what forming a batch makes of the check and the Free List. -/
theorem Part.formBatch_some (p : Part) (n : Nat)
    (hn : n = min 16 (min (runsPages p.store.freeList).length (p.store.check.target - p.store.check.tested)))
    (hfree : runsPages p.store.freeList ≠ []) :
    p.formBatch = Part.placeRequest checkerClient { p with
      store := { p.store with
        pageMap := p.formBatch.store.pageMap, freeList := p.formBatch.store.freeList
        check := { p.store.check with
          batch := ((runsPages p.store.freeList).take n).map fun g => ⟨g, .untested⟩, made := 0 } } } ∧
      runsPages p.formBatch.store.freeList = (runsPages p.store.freeList).drop n ∧
      ∀ g, p.formBatch.pageEntry g =
        if g ∈ (runsPages p.store.freeList).take n then ⟨.check, none, none, none⟩ else p.pageEntry g := by
  have hlen : runsLength p.store.freeList ≠ 0 := by
    rw [← runsPages_length]
    exact fun h => hfree (List.length_eq_zero_iff.mp h)
  have hplace : ∀ (c : Fin 16) (q : Part), (q.placeRequest c).store = q.store := by
    intro c q
    unfold Part.placeRequest
    split <;> rfl
  obtain ⟨htake, hdrop⟩ := takePages_spec n p.store.freeList
  have hform : p.formBatch = Part.placeRequest checkerClient
      (((takePages n p.store.freeList).1.foldl (fun (q : Part) g => q.setPage g ⟨.check, none, none, none⟩)
        { p with store := { p.store with freeList := (takePages n p.store.freeList).2 } }).setCheck
        { p.store.check with
          batch := (takePages n p.store.freeList).1.map fun g => ⟨g, .untested⟩, made := 0 }) := by
    unfold Part.formBatch
    simp only
    rw [if_neg hlen, ← runsPages_length, ← hn]
  obtain ⟨hentry, honly⟩ := Part.setPages (takePages n p.store.freeList).1 ⟨.check, none, none, none⟩
    { p with store := { p.store with freeList := (takePages n p.store.freeList).2 } }
  simp only at honly
  rw [htake] at hform hentry honly
  rw [honly] at hform
  have hstore := congrArg Part.store hform
  rw [hplace] at hstore
  refine ⟨?_, ?_, fun g => ?_⟩
  · rw [hstore]
    exact hform
  · rw [hstore]
    exact hdrop
  · refine Eq.trans ?_ (hentry g)
    unfold Part.pageEntry
    rw [hstore]
    rfl

theorem Part.formBatch_empty (p : Part) (h : runsPages p.store.freeList = []) :
    p.formBatch = p.endCheck := by
  have hlen : runsLength p.store.freeList = 0 := by rw [← runsPages_length, h]; rfl
  unfold Part.formBatch
  exact if_pos hlen

/-- R10: a taken STORE-CHECK. -/
theorem Part.takeStoreCheck_running (tag : Byte) (p : Part) (h : p.store.check.running = true) :
    p.takeStoreCheck tag [] = p.answer .storeCheck tag .busy p.store.check.fields := by
  simp [Part.takeStoreCheck, readExact, h]

theorem Part.takeStoreCheck_idle (tag : Byte) (p : Part) (h : p.store.check.running = false) :
    p.takeStoreCheck tag [] = Part.formBatch (p.setCheck {
      running := true, target := runsLength p.store.freeList, tested := 0, withdrawn := 0
      batch := [], made := 0, tag := tag }) := by
  simp [Part.takeStoreCheck, readExact, h]

/-- Settles O28. -/
theorem storeCheckStartsOrIsBusy : Obligations.StoreCheckStartsOrIsBusy := by
  intro s tag hq hmem hcan k free
  refine ⟨fun hrun => ?_, fun hidle hfree => ?_, fun hidle hfree => ?_⟩
  · exact congrArg _ (s.onPart_answered _ _ _ _ _ (Part.takeStoreCheck tag []) hcan hq
      (Part.takeStoreCheck_running tag { s.part with link := s.part.takenLink .storeCheck tag [] } hrun))
  · have hexec : exec (.storeCheck tag []) s =
        .next (s.onPart (Part.request .storeCheck tag [] (Part.takeStoreCheck tag []))) := rfl
    set p : Part := { s.part with link := s.part.takenLink .storeCheck tag [] } with hp
    set q : Part := p.setCheck {
      running := true, target := runsLength p.store.freeList, tested := 0, withdrawn := 0
      batch := [], made := 0, tag := tag } with hqdef
    have hlist : runsPages q.store.freeList = free := rfl
    have hn : min 16 (min (runsPages q.store.freeList).length (q.store.check.target - q.store.check.tested)) =
        min 16 free.length := by
      rw [hlist, show q.store.check.target - q.store.check.tested = free.length from
        (runsPages_length _).symm, Nat.min_self]
    have htake16 : free.take (min 16 free.length) = free.take 16 := by
      rw [Nat.min_comm, List.take_eq_take_iff]
      omega
    have hdrop16 : free.drop (min 16 free.length) = free.drop 16 := by
      rcases Nat.le_total 16 free.length with h | h
      · rw [Nat.min_eq_left h]
      · rw [Nat.min_eq_right h, List.drop_length, List.drop_eq_nil_of_le h]
    obtain ⟨hform, hdrop, hentry⟩ := q.formBatch_some (min 16 free.length) hn.symm hfree
    rw [hlist, htake16] at hform hentry
    rw [hlist, hdrop16] at hdrop
    have hready := Part.placeRequest_ready checkerClient { q with
      store := { q.store with
        pageMap := q.formBatch.store.pageMap, freeList := q.formBatch.store.freeList
        check := { q.store.check with
          batch := (free.take 16).map fun g => ⟨g, .untested⟩, made := 0 } } } hmem
    rw [hready] at hform
    have htaken := (Part.takeStoreCheck_idle tag p hidle).trans hform
    rw [s.onPart_request _ _ _ (Part.takeStoreCheck tag []) _ hcan htaken hq] at hexec
    refine ⟨_, hexec, rfl, rfl, ?_, hdrop, fun g hg => ?_, rfl, rfl⟩
    · rw [runsPages_length]
      rfl
    · have := hentry g
      rw [if_pos hg] at this
      exact congrArg PageEntry.state this
  · have hlen : runsLength s.part.store.freeList = 0 := by rw [← runsPages_length]; exact congrArg _ hfree
    have htaken := (Part.takeStoreCheck_idle tag { s.part with link := s.part.takenLink .storeCheck tag [] }
      hidle).trans (Part.formBatch_empty _ hfree)
    have hpart := s.onPart_request _ _ _ (Part.takeStoreCheck tag []) _ hcan htaken hq
    refine congrArg _ (hpart.trans ?_)
    simp only [Part.endCheck, Part.setCheck, hlen]
    rfl

/-! ### Reels (R63 to R65) -/

theorem distinct_iff (l : List Nat) : distinct l = true ↔ l.Nodup := by
  induction l with
  | nil => simp [distinct]
  | cons x l ih => simp [distinct, ih]

theorem ReelItem.valid_iff (x : ReelItem) :
    x.valid = true ↔ (x.clip < 1024 ∨ x.clip = 65535) ∧ x.jump ≤ 1 := by
  simp [ReelItem.valid]

/-- R64: what one item writes. -/
theorem tfind_writeReelItem (reel : List (Nat × ReelEntry)) (x : ReelItem) (n : Nat) :
    tfind (writeReelItem reel x) n =
      if n = x.cue then (ident 1024 x.clip).map fun c => ⟨c, decide (x.jump = 1)⟩ else tfind reel n := by
  unfold writeReelItem
  cases ident 1024 x.clip with
  | none => exact tfind_tdel _ _ _
  | some c => exact tfind_tput _ _ _ _

/-- R64: items of other places leave a place as it is. -/
theorem tfind_writeReelItems_other (items : List ReelItem) (reel : List (Nat × ReelEntry)) (n : Nat)
    (h : ∀ x ∈ items, x.cue ≠ n) : tfind (items.foldl writeReelItem reel) n = tfind reel n := by
  induction items generalizing reel with
  | nil => rfl
  | cons x items ih =>
    rw [List.foldl_cons, ih _ fun y hy => h y (List.mem_cons_of_mem _ hy), tfind_writeReelItem,
      if_neg fun hn => h x List.mem_cons_self hn.symm]

/-- R64: with no place named twice, each item stands in its place. -/
theorem tfind_writeReelItems_item (items : List ReelItem) (reel : List (Nat × ReelEntry))
    (hnodup : (items.map ReelItem.cue).Nodup) (x : ReelItem) (hx : x ∈ items) :
    tfind (items.foldl writeReelItem reel) x.cue =
      (ident 1024 x.clip).map fun c => ⟨c, decide (x.jump = 1)⟩ := by
  induction items generalizing reel with
  | nil => exact absurd hx (by simp)
  | cons y items ih =>
    rw [List.map_cons, List.nodup_cons] at hnodup
    obtain ⟨hy, hrest⟩ := hnodup
    rw [List.foldl_cons]
    obtain rfl | hx := List.mem_cons.mp hx
    · rw [tfind_writeReelItems_other items _ x.cue fun z hz hcue =>
        hy (hcue ▸ List.mem_map_of_mem hz), tfind_writeReelItem, if_pos rfl]
    · exact ih _ hrest hx

theorem readReel_none {body : Bytes} (h : ∀ n, 1 ≤ n → n ≤ 256 → body.length ≠ 1 + 4 * n) :
    readReel body = none := by
  unfold readReel
  simp only
  refine if_neg fun ⟨hl, h1, h256⟩ => h _ h1 h256 hl

theorem readReel_some {body : Bytes} {q : ReelReq} (h : readReel body = some q) :
    1 ≤ body.length ∧ q.lang = b8 body 0 := by
  unfold readReel at h
  simp only at h
  split at h
  · rename_i hl
    injection h with h
    subst h
    exact ⟨by omega, rfl⟩
  · exact absurd h (by simp)

theorem namedLang_of {body : Bytes} {l : Lang} (h : 1 ≤ body.length) (hl : b8 body 0 = l.val) :
    namedLang body = some l := by
  simp only [namedLang, named8_long h, Option.bind_some, ident_eq l hl]

/-- R64: a taken REEL-SET that names a language, by whether its items are in order. -/
theorem Part.takeReelSet_named (tag : Byte) (body : Bytes) (p : Part) (q : ReelReq) (l : Lang)
    (h : readReel body = some q) (hl : q.lang = l.val) :
    p.takeReelSet tag body =
      if (∀ x ∈ q.items, (x.clip < 1024 ∨ x.clip = 65535) ∧ x.jump ≤ 1) ∧
          (q.items.map ReelItem.cue).Nodup then
        Part.answer .reelSet tag .ok
          (e16 (q.items.foldl writeReelItem (p.language l).reel).length)
          (p.setLanguage l { p.language l with reel := q.items.foldl writeReelItem (p.language l).reel })
      else p.answer .reelSet tag .badValue (p.reelFields body) := by
  obtain ⟨hlen, hlang⟩ := readReel_some h
  have hnamed : namedLang body = some l := namedLang_of hlen (hlang.symm.trans hl)
  have hvalid : (q.items.all ReelItem.valid && distinct (q.items.map ReelItem.cue)) = true ↔
      (∀ x ∈ q.items, (x.clip < 1024 ∨ x.clip = 65535) ∧ x.jump ≤ 1) ∧
        (q.items.map ReelItem.cue).Nodup := by
    simp only [Bool.and_eq_true, List.all_eq_true, ReelItem.valid_iff, distinct_iff]
  unfold Part.takeReelSet
  simp only [h, ident_eq l hl, hvalid]
  split
  · simp only [Part.reelFields, hnamed, Part.language_setLanguage]
  · rfl

theorem readByte_one {body : Bytes} (h : body.length = 1) : readByte body = some (b8 body 0) := if_pos h

/-- Settles O32. -/
theorem reelSetAndClearWriteTheReel : Obligations.ReelSetAndClearWriteTheReel := by
  intro s tag body l hq
  set p : Part := { s.part with link := s.part.takenLink .reelSet tag body } with hp
  refine ⟨fun hcan => ⟨fun hlen => ?_, fun q h hl => ?_⟩, fun q hcan h hl => ⟨fun hitems hnodup => ?_,
    fun hbad => ?_⟩, fun hcan hlen => ⟨fun hl => ?_, fun hl => ?_⟩⟩
  · refine ⟨_, congrArg _ (s.onPart_answered _ _ _ _ (p.reelFields body)
      (Part.takeReelSet tag body) hcan hq ?_)⟩
    simp only [Part.takeReelSet, readReel_none hlen]
    rfl
  · refine ⟨_, congrArg _ (s.onPart_answered _ _ _ _ (p.reelFields body)
      (Part.takeReelSet tag body) hcan hq ?_)⟩
    simp only [Part.takeReelSet, h, ident_none hl]
    rfl
  · refine ⟨q.items.foldl writeReelItem (s.part.language l).reel, ?_, fun x hx c hc => ?_,
      fun x hx hc => ?_, fun n hn => tfind_writeReelItems_other _ _ _ hn⟩
    · exact congrArg _ (s.onPart_replied _ _ _ _ _ (Part.takeReelSet tag body)
        (s.part.setLanguage l { s.part.language l with
          reel := q.items.foldl writeReelItem (s.part.language l).reel }) hcan
        ((p.takeReelSet_named tag body q l h hl).trans (if_pos ⟨hitems, hnodup⟩)) hq)
    · rw [tfind_writeReelItems_item _ _ hnodup x hx, ident_eq c hc]
      rfl
    · rw [tfind_writeReelItems_item _ _ hnodup x hx, ident_none (by omega)]
      rfl
  · refine congrArg _ (s.onPart_answered _ _ _ _ _ (Part.takeReelSet tag body) hcan hq
      ((p.takeReelSet_named tag body q l h hl).trans (if_neg fun ⟨hitems, hnodup⟩ => ?_)))
    obtain ⟨x, hx, hlow, hne⟩ | hdup := hbad
    · have := (hitems x hx).1
      omega
    · exact hdup hnodup
  · refine congrArg _ (s.onPart_answered _ _ _ _ _ (Part.takeReelClear tag body) hcan hq ?_)
    simp only [Part.takeReelClear, readByte_one hlen, ident_none hl]
  · refine congrArg _ (s.onPart_replied _ _ _ _ _ (Part.takeReelClear tag body)
      (s.part.setLanguage l { s.part.language l with reel := [] }) hcan ?_ hq)
    simp only [Part.takeReelClear, readByte_one hlen, ident_eq l hl]
    rfl

/-! ### Announcement sets (R34, R79, R80) -/

/-- R34: references dropped: every clip's count by its occurrences, and nothing else. -/
theorem Part.dropRefs_spec (cs : List ClipId) (p : Part) :
    p.dropRefs cs = { p with store := { p.store with clips := (p.dropRefs cs).store.clips } } ∧
    ∀ c, (p.dropRefs cs).clip c = { p.clip c with setRefs := (p.clip c).setRefs - cs.count c } := by
  induction cs generalizing p with
  | nil => exact ⟨rfl, fun c => rfl⟩
  | cons d cs ih =>
    obtain ⟨honly, hclips⟩ := ih (p.setClip d { p.clip d with setRefs := (p.clip d).setRefs - 1 })
    have hstep : p.dropRefs (d :: cs) =
        (p.setClip d { p.clip d with setRefs := (p.clip d).setRefs - 1 }).dropRefs cs := rfl
    rw [hstep]
    refine ⟨honly, fun c => ?_⟩
    rw [hclips c, Part.clip_setClip]
    by_cases hc : c = d
    · subst hc
      simp only [if_true, List.count_cons_self, Nat.sub_sub, Nat.add_comm]
    · rw [if_neg hc, List.count_cons_of_ne (Ne.symm hc)]

/-- R34: references added. -/
theorem Part.addRefs_spec (cs : List ClipId) (p : Part) :
    p.addRefs cs = { p with store := { p.store with clips := (p.addRefs cs).store.clips } } ∧
    ∀ c, (p.addRefs cs).clip c = { p.clip c with setRefs := (p.clip c).setRefs + cs.count c } := by
  induction cs generalizing p with
  | nil => exact ⟨rfl, fun c => rfl⟩
  | cons d cs ih =>
    obtain ⟨honly, hclips⟩ := ih (p.setClip d { p.clip d with setRefs := (p.clip d).setRefs + 1 })
    have hstep : p.addRefs (d :: cs) =
        (p.setClip d { p.clip d with setRefs := (p.clip d).setRefs + 1 }).addRefs cs := rfl
    rw [hstep]
    refine ⟨honly, fun c => ?_⟩
    rw [hclips c, Part.clip_setClip]
    by_cases hc : c = d
    · subst hc
      have hsum : (p.clip c).setRefs + 1 + cs.count c = (p.clip c).setRefs + (cs.count c + 1) := by omega
      simp only [if_true, List.count_cons_self, hsum]
    · rw [if_neg hc, List.count_cons_of_ne (Ne.symm hc)]

/-- R79: the record that a request writes holds its values in their ranges. -/
theorem SetReq.record_some {q : SetReq} {i : SetId} {x : AnnSet} (h : q.record = some (i, x)) :
    q.set = i.val ∧ x.defined = true ∧ x.repeats = max 1 (min 3 q.repeats) ∧ x.expiry = min 600 q.expiry ∧
      (x.lift : Int) = max 0 (min 12 q.lift) ∧
      x.tail = if q.tail = 255 then 3 else min 10 q.tail := by
  unfold SetReq.record at h
  split at h
  · rename_i j _ _ _ _ _ _ hj _ _ _ _ _ _
    split at h
    · injection h with h
      obtain ⟨rfl, rfl⟩ := Prod.mk.injEq .. ▸ h
      have hset : q.set = j.val := by
        unfold ident at hj
        split at hj
        · injection hj with hj
          exact congrArg Fin.val hj
        · exact absurd hj (by simp)
      refine ⟨hset, rfl, rfl, rfl, ?_, rfl⟩
      simp only [clampInt]
      omega
    · exact absurd h (by simp)
  · exact absurd h (by simp)

theorem readSet_some {body : Bytes} {q : SetReq} (h : readSet body = some q) :
    1 ≤ body.length ∧ q.set = b8 body 0 := by
  unfold readSet at h
  simp only at h
  split at h
  · rename_i hl
    injection h with h
    subst h
    exact ⟨by omega, rfl⟩
  · exact absurd h (by simp)

/-- R79: a SET-DEFINE that no check refuses. -/
theorem Part.defineStatus_ok (body : Bytes) (p : Part) (q : SetReq) (i : SetId) (x : AnnSet)
    (hread : readSet body = some q) (hrecord : q.record = some (i, x)) (hqueued : p.ann.queued i = false)
    (hplays : p.ann.plays i = false) (hready : ∀ c ∈ x.namedClips, (p.clip c).state = .ready)
    (hrefs : ∀ c ∈ x.namedClips,
      refsAfter (p.clip c) c (p.annSet i).references x.namedClips ≤ 64) :
    p.defineStatus body = .ok (q, i, x) := by
  have hstate : (x.namedClips.find? fun c => decide ((p.clip c).state ≠ .ready)) = none := by
    rw [List.find?_eq_none]
    intro c hc
    simp [hready c hc]
  have hcount : (x.namedClips.find? fun c =>
      decide (64 < refsAfter (p.clip c) c (p.annSet i).references x.namedClips)) = none := by
    rw [List.find?_eq_none]
    intro c hc
    have := hrefs c hc
    simp only [decide_eq_true_eq]
    omega
  unfold Part.defineStatus
  simp only [hread, hrecord, hqueued, hplays, hstate, hcount, Bool.or_self, Bool.false_eq_true, if_false]

theorem Part.annSet_setAnnSet (p : Part) (i j : SetId) (x : AnnSet) :
    (p.setAnnSet i x).annSet j = if j = i then x else p.annSet j := vget_vset _ _ _ _

/-- Settles O35. -/
theorem setDefineAndRemoveCountReferences : Obligations.SetDefineAndRemoveCountReferences := by
  intro s tag body i hq hqueued hplays
  refine ⟨?_, fun hcan hlen hi hdefined => ?_⟩
  · intro q x hcan hread hrecord old refs hclips
    obtain ⟨hset, hdef, hrep, hexp, hlift, htail⟩ := SetReq.record_some hrecord
    obtain ⟨hlong, hfirst⟩ := readSet_some hread
    have hnamed : named8 body = some i.val := by rw [named8_long hlong, ← hfirst, hset]
    have hexec : exec (.setDefine tag body) s =
        .next (s.onPart (Part.request .setDefine tag body (Part.takeSetDefine tag body))) := rfl
    set p : Part := { s.part with link := s.part.takenLink .setDefine tag body } with hp
    have hstatus : p.defineStatus body = .ok (q, i, x) :=
      p.defineStatus_ok body q i x hread hrecord hqueued hplays (fun c hc => (hclips c hc).1)
        fun c hc => (hclips c hc).2
    obtain ⟨hdrop, hdropped⟩ := p.dropRefs_spec (p.annSet i).references
    obtain ⟨hadd, hadded⟩ := (p.dropRefs (p.annSet i).references).addRefs_spec x.namedClips
    have htaken : p.takeSetDefine tag body =
        Part.answer .setDefine tag (clampStatus q.clamped) (e8 i.val ++ [0xFF, 0xFF])
          (((p.dropRefs (p.annSet i).references).addRefs x.namedClips).setAnnSet i x) := by
      unfold Part.takeSetDefine
      simp only [hstatus, hnamed]
      rfl
    generalize ((p.dropRefs (p.annSet i).references).addRefs x.namedClips) = t at hadd hadded htaken
    rw [hdrop] at hadd
    rw [hadd] at htaken
    rw [s.onPart_request _ _ _ (Part.takeSetDefine tag body) _ hcan htaken hq] at hexec
    refine ⟨hdef, hrep, hexp, hlift, htail, _, hexec, rfl, rfl, ?_, fun j hj => ?_, fun c => ?_, rfl⟩
    · exact vget_vset_same _ _ _
    · exact vget_vset_ne _ _ hj
    · refine (hadded c).trans ?_
      rw [hdropped c]
      rfl
  · have hexec : exec (.setRemove tag body) s =
        .next (s.onPart (Part.request .setRemove tag body (Part.takeSetRemove tag body))) := rfl
    set p : Part := { s.part with link := s.part.takenLink .setRemove tag body } with hp
    obtain ⟨hdrop, hdropped⟩ := p.dropRefs_spec (p.annSet i).namedClips
    have hset : readSetId body = .ok i := by
      simp only [readSetId, readByte_one hlen, ident_eq i hi]
    have htaken : p.takeSetRemove tag body =
        Part.answer .setRemove tag .ok [] ((p.dropRefs (p.annSet i).namedClips).setAnnSet i AnnSet.cold) := by
      unfold Part.takeSetRemove
      simp only [hset]
      rw [if_neg (by rw [show (p.annSet i).defined = true from hdefined]; simp), if_neg]
      rw [show p.ann.queued i = false from hqueued, show p.ann.plays i = false from hplays]
      simp
    generalize p.dropRefs (p.annSet i).namedClips = t at hdrop hdropped htaken
    rw [hdrop] at htaken
    rw [s.onPart_request _ _ _ (Part.takeSetRemove tag body) _ hcan htaken hq] at hexec
    exact ⟨_, hexec, rfl, rfl, vget_vset_same _ _ _, fun j hj => vget_vset_ne _ _ hj, hdropped, rfl⟩

end Sys2Proof.Machine
end

section
/-! The queries, road speed and the level limits. -/

namespace Sys2Proof.Machine

/-! ### Queries (R17, R35, R76, R100, R157, R176, R185) -/

theorem readExact_eq {n : Nat} {body : Bytes} (h : body.length = n) : readExact n body = some body := if_pos h

theorem Part.takeClipQuery_named (tag : Byte) (body : Bytes) (p : Part) (c : ClipId)
    (hl : body.length = 2) (hc : b16 body 0 = c.val) :
    p.takeClipQuery tag body = p.answer .clipQuery tag
      (if (p.clip c).state = .free then .notFound else .ok) (p.clip c).fields := by
  unfold Part.takeClipQuery
  simp only [readWord_two hl, ident_eq c hc, namedClip_of hl.ge hc]

theorem Part.takeStoreQuery_page (tag : Byte) (body : Bytes) (p : Part) (hl : body.length = 2) :
    p.takeStoreQuery tag body = p.answer .storeQuery tag .ok (p.storeFields (b16 body 0)) := by
  unfold Part.takeStoreQuery
  simp only [readWord_two hl]

theorem Part.takeStreamQuery_named (tag : Byte) (body : Bytes) (p : Part) (l : Lang)
    (hl : body.length = 1) (hb : b8 body 0 = l.val) :
    p.takeStreamQuery tag body = p.answer .streamQuery tag .ok (p.streamFields l) := by
  unfold Part.takeStreamQuery
  simp only [readByte_one hl, namedLang_of hl.ge hb, hb, l.isLt, if_true]

theorem Part.takeQueueQuery_all (tag : Byte) (body : Bytes) (p : Part)
    (hl : body.length = 1) (hb : b8 body 0 = 255) :
    p.takeQueueQuery tag body = p.answer .queueQuery tag .ok (p.queueFields none) := by
  unfold Part.takeQueueQuery
  simp only [readByte_one hl, hb, identOrNone, if_true]

theorem Part.takeQueueQuery_set (tag : Byte) (body : Bytes) (p : Part) (i : SetId)
    (hl : body.length = 1) (hb : b8 body 0 = i.val) :
    p.takeQueueQuery tag body = p.answer .queueQuery tag .ok (p.queueFields (some i)) := by
  have hne : i.val ≠ 255 := by omega
  unfold Part.takeQueueQuery
  simp only [readByte_one hl, hb, identOrNone, hne, if_false, ident_val, Option.map_some]

/-- The sum of the bits of a set of languages. -/
theorem languageMask_eq (ls : List Lang) : languageMask ls = (ls.map fun l => 2 ^ l.val).sum := by
  have h : ∀ n, ls.foldl (fun n l => n + 2 ^ l.val) n = n + (ls.map fun l => 2 ^ l.val).sum := by
    induction ls with
    | nil => simp
    | cons l ls ih =>
      intro n
      rw [List.foldl_cons, ih, List.map_cons, List.sum_cons, Nat.add_assoc]
  exact (h 0).trans (Nat.zero_add _)

theorem Announcer.safetyPlaying_eq (a : Announcer) :
    a.safetyPlaying = decide (∃ r, a.playing = some r ∧ r.entry.cls = .safety) := by
  unfold Announcer.safetyPlaying
  cases h : a.playing with
  | none => simp
  | some r => simp

theorem Announcer.plays_eq (a : Announcer) (i : SetId) :
    a.plays i = decide (∃ r, a.playing = some r ∧ r.entry.set = i) := by
  unfold Announcer.plays
  cases h : a.playing with
  | none => simp
  | some r => simp

theorem Announcer.queued_eq (a : Announcer) (i : SetId) :
    a.queued i = decide (∃ e ∈ a.queue, e.set = i) := by
  unfold Announcer.queued queuePlace
  rw [List.findIdx?_isSome, Bool.eq_iff_iff]
  simp

theorem cueState_eq (now : PartTime) (a : Option (Fin 16 × PartTime)) :
    cueState now a = match a with
      | none => eAbsent 5
      | some (c, began) => e8 c.val ++ eTime (now - began) := by
  obtain _ | ⟨c, began⟩ := a <;> rfl

/-- Settles O27: each reply's fields, written out. -/
theorem queriesReportAndChangeNothing : Obligations.QueriesReportAndChangeNothing := by
  intro s tag body hq p answered
  have hanswer : ∀ (i : Instr) (k : Kind) (take : Part → Part) (st : Status) (fields : Bytes),
      exec i s = .next (s.onPart (Part.request k tag body take)) →
      (take { p with link := p.takenLink k tag body } =
        Part.answer k tag st fields { p with link := p.takenLink k tag body }) →
      answered i k st fields := fun i k take st fields hi h hcan =>
    hi.trans (congrArg _ (s.onPart_answered k tag body st fields take hcan hq h))
  refine ⟨fun c hl hc => ?clip, fun hl => ?store, fun l hl hb => ?stream, fun hl => ?queue,
    fun hbody => ⟨?supply, ?deck, ?ident⟩⟩
  case clip =>
    exact hanswer _ _ (Part.takeClipQuery tag body) _ _ rfl
      (Part.takeClipQuery_named tag body { p with link := p.takenLink .clipQuery tag body } c hl hc)
  case store =>
    intro k above
    refine hanswer _ _ (Part.takeStoreQuery tag body) _ _ rfl
      ((Part.takeStoreQuery_page tag body { p with link := p.takenLink .storeQuery tag body } hl).trans ?_)
    simp only [Part.storeFields, Check.fields, List.append_assoc, runsPages_length]
    rfl
  case stream =>
    intro x y entry
    refine hanswer _ _ (Part.takeStreamQuery tag body) _ _ rfl
      ((Part.takeStreamQuery_named tag body { p with link := p.takenLink .streamQuery tag body } l hl
        hb).trans ?_)
    have hentry : ∀ role, (fun e : Entry => e.fields role) = entry role := by
      intro role
      funext e
      simp only [Entry.fields, e8, BitVec.ofNat_toNat, BitVec.setWidth_eq, entry]
    have hhold : e8 (if p.lang.hold = true then 0 else 1) = [if p.lang.hold = true then 0 else 1] := by
      cases p.lang.hold <;> rfl
    simp only [Part.streamFields, Language.listFields, Reader.fields, eText, List.append_assoc, hentry]
    rw [show ({ p with link := p.takenLink .streamQuery tag body } : Part).lang = p.lang from rfl, hhold]
    rfl
  case queue =>
    intro safety common
    have hcommon : ∀ link : Link, ∀ rest : Bytes, Part.queueFields none { p with link := link } ++ rest =
        common ++ rest := by
      intro link rest
      simp only [Part.queueFields, Part.playingFields, lastFields, languageMask_eq,
        Announcer.safetyPlaying_eq, List.append_nil, common] <;> rfl
    refine ⟨fun hb => ?_, fun i hb => ?_⟩
    · refine hanswer _ _ (Part.takeQueueQuery tag body) _ _ rfl
        ((Part.takeQueueQuery_all tag body { p with link := p.takenLink .queueQuery tag body } hl hb).trans ?_)
      have := hcommon (p.takenLink .queueQuery tag body) []
      rw [List.append_nil, List.append_nil] at this
      rw [this]
    · intro x
      refine hanswer _ _ (Part.takeQueueQuery tag body) _ _ rfl
        ((Part.takeQueueQuery_set tag body { p with link := p.takenLink .queueQuery tag body } i hl
          hb).trans ?_)
      have hsplit : ∀ q : Part, q.queueFields (some i) = q.queueFields none ++ q.setFields i := by
        intro q
        simp only [Part.queueFields, List.append_nil]
      rw [hsplit, hcommon]
      simp only [Part.setFields, Announcer.queued_eq, Announcer.plays_eq, List.append_assoc]
      rfl
  case supply =>
    subst hbody
    refine hanswer _ _ (Part.takeSupplyQuery tag []) _ _ rfl ?_
    rfl
  case deck =>
    subst hbody
    refine hanswer _ _ (Part.takeDeckQuery tag []) _ _ rfl ?_
    change Part.answer .deckQuery tag .ok (Part.deckFields { p with link := p.takenLink .deckQuery tag [] })
      { p with link := p.takenLink .deckQuery tag [] } = _
    simp only [Part.deckFields, Scene.fields, Zone.deckFields, cueState_eq, Shed.ceiling_eq, List.append_assoc] <;> rfl
  case ident =>
    subst hbody
    exact hanswer _ _ (Part.takePartIdent tag []) _ _ rfl rfl

/-! ### Road speed and the limits (R137 to R139, R144, R146) -/

/-- R144: every pending code after it has been recomputed. -/
theorem Part.recomputeSeats_seat (p : Part) (i : SeatId) :
    p.recomputeSeats.seat i = { p.seat i with
      pending := if (p.seat i).socket.state = .attached then
        seatCode p.level (p.seat i).volume (p.language (p.seat i).language).trim else .mute } :=
  vget_vmap _ _ _

/-- A part whose Level Unit has been written, with every seat's code and the PA code recomputed, or not. -/
def Part.recoded (l : LevelUnit) (seats pa : Prop) [Decidable seats] [Decidable pa] (p : Part) : Part :=
  { p with
    level := { l with paCode := if pa then l.paCodeNow else l.paCode }
    seats := if seats then (Part.recomputeSeats { p with level := l }).seats else p.seats }

theorem Part.recoded_seat (l : LevelUnit) (seats pa : Prop) [Decidable seats] [Decidable pa] (p : Part)
    (i : SeatId) : (p.recoded l seats pa).seat i = { p.seat i with
      pending := if seats then
        (if (p.seat i).socket.state = .attached then
          seatCode l (p.seat i).volume (p.language (p.seat i).language).trim else .mute)
        else (p.seat i).pending } := by
  unfold Part.recoded
  by_cases h : seats
  · simp only [if_pos h]
    exact Part.recomputeSeats_seat { p with level := l } i
  · simp only [if_neg h]
    rfl

/-- R144, R146: the recomputations of a part whose Level Unit has been written. -/
theorem Part.recoded_of (l : LevelUnit) (seats pa : Prop) [Decidable seats] [Decidable pa] (p : Part) :
    (if pa then (if seats then Part.recomputeSeats { p with level := l } else { p with level := l }).recomputePa
      else if seats then Part.recomputeSeats { p with level := l } else { p with level := l }) =
      p.recoded l seats pa := by
  unfold Part.recoded
  by_cases hs : seats <;> by_cases hp : pa <;> simp only [hs, hp, if_true, if_false]
  · simp [Part.recomputePa]
  · rfl
  · rfl

/-- R137: the codes follow the noise term. -/
theorem Part.takeSpeedValue_eq (speed : Nat) (p : Part) :
    p.takeSpeedValue speed = p.recoded (p.level.storeSpeed p.time speed)
      (noiseTerm speed ≠ noiseTerm p.level.speed) (noiseTerm speed ≠ noiseTerm p.level.speed) := by
  rw [← Part.recoded_of]
  unfold Part.takeSpeedValue
  by_cases h : noiseTerm p.level.speed = noiseTerm speed
  · simp only [h, if_true, ne_eq, not_true_eq_false, if_false]
  · simp only [h, Ne.symm h, if_false, ne_eq, not_false_eq_true, if_true]

/-- R139: what the changed limits reach. -/
theorem Part.writeLimits_eq (body : Bytes) (p : Part) :
    p.writeLimits body = p.recoded (p.level.withLimits body)
      ((p.level.withLimits body).cap ≠ p.level.cap ∨
        ((p.level.withLimits body).safetyFloor ≠ p.level.safetyFloor ∧ p.level.safetyCondition = true))
      ((p.level.withLimits body).paBase ≠ p.level.paBase ∨
        (p.level.withLimits body).paCap ≠ p.level.paCap) := by
  rw [← Part.recoded_of]
  rfl

theorem noiseTerm_eq (speed : Nat) : noiseTerm speed = min (speed / 4) 18 := rfl

theorem newLimit_eq (body : Bytes) (n : Nat) (old low high : Int) :
    newLimit old low high (keepInt body n) =
      if bs8 body n = -128 then old else max low (min high (bs8 body n)) := by
  unfold newLimit keepInt
  by_cases h : bs8 body n = -128
  · simp only [h, if_true]
  · simp only [h, if_false]
    rfl

theorem limitClamped_eq (body : Bytes) (n : Nat) (old low high : Int) :
    limitClamped low high (keepInt body n) =
      (decide (bs8 body n ≠ -128) && decide (newLimit old low high (keepInt body n) ≠ bs8 body n)) := by
  unfold limitClamped newLimit keepInt
  by_cases h : bs8 body n = -128
  · simp only [h, if_true]
    rfl
  · simp only [h, if_false, ne_eq, not_false_eq_true, decide_true, Bool.true_and]

theorem clampStatus_eq (b : Bool) : clampStatus b = if b then .clamped else .ok := rfl

/-- R138: the stale end. -/
theorem Part.speedStale_at (p : Part) (d : PartTime) (h : p.level.staleEnd = some d) :
    p.speedStale = { p.reach d with level := { p.level with staleEnd := none, stale := true } } := by
  simp only [Part.speedStale, h, Part.reach_level]

theorem Part.reach_atOrAfter (p : Part) (d : PartTime) : atOrAfter (p.reach d).time d = true := by
  rw [Part.reach_eq]
  by_cases h : atOrAfter p.time d = true
  · simp [h]
  · simp [h]

/-- The transmitter frees slots and takes nothing else of the link's errors. -/
theorem Link.pump_frees (l : Link) :
    l.pump.slots.length ≤ l.slots.length ∧ l.pump.linkError = l.linkError := by
  unfold Link.pump
  split
  · exact ⟨Nat.le_refl _, rfl⟩
  · split
    · refine ⟨?_, rfl⟩
      simp only
      split
      · exact List.length_filter_le _ _
      · exact Nat.le_refl _
    · split <;> exact ⟨Nat.le_refl _, rfl⟩

/-- Settles O47. -/
theorem speedLevelSetAndStaleEndReachTheCodes : Obligations.SpeedLevelSetAndStaleEndReachTheCodes := by
  intro s tag body hq l code
  refine ⟨fun hcan hlen => ?speed, fun hcan hlen => ?levels, ?stale⟩
  case speed =>
    intro speed noise changed l'
    have hexec : exec (.speed tag body) s =
        .next (s.onPart (Part.request .speed tag body (Part.takeSpeed tag body))) := rfl
    set p : Part := { s.part with link := s.part.takenLink .speed tag body } with hp
    have htaken : p.takeSpeed tag body = Part.answer .speed tag (if 150 < b8 body 0 then .clamped else .ok)
        (e8 speed ++ e8 noise) (p.takeSpeedValue speed) := by
      unfold Part.takeSpeed
      simp only [readByte_one hlen, clampStatus_eq, decide_eq_true_eq]
      rfl
    rw [p.takeSpeedValue_eq] at htaken
    rw [s.onPart_request _ _ _ (Part.takeSpeed tag body) _ hcan htaken hq] at hexec
    refine ⟨_, hexec, rfl, rfl, rfl, fun i => ?_, rfl⟩
    exact p.recoded_seat l' changed changed i
  case levels =>
    intro held cap floor base paCap l' seats clamped
    have hexec : exec (.levelSet tag body) s =
        .next (s.onPart (Part.request .levelSet tag body (Part.takeLevelSet tag body))) := rfl
    set p : Part := { s.part with link := s.part.takenLink .levelSet tag body } with hp
    have hlimits : p.level.withLimits body = l' := by
      simp only [LevelUnit.withLimits, newLimit_eq]
      rfl
    have hone : ∀ (n : Nat) (old low high : Int), limitClamped low high (keepInt body n) =
        (decide (bs8 body n ≠ -128) && decide (held n old low high ≠ bs8 body n)) := fun n old low high => by
      rw [limitClamped_eq body n old, newLimit_eq]
    have hclamped : limitsClamped body = clamped := by
      unfold limitsClamped
      rw [hone 0 l.cap, hone 1 l.safetyFloor, hone 2 l.paBase, hone 3 l.paCap]
      simp only [clamped, List.any_cons, List.any_nil, Bool.or_false, Bool.or_assoc]
      rfl
    have htaken : p.takeLevelSet tag body = Part.answer .levelSet tag (if clamped then .clamped else .ok)
        (p.writeLimits body).level.fields (p.writeLimits body) := by
      unfold Part.takeLevelSet
      simp only [readExact_eq hlen, clampStatus_eq, hclamped]
    rw [p.writeLimits_eq, hlimits] at htaken
    rw [s.onPart_request _ _ _ (Part.takeLevelSet tag body) _ hcan htaken hq] at hexec
    refine ⟨_, hexec, rfl, rfl, rfl, fun i => ?_, rfl⟩
    exact p.recoded_seat l' seats (base ≠ l.paBase ∨ paCap ≠ l.paCap) i
  case stale =>
    have hexec : exec .speedStaleExpiry s = .next (s.onPart Part.speedStale) := rfl
    cases hend : l.staleEnd with
    | none =>
      have hnone : s.part.speedStale = s.part := by
        simp only [Part.speedStale, show s.part.level.staleEnd = none from hend]
      rw [s.onPart_eq _ _ hnone hq] at hexec
      refine ⟨_, hexec, rfl, rfl, fun d hd => absurd hd (by simp), fun _ => rfl,
        Link.pump_frees _⟩
    | some d =>
      rw [s.onPart_eq _ _ (s.part.speedStale_at d hend) (by simpa using hq)] at hexec
      refine ⟨_, hexec, rfl, rfl, fun e he => ?_, fun hn => absurd hn (by simp), ?_⟩
      · injection he with he
        subst he
        refine ⟨s.part.reach_atOrAfter d, ?_⟩
        rw [Part.reach_eq]
        rfl
      · have := Link.pump_frees s.part.link
        simpa [Part.served] using this

end Sys2Proof.Machine
end

section
/-! The lamps: how levels follow moved targets, the requests that move them, and the zone samples. -/

namespace Sys2Proof.Machine

/-! ### Zones that follow their targets, in the terms of the statements (R164, R165) -/

theorem Zone.startFade_eq (x : Zone) (now : PartTime) (n t : Nat) : x.startFade now n t = x.fadedTo now n t := by
  unfold Zone.startFade
  simp only [Zone.drive_eq]
  rfl

theorem Zone.retarget_fading (x : Zone) (now : PartTime) (n t : Nat) :
    x.retarget now n .fading t = x.recomputedTo now n t := by
  unfold Zone.retarget
  simp only [Zone.drive_eq, Zone.startFade_eq]
  rfl

theorem Zone.dark_eq (x : Zone) (now : PartTime) : x.dark now = x.darkenedAt now := by
  unfold Zone.dark
  rw [Zone.drive_eq]
  rfl

theorem Zone.recomputedTo_configured (x : Zone) (now : PartTime) (n t : Nat) :
    x.Configured (x.recomputedTo now n t) ∧ (x.recomputedTo now n t).halves = x.halves ∧
      (x.recomputedTo now n t).target = t := by
  rw [← Zone.retarget_fading]
  obtain ⟨hc, ht, hh⟩ := x.retarget_spec now n .fading t
  exact ⟨hc, hh, ht⟩

/-- R164: every level follows its target by fading. -/
theorem Light.retargetAll_fading (l : Light) (now : PartTime) (z : ZoneId) :
    vget (l.retargetAll now .fading).zones z = (vget l.zones z).recomputedTo now
      (vget l.scenes l.active).fade ((l.retargetAll now .fading).effective z) := by
  obtain ⟨-, h⟩ := l.retargetAll_spec now .fading
  have heff : (l.retargetAll now .fading).effective z = l.effective z :=
    l.effective_configured _ z (h z).1 (h z).2.1
  rw [heff, ← Zone.retarget_fading]
  simp only [Light.retargetAll, vget_vmap]
  rfl

/-- R164: one zone's record is written and its level follows its recomputed target by fading. -/
theorem Light.retargetZone_fading (l : Light) (now : PartTime) (z : ZoneId) (x : Zone) :
    Light.retargetZone { l with zones := vset l.zones z x } now .fading z =
      { l with zones := vset l.zones z (x.recomputedTo now (vget l.scenes l.active).fade
        (Light.effective { l with zones := vset l.zones z x } z)) } := by
  simp only [Light.retargetZone, vget_vset_same, vset_vset, Zone.retarget_fading]
  rfl

/-- The effective level of a zone looks at that zone alone. -/
theorem Light.effective_vset (l : Light) (z : ZoneId) (x y : Zone) (h : x.Configured y) (hh : y.halves = x.halves) :
    Light.effective { l with zones := vset l.zones z y } z =
      Light.effective { l with zones := vset l.zones z x } z := by
  have := Light.effective_configured { l with zones := vset l.zones z x } (vset l.zones z y) z
    (by simpa using h) (by simpa using hh)
  exact this

/-! ### Scenes and cues (R173 to R175) -/

theorem readCueItem_eq (body : Bytes) (i : Nat) (h : b8 body i ≤ 2) :
    ∃ b, readCueItem body i = some (
      (if b8 body i = 0 then .none
      else if b8 body i = 1 then .level (min 100 (b8 body (i + 1)))
      else .flash (min 100 (b8 body (i + 1))) (max 250 (min 2000 (b16 body (i + 2) / 50 * 50)))), b) := by
  have hx : b8 body i = 0 ∨ b8 body i = 1 ∨ b8 body i = 2 := by omega
  unfold readCueItem
  rcases hx with hx | hx | hx <;> simp only [hx] <;> exact ⟨_, rfl⟩

theorem sceneClamped_iff (body : Bytes) : sceneClamped body = true ↔ ∃ z : Fin 8, 100 < b8 body (1 + z.val) := by
  unfold sceneClamped
  simp only [List.any_eq_true, List.mem_range, decide_eq_true_eq]
  constructor
  · rintro ⟨n, hn, h⟩
    exact ⟨⟨n, hn⟩, h⟩
  · rintro ⟨z, h⟩
    exact ⟨z.val, z.isLt, h⟩

/-- R173: what writing a scene leaves of the part. -/
theorem Part.writeScene_spec (n : Fin 8) (x : Scene) (p : Part) :
    ∃ v, p.writeScene n x = { p with
        light := { p.light with scenes := vset p.light.scenes n x, zones := v } } ∧
      (n ≠ p.light.active → v = p.light.zones) ∧
      (n = p.light.active → ∀ z, vget v z = (p.zone z).recomputedTo p.time
        (vget (vset p.light.scenes n x) p.light.active).fade
        (Light.effective { p.light with scenes := vset p.light.scenes n x, zones := v } z)) := by
  unfold Part.writeScene
  by_cases h : n = p.light.active
  · refine ⟨(Light.retargetAll { p.light with scenes := vset p.light.scenes n x } p.time .fading).zones, ?_,
      fun hn => absurd h hn, fun _ z => Light.retargetAll_fading _ p.time z⟩
    dsimp only
    rw [if_pos h]
    rfl
  · refine ⟨p.light.zones, ?_, fun _ => rfl, fun hn => absurd hn h⟩
    dsimp only
    rw [if_neg h]

/-- R174: what choosing a scene leaves of the part. -/
theorem Part.selectScene_spec (n : Fin 8) (p : Part) :
    ∃ v, p.selectScene n = { p with light := { p.light with active := n, zones := v } } ∧
      (n = p.light.active → v = p.light.zones) ∧
      (n ≠ p.light.active → ∀ z, vget v z = (p.zone z).recomputedTo p.time
        (vget p.light.scenes n).fade (Light.effective { p.light with active := n, zones := v } z)) := by
  unfold Part.selectScene
  by_cases h : n = p.light.active
  · subst h
    exact ⟨p.light.zones, if_pos rfl, fun _ => rfl, fun hn => absurd rfl hn⟩
  · exact ⟨(Light.retargetAll { p.light with active := n } p.time .fading).zones, if_neg h,
      fun hn => absurd hn h, fun _ z => Light.retargetAll_fading _ p.time z⟩

/-- Settles O55. -/
theorem sceneAndCueRequestsWriteTheirTables : Obligations.SceneAndCueRequestsWriteTheirTables := by
  intro s tag body hq l followed
  refine ⟨fun n hcan hlen hn => ?scene, fun n hcan hlen hn => ?select, fun c hcan hlen hc hitems => ?cue⟩
  case scene =>
    have hexec : exec (.sceneSet tag body) s =
        .next (s.onPart (Part.request .sceneSet tag body (Part.takeSceneSet tag body))) := rfl
    have htaken : ∀ p : Part, p.takeSceneSet tag body = Part.answer .sceneSet tag
        (if ∃ z : Fin 8, 100 < b8 body (1 + z.val) then .clamped else .ok)
        (vget (p.writeScene n (readScene body)).light.scenes n).fields (p.writeScene n (readScene body)) := by
      intro p
      unfold Part.takeSceneSet
      simp only [readExact_eq hlen, named8_long (show 1 ≤ body.length by omega), Option.bind_some, ident_eq n hn,
        clampStatus_eq, sceneClamped_iff]
    obtain ⟨v, hv, hkept, hmoved⟩ := Part.writeScene_spec n (readScene body)
      { s.part with link := s.part.takenLink .sceneSet tag body }
    have hanswer := htaken { s.part with link := s.part.takenLink .sceneSet tag body }
    rw [hv] at hanswer
    rw [s.onPart_request _ _ _ (Part.takeSceneSet tag body) _ hcan hanswer hq] at hexec
    refine ⟨_, hexec, rfl, rfl, ?_⟩
    have hx : vget (vset l.scenes n (readScene body)) n = readScene body := vget_vset_same _ _ _
    refine ⟨fun z => ?_, ?_, fun m hm => vget_vset_ne _ _ hm, hkept, hmoved, rfl⟩
    · exact (congrArg (fun y : Scene => vget y.levels z) hx).trans (vget_ofFn _ _)
    · exact congrArg Scene.fade hx
  case select =>
    have hexec : exec (.sceneSelect tag body) s =
        .next (s.onPart (Part.request .sceneSelect tag body (Part.takeSceneSelect tag body))) := rfl
    have htaken : ∀ p : Part, p.takeSceneSelect tag body = Part.answer .sceneSelect tag .ok
        (e8 (p.selectScene n).light.active.val ++
          e8 (vget (p.selectScene n).light.scenes n).fade) (p.selectScene n) := by
      intro p
      unfold Part.takeSceneSelect
      simp only [readByte_one hlen, ident_eq n hn]
    obtain ⟨v, hv, hkept, hmoved⟩ := Part.selectScene_spec n
      { s.part with link := s.part.takenLink .sceneSelect tag body }
    have hanswer := htaken { s.part with link := s.part.takenLink .sceneSelect tag body }
    rw [hv] at hanswer
    rw [s.onPart_request _ _ _ (Part.takeSceneSelect tag body) _ hcan hanswer hq] at hexec
    refine ⟨_, hexec, rfl, rfl, fun hn => ?_, hmoved, rfl⟩
    have hvz : v = l.zones := hkept hn
    subst hn
    rw [hvz] at *
    rfl
  case cue =>
    have hmeans : ∀ z : Fin 8, ∃ b, bodyItem body z = some (
        (if b8 body (1 + 4 * z.val) = 0 then .none
        else if b8 body (1 + 4 * z.val) = 1 then .level (min 100 (b8 body (2 + 4 * z.val)))
        else .flash (min 100 (b8 body (2 + 4 * z.val)))
          (max 250 (min 2000 (b16 body (3 + 4 * z.val) / 50 * 50)))), b) := by
      intro z
      have h := readCueItem_eq body (1 + 4 * z.val) (hitems z)
      rwa [show 1 + 4 * z.val + 1 = 2 + 4 * z.val by omega, show 1 + 4 * z.val + 2 = 3 + 4 * z.val by omega] at h
    have hnamed : itemsNamed body = true := by
      unfold itemsNamed
      rw [List.all_eq_true]
      intro z _
      obtain ⟨b, hb⟩ := hmeans z
      rw [hb]
      rfl
    have hfields : ∀ p : Part, p.cueFields body = (vget p.light.cues c).toList.flatMap CueItem.fields := by
      intro p
      simp only [Part.cueFields, named8_long (show 1 ≤ body.length by omega), Option.bind_some, ident_eq c hc]
    have hexec : exec (.lightcueSet tag body) s =
        .next (s.onPart (Part.request .lightcueSet tag body (Part.takeLightcueSet tag body))) := rfl
    refine ⟨fun hother => ?_, fun began hcue => ?_⟩
    · have htaken : ∀ p : Part, p.light.activeCue = l.activeCue → p.takeLightcueSet tag body =
          Part.answer .lightcueSet tag (clampStatus (cueClamped body))
            (Part.cueFields body { p with light := { p.light with cues := vset p.light.cues c (readCue body) } })
            { p with light := { p.light with cues := vset p.light.cues c (readCue body) } } := by
        intro p hp
        have hfree : (p.light.activeCue.any fun a => decide (a.1 = c)) = false := by
          rw [hp, Option.any_eq_false]
          exact fun a ha => by simpa using hother a ha
        unfold Part.takeLightcueSet
        simp only [readExact_eq hlen, ident_eq c hc, hnamed, hfree, Bool.false_eq_true, if_false, Bool.true_eq_false]
      rw [s.onPart_request _ _ _ (Part.takeLightcueSet tag body) _ hcan (htaken _ rfl) hq] at hexec
      refine ⟨_, hexec, rfl, rfl, fun z => ?_, fun d hd => vget_vset_ne _ _ hd, rfl⟩
      obtain ⟨b, hb⟩ := hmeans z
      have hread : vget (readCue body) z = _ := vget_ofFn _ z
      rw [hb] at hread
      exact (congrArg (fun y : Vector CueItem 8 => vget y z) (vget_vset_same _ _ _)).trans hread
    · have htaken : ∀ p : Part, p.light = l → p.takeLightcueSet tag body =
          Part.answer .lightcueSet tag .wrongState ((vget l.cues c).toList.flatMap CueItem.fields) p := by
        intro p hp
        unfold Part.takeLightcueSet
        simp only [readExact_eq hlen, ident_eq c hc, hnamed, hp, hcue, hfields, Option.any_some, decide_true,
          if_true, if_false, Bool.true_eq_false]
      rw [s.onPart_replied _ _ _ _ _ (Part.takeLightcueSet tag body) s.part hcan (htaken _ rfl) hq] at hexec
      exact hexec

/-! ### A zone's record is written and its level follows (R171, R172) -/

/-- A written zone goes dark, or its level follows its recomputed target by fading. -/
def Part.followed (z : ZoneId) (x : Zone) (dark : Bool) (p : Part) : Zone :=
  if dark then x.darkenedAt p.time
  else x.recomputedTo p.time (vget p.light.scenes p.light.active).fade
    (Light.effective { p.light with zones := vset p.light.zones z x } z)

theorem Part.setZone_followed (z : ZoneId) (x : Zone) (dark : Bool) (p : Part) :
    (if dark then (p.setZone z x).setZone z (x.dark p.time)
      else { p.setZone z x with light := (p.setZone z x).light.retargetZone p.time .fading z }) =
      p.setZone z (p.followed z x dark) := by
  cases dark with
  | true =>
    simp only [if_true, Part.followed, Zone.dark_eq]
    simp [Part.setZone]
  | false =>
    simp only [Bool.false_eq_true, if_false, Part.followed, Part.setZone, Light.retargetZone_fading]

theorem Part.followed_configured (z : ZoneId) (x : Zone) (dark : Bool) (p : Part) :
    x.Configured (p.followed z x dark) ∧ (p.followed z x dark).halves = x.halves := by
  unfold Part.followed
  split
  · exact ⟨rfl, rfl⟩
  · obtain ⟨hc, hh, -⟩ := x.recomputedTo_configured p.time (vget p.light.scenes p.light.active).fade
      (Light.effective { p.light with zones := vset p.light.zones z x } z)
    exact ⟨hc, hh⟩

/-- R98: a SAFETY zone in fault is one of the two conditions. -/
theorem Light.safetyFault_of {l : Light} (z : ZoneId) (h : (vget l.zones z).alarmed = true) :
    l.safetyFault = true := by
  unfold Light.safetyFault
  rw [List.any_eq_true]
  exact ⟨z, List.mem_finRange z, h⟩

/-- R171: a zone's fault, its level and the notice; DECK-ALERT is asserted for a SAFETY zone. -/
theorem Part.setFault_spec (z : ZoneId) (f : ZoneFault) (p : Part) (hf : f ≠ .ok) :
    ∃ a, p.setFault z f = { p with
        light := (p.setZone z (p.followed z { p.zone z with fault := f } ((p.zone z).faultDarkens f))).light
        link := p.link.noted (.zone z f) p.time, ann := a } ∧
      ((p.zone z).safety = true → a.deckAlert = true) := by
  obtain ⟨hconf, -⟩ := p.followed_configured z { p.zone z with fault := f } ((p.zone z).faultDarkens f)
  have hwritten := p.setZone_followed z { p.zone z with fault := f } ((p.zone z).faultDarkens f)
  generalize p.followed z { p.zone z with fault := f } ((p.zone z).faultDarkens f) = y at hconf hwritten
  have hfault : p.setFault z f = (if y.safety then Part.tellSafety
      { p.setZone z y with link := p.link.noted (.zone z f) p.time }
      else { p.setZone z y with link := p.link.noted (.zone z f) p.time }) := by
    unfold Part.setFault
    extract_lets x q r t
    have hq : q.zone z = { p.zone z with fault := f } := p.zone_setZone z _
    have hr : r = p.setZone z y := by
      unfold r
      rw [hq]
      exact hwritten
    have ht : t = { p.setZone z y with link := p.link.noted (.zone z f) p.time } := by
      unfold t
      rw [hr, Part.raise_only_link]
      rfl
    have hz : t.zone z = y := by
      rw [ht]
      exact p.zone_setZone z y
    rw [hz, ht]
  have hsafe : y.safety = (p.zone z).safety := by rw [hconf]
  rw [hfault, hsafe]
  cases hs : (p.zone z).safety with
  | false => exact ⟨p.ann, rfl, fun h => absurd h (by decide)⟩
  | true =>
    refine ⟨_, rfl, fun _ => ?_⟩
    have halarm : (p.setZone z y).light.safetyFault = true := by
      refine Light.safetyFault_of z ?_
      have hz : vget (p.setZone z y).light.zones z = y := p.zone_setZone z y
      rw [hz, hconf.alarmed]
      simp [Zone.alarmed, hs, hf]
    exact (congrArg _ halarm).trans (Bool.or_true _)

/-- R172: what a taken ZONE-SET makes of its zone and of the link. -/
theorem Part.configureZone_spec (z : ZoneId) (w : ZoneWrite) (p : Part) :
    ∃ a, p.configureZone z w = { p with
        light := (p.setZone z (p.followed z ((p.zone z).configured w) (!w.enabled))).light
        link := if (p.zone z).fault = .ok then p.link else p.link.noted (.zone z .ok) p.time
        ann := a } := by
  have hwritten := p.setZone_followed z ((p.zone z).configured w) (!w.enabled)
  generalize p.followed z ((p.zone z).configured w) (!w.enabled) = y at hwritten
  unfold Part.configureZone
  extract_lets old q r t
  have hq : q.zone z = (p.zone z).configured w := p.zone_setZone z _
  have hr : r = p.setZone z y := by
    rw [← hwritten]
    unfold r
    rw [hq]
    cases w.enabled <;> rfl
  have ht : t = { p.setZone z y with
      link := if (p.zone z).fault = .ok then p.link else p.link.noted (.zone z .ok) p.time } := by
    unfold t
    rw [hr]
    by_cases h : (p.zone z).fault = .ok
    · rw [if_pos h, if_pos h]
      rfl
    · rw [if_neg h, if_neg h, Part.raise_only_link]
      rfl
  rw [ht]
  split
  · exact ⟨_, rfl⟩
  · exact ⟨p.ann, rfl⟩

/-! ### ZONE-SET (R172) -/

theorem oneOfTwo_eq {x : Nat} (h : x ≤ 1) : oneOfTwo x = some (decide (x = 1)) := by
  have : x = 0 ∨ x = 1 := by omega
  rcases this with rfl | rfl <;> rfl

/-- Settles O54. -/
theorem zoneSetConfiguresAndClearsTheFault : Obligations.ZoneSetConfiguresAndClearsTheFault := by
  intro s tag body i hq hcan hlen hi hdis hsafe hkeep z nominal restart clamped configured
  have hexec : exec (.zoneSet tag body) s =
      .next (s.onPart (Part.request .zoneSet tag body (Part.takeZoneSet tag body))) := rfl
  set w : ZoneWrite := ⟨!decide (b8 body 1 = 1), decide (b8 body 2 = 1), min 100 (b8 body 3), nominal,
    decide (b8 body 6 = 1)⟩ with hw
  have hread : readZone body = some (i, w) := by
    unfold readZone
    rw [ident_eq i hi, oneOfTwo_eq hdis, oneOfTwo_eq hsafe, oneOfTwo_eq hkeep]
    rfl
  have hdisabled : decide (b8 body 1 = 0) = !decide (b8 body 1 = 1) := by
    have : b8 body 1 = 0 ∨ b8 body 1 = 1 := by omega
    rcases this with h | h <;> rw [h] <;> rfl
  have hconf : z.configured w = configured := by
    unfold Zone.configured
    have hrestart : (w.enabled = false ∨ w.nominal ≠ z.nominal) ↔ restart := by
      simp [hw, restart]
    simp only [hrestart]
    by_cases hr : restart
    · simp only [configured, hr, if_true, hdisabled, hw]
    · simp only [configured, hr, if_false, hdisabled, hw]
  have hstatus : clampStatus (zoneClamped body) = if clamped then .clamped else .ok := by
    rw [clampStatus_eq]
    simp only [zoneClamped, Bool.or_eq_true, decide_eq_true_eq]
    rfl
  set p : Part := { s.part with link := s.part.takenLink .zoneSet tag body } with hp
  have htaken : p.takeZoneSet tag body = Part.answer .zoneSet tag (if clamped then .clamped else .ok)
      ((p.configureZone i w).zone i).fields (p.configureZone i w) := by
    unfold Part.takeZoneSet
    simp only [readExact_eq hlen, hread, hstatus, Part.zoneFields, named8_long (show 1 ≤ body.length by omega),
      Option.bind_some, ident_eq i hi]
  have halert := (p.keeps_configureZone i w).alert
  obtain ⟨a, ha⟩ := p.configureZone_spec i w
  rw [show p.zone i = z from rfl, hconf] at ha
  rw [ha] at htaken halert
  obtain ⟨hy, hh⟩ := p.followed_configured i configured (!w.enabled)
  have heff := p.light.effective_vset i _ _ hy hh
  rw [s.onPart_request _ _ _ (Part.takeZoneSet tag body) _ hcan htaken hq] at hexec
  have hzone : vget (vset p.light.zones i (p.followed i configured (!w.enabled))) i =
    p.followed i configured (!w.enabled) := vget_vset_same _ _ _
  refine ⟨_, hexec, rfl, rfl, ?_⟩
  intro y
  have hyv : y = p.followed i configured (!w.enabled) := hzone
  have hcases : (b8 body 1 = 1 → p.followed i configured (!w.enabled) = configured.darkenedAt s.part.time) ∧
      (b8 body 1 = 0 → p.followed i configured (!w.enabled) = configured.recomputedTo s.part.time
        (vget s.part.light.scenes s.part.light.active).fade
        (Light.effective { p.light with zones := vset p.light.zones i configured } i)) := by
    constructor <;> intro h <;> simp only [hw, h, Part.followed] <;> rfl
  refine ⟨?_, fun h => hyv.trans (hcases.1 h), fun h => ?_, fun j hj => vget_vset_ne _ _ hj, rfl, halert, ?_, rfl⟩
  · refine (congrArg Zone.target hyv).trans (.trans ?_ heff.symm)
    rcases (show b8 body 1 = 0 ∨ b8 body 1 = 1 by omega) with h | h
    · rw [hcases.2 h]
      exact (configured.recomputedTo_configured _ _ _).2.2
    · rw [hcases.1 h]
      have hoff : configured.enabled = false := by simp [configured, h]
      simp [Light.effective, Zone.effective, hoff, Zone.darkenedAt]
  · exact hyv.trans ((hcases.2 h).trans (congrArg _ heff.symm))
  · have hbyte : (if clamped then Status.clamped else Status.ok).byte = if clamped then 1 else 0 := by
      split <;> rfl
    rw [← hbyte]
    simp only [← List.append_assoc]
    rfl

/-! ### Zone samples (R150, R166, R169 to R171) -/

theorem Part.zoneOutput_eq (p : Part) (i : ZoneId) :
    p.zoneOutput i = if p.active = true ∧ (p.zone i).enabled = true ∧ (p.zone i).fault ≠ .shortFault then
      (p.zone i).level else 0 := by
  unfold Part.zoneOutput Zone.canLight
  simp only [Bool.and_eq_true, decide_eq_true_eq]

theorem Part.samplesAt_taken (p : Part) (i : ZoneId) (level : Nat) (h : p.supply.running = true) :
    p.samplesAt i level = true ↔ 1 ≤ level ∧ ∃ start, vget p.supply.conversions i = some start ∧
      (level = p.zoneOutput i ∨ ∃ d, tfind (p.zone i).leftAt level = some d ∧
        (d - start).toNat ≤ (p.time - start).toNat) := by
  simp only [Part.samplesAt, Part.litAt, within, h, Bool.true_and, Option.any_eq_true, Bool.and_eq_true,
    Bool.or_eq_true, decide_eq_true_eq]
  constructor
  · rintro ⟨start, hs, hl, ho⟩
    exact ⟨hl, start, hs, ho⟩
  · rintro ⟨hl, start, hs, ho⟩
    exact ⟨start, hs, hl, ho⟩

theorem Part.judgeZone_unlit (z : ZoneId) (mA level : Nat) (p : Part)
    (h : (p.zone z).enabled = false ∨ (p.zone z).fault = .shortFault) : p.judgeZone z mA level = p := if_pos h

theorem Part.judgeZone_short (z : ZoneId) (mA level : Nat) (p : Part)
    (h : ¬((p.zone z).enabled = false ∨ (p.zone z).fault = .shortFault)) (hs : 5 * (p.zone z).nominal < 2 * mA) :
    p.judgeZone z mA level = p.setFault z .shortFault :=
  (if_neg h).trans (if_pos (decide_eq_true hs))

theorem Part.judgeZone_low (z : ZoneId) (mA level : Nat) (p : Part)
    (h : ¬((p.zone z).enabled = false ∨ (p.zone z).fault = .shortFault)) (hs : 2 * mA ≤ 5 * (p.zone z).nominal)
    (hl : level < 10) : p.judgeZone z mA level = p :=
  (if_neg h).trans ((if_neg (by simpa [Zone.short] using hs)).trans (if_pos hl))

/-- R170: the zone after a sample has entered its average and been judged for OPEN. -/
def Zone.openJudgement (mA level : Nat) (x : Zone) : Zone :=
  let a := x.nextAverage mA level
  { x with
    average := some a, averageLevel := some level
    openCount := if x.openJudged a level then min 2 (x.openCount + 1) else 0 }

theorem Part.judgeZone_high (z : ZoneId) (mA level : Nat) (p : Part)
    (h : ¬((p.zone z).enabled = false ∨ (p.zone z).fault = .shortFault)) (hs : 2 * mA ≤ 5 * (p.zone z).nominal)
    (hl : 10 ≤ level) : p.judgeZone z mA level =
      if ((p.zone z).openJudgement mA level).openCount = 2 ∧ (p.zone z).fault = .ok then
        (p.setZone z ((p.zone z).openJudgement mA level)).setFault z .openFault
      else p.setZone z ((p.zone z).openJudgement mA level) :=
  (if_neg h).trans ((if_neg (by simpa [Zone.short] using hs)).trans (if_neg (by omega)))

theorem Zone.nextAverage_eq (x : Zone) (mA level : Nat) : x.nextAverage mA level =
    match x.average with
    | none => mA
    | some o => if x.averageLevel = some level then ((o : Int) + ((mA : Int) - (o : Int)) / 2).toNat else mA := by
  unfold Zone.nextAverage Machine.average
  cases x.average with
  | none => exact ite_self _
  | some o => rfl

/-- An OPEN with preset KEEP leaves the effective level of a zone without a fault (R163, R171). -/
theorem Zone.effective_kept (x y : Zone) (shed : Shed) (base : Nat) (hx : x.fault = .ok) (hk : x.keep = true)
    (hy : y = { x with fault := .openFault, average := y.average, averageLevel := y.averageLevel
                       openCount := y.openCount }) : y.effective shed base = x.effective shed base := by
  rw [hy]
  simp only [Zone.effective, hx, hk, if_true]

/-- The result of R163 step 2 looks at its zone's halves alone. -/
theorem Light.base_vset (l : Light) (z : ZoneId) (x : Zone) (h : x.halves = (vget l.zones z).halves) :
    Light.base { l with zones := vset l.zones z x } z = l.base z := by
  unfold Light.base
  simp only [vget_vset_same, h]

/-- Settles O53. -/
theorem zoneSamplesAreJudged : Obligations.ZoneSamplesAreJudged := by
  intro s i mA level hq hrun z c lit driven taken stored faulted sound
  have hexec : exec (.zoneSample ⟨i, mA⟩ level) s = .next (s.onPart (Part.zoneSample i mA level)) := rfl
  have htaken : s.part.samplesAt i level = true ↔ taken := by
    rw [s.part.samplesAt_taken i level hrun, s.part.zoneOutput_eq]
  have hjudged : taken → s.part.zoneSample i mA level = Part.judgeZone i c level { s.part with supply := stored } := by
    intro ht
    unfold Part.zoneSample
    rw [if_pos (htaken.2 ht)]
    rfl
  have hlit : ¬lit ↔ (z.enabled = false ∨ z.fault = .shortFault) := by
    simp only [lit, not_and_or, not_not, Bool.not_eq_true]
  set p : Part := { s.part with supply := stored } with hp
  refine ⟨fun ht => ?none, fun ht hl => ?dark, fun ht hl => ?judged⟩
  case none =>
    have hsame : s.part.zoneSample i mA level = s.part := by
      unfold Part.zoneSample
      rw [if_neg (by rwa [htaken])]
    rw [s.onPart_eq _ _ hsame hq] at hexec
    exact hexec
  case dark =>
    rw [s.onPart_eq _ _ ((hjudged ht).trans (p.judgeZone_unlit i c level (hlit.1 hl))) hq] at hexec
    exact hexec
  case judged =>
    have hl' : ¬((p.zone i).enabled = false ∨ (p.zone i).fault = .shortFault) := fun h => hlit.2 h hl
    by_cases hshort : 5 * z.nominal < 2 * c
    · obtain ⟨a, ha, halert⟩ := p.setFault_spec i .shortFault (by decide)
      rw [s.onPart_eq _ _ ((hjudged ht).trans ((p.judgeZone_short i c level hl' hshort).trans ha)) hq] at hexec
      exact ⟨_, hexec, rfl, rfl, rfl, fun j hj => vget_vset_ne _ _ hj,
        fun _ => ⟨vget_vset_same _ _ _, rfl, halert⟩, fun h => absurd hshort (by omega),
        fun h => absurd hshort (by omega), rfl⟩
    have hsound : 2 * c ≤ 5 * z.nominal := by omega
    by_cases hlow : level < 10
    · rw [s.onPart_eq _ _ ((hjudged ht).trans (p.judgeZone_low i c level hl' hsound hlow)) hq] at hexec
      exact ⟨_, hexec, rfl, rfl, rfl, fun _ _ => rfl, fun h => absurd h hshort, fun _ _ => ⟨rfl, rfl, rfl⟩,
        fun _ h => absurd hlow (by omega), rfl⟩
    have hhigh := p.judgeZone_high i c level hl' hsound (by omega)
    have hjudgement : (p.zone i).openJudgement c level = z.openJudgement c level := rfl
    rw [hjudgement] at hhigh
    by_cases hopen : (z.openJudgement c level).openCount = 2 ∧ z.fault = .ok
    · obtain ⟨a, ha, halert⟩ := Part.setFault_spec i .openFault (p.setZone i (z.openJudgement c level)) (by decide)
      have hzone : (p.setZone i (z.openJudgement c level)).zone i = z.openJudgement c level := p.zone_setZone i _
      rw [hzone] at ha halert
      set y : Zone := Part.followed i { z.openJudgement c level with fault := .openFault }
        ((z.openJudgement c level).faultDarkens .openFault) (p.setZone i (z.openJudgement c level)) with hy
      rw [s.onPart_eq _ _ ((hjudged ht).trans ((hhigh.trans (if_pos hopen)).trans ha)) hq] at hexec
      refine ⟨_, hexec, rfl, rfl, rfl, fun j hj => (vget_vset_ne _ _ hj).trans (vget_vset_ne _ _ hj),
        fun h => absurd h hshort, fun _ h => absurd h hlow, fun _ _ => ?_, rfl⟩
      intro a' count judged
      have hj : z.openJudgement c level = judged := by
        simp only [Zone.openJudgement, z.nextAverage_eq, Zone.openJudged, decide_eq_true_eq]
        rfl
      have hcount : count = 2 := (congrArg Zone.openCount hj).symm.trans hopen.1
      have hy' : vget (vset (p.setZone i (z.openJudgement c level)).light.zones i y) i = y := vget_vset_same _ _ _
      refine ⟨fun h => ?_, fun _ _ hk => ⟨?_, rfl, halert⟩, fun _ _ hk => ⟨?_, rfl, halert⟩⟩
      · rcases h with h | h
        · omega
        · exact absurd (h.symm.trans hopen.2) (by decide)
      · refine hy'.trans ?_
        have hdark : (z.openJudgement c level).faultDarkens .openFault = true := by
          simpa [Zone.faultDarkens, Zone.openJudgement] using hk
        rw [hy, hdark, hj]
        rfl
      · refine hy'.trans ?_
        have hdark : (z.openJudgement c level).faultDarkens .openFault = false := by
          simpa [Zone.faultDarkens, Zone.openJudgement] using hk
        rw [hy, hdark, hj]
        refine congrArg (Zone.recomputedTo _ _ _) ?_
        have hbase := s.part.light.base_vset i { judged with fault := .openFault } rfl
        have heff := Zone.effective_kept z { judged with fault := .openFault } s.part.light.shed
          (s.part.light.base i) hopen.2 hk rfl
        simp only [Light.effective, Part.setZone, vget_vset_same, vset_vset]
        exact (congrArg _ hbase).trans heff
    · rw [s.onPart_eq _ _ ((hjudged ht).trans (hhigh.trans (if_neg hopen))) hq] at hexec
      refine ⟨_, hexec, rfl, rfl, rfl, fun j hj => vget_vset_ne _ _ hj, fun h => absurd h hshort,
        fun _ h => absurd h hlow, fun _ _ => ?_, rfl⟩
      intro a count judged
      have hj : z.openJudgement c level = judged := by
        simp only [Zone.openJudgement, z.nextAverage_eq, Zone.openJudged, decide_eq_true_eq]
        rfl
      rw [hj] at hopen hexec
      refine ⟨fun _ => ⟨?_, rfl, rfl⟩, fun h1 h2 => absurd ⟨h1, h2⟩ hopen, fun h1 h2 => absurd ⟨h1, h2⟩ hopen⟩
      exact (vget_vset_same _ _ _).trans hj

end Sys2Proof.Machine
end

section
/-! The supply: the shed state and what it reaches, the samples, SUPPLY-SET, and the end of the mode setting. -/

namespace Sys2Proof.Machine

/-! ### The shed state (R140, R155, R164) -/

theorem Part.tellLevelShed_eq (s : Shed) (p : Part) :
    p.tellLevelShed s = p.recoded { p.level with shed := s.reduction } True True := by
  rw [← Part.recoded_of]
  simp only [if_true]
  rfl

/-- R155: an unchanged shed state tells nobody. -/
theorem Part.findShed_same (p : Part) (h : worse p.supply.voltageState p.supply.currentLow = p.supply.shed) :
    p.findShed = p := if_pos h

/-- R140: the Level Unit once it has been told the shed state. -/
def LevelUnit.shedTold (new : Shed) (u : LevelUnit) : LevelUnit :=
  { u with shed := new.reduction, paCode := LevelUnit.paCodeNow { u with shed := new.reduction } }

/-- R155: a changed shed state raises a SUPPLY notice and reaches the neighbours. -/
theorem Part.findShed_changed (p : Part) (new : Shed)
    (hnew : worse p.supply.voltageState p.supply.currentLow = new) (h : new ≠ p.supply.shed) :
    ∃ v, p.findShed = { p with
        level := p.level.shedTold new, seats := v
        supply := { p.supply with shed := new }
        link := p.link.noted (.supply p.supply.shed new p.supply.voltageAverage p.supply.currentAverage) p.time
        light := p.light.tellShed p.time new } ∧
      ∀ i, vget v i = { p.seat i with
        pending := if (p.seat i).socket.state = .attached then
          seatCode (p.level.shedTold new) (p.seat i).volume (p.language (p.seat i).language).trim else .mute } := by
  refine ⟨(p.recoded { p.level with shed := new.reduction } True True).seats, ?_, fun i => ?_⟩
  · unfold Part.findShed
    rw [hnew]
    refine (if_neg h).trans ?_
    dsimp only
    rw [Part.raise_only_link, Part.tellLevelShed_eq]
    unfold Part.recoded Part.recomputeSeats Part.language LevelUnit.shedTold
    rfl
  · exact (p.recoded_seat { p.level with shed := new.reduction } True True i).trans (by
      simp only [if_true]
      rfl)

/-- R155: the link once a shed state has been found. -/
def Link.toldShed (old new : Shed) (u : Supply) (now : PartTime) (l : Link) : Link :=
  if new = old then l else l.noted (.supply old new u.voltageAverage u.currentAverage) now

/-- What a found shed state leaves of the part. -/
theorem Part.findShed_spec (p : Part) :
    p.findShed.link = p.link.toldShed p.supply.shed (worse p.supply.voltageState p.supply.currentLow)
        p.supply p.time ∧
      p.findShed.time = p.time ∧ p.findShed.bank = p.bank ∧ p.findShed.store = p.store ∧
      p.findShed.ann = p.ann := by
  by_cases h : worse p.supply.voltageState p.supply.currentLow = p.supply.shed
  · rw [p.findShed_same h]
    exact ⟨(if_pos h).symm, rfl, rfl, rfl, rfl⟩
  · obtain ⟨v, hv, -⟩ := p.findShed_changed _ rfl h
    rw [hv]
    exact ⟨(if_neg h).symm, rfl, rfl, rfl, rfl⟩

theorem Part.findShed_findShed (p : Part) : p.findShed.findShed = p.findShed := by
  refine Part.findShed_same _ ?_
  rw [Part.findShed_supply]

/-- R164: the GENERAL zones follow their recomputed targets by fading; the SAFETY zones stand. -/
theorem Light.tellShed_zone (l : Light) (now : PartTime) (new : Shed) (z : ZoneId) :
    vget (l.tellShed now new).zones z = if (vget l.zones z).safety then vget l.zones z
      else (vget l.zones z).recomputedTo now (vget l.scenes l.active).fade ((l.tellShed now new).effective z) := by
  have hv : vget (l.tellShed now new).zones z = if (vget l.zones z).safety then vget l.zones z
      else (vget l.zones z).recomputedTo now (vget l.scenes l.active).fade
        (Light.effective { l with shed := new } z) := by
    simp only [Light.tellShed, vget_vmap, Zone.retarget_fading]
    rfl
  have heff : (l.tellShed now new).effective z = Light.effective { l with shed := new } z := by
    refine Light.effective_configured { l with shed := new } _ z ?_ ?_
    · exact (l.tellShed_spec now new z).1
    · refine (congrArg Zone.halves hv).trans ?_
      split
      · rfl
      · exact (Zone.recomputedTo_configured _ _ _ _).2.1
  rw [hv, heff]

/-! ### Samples (R149 to R155) -/

theorem Supply.judgeVoltageNow_of (u : Supply) (a : Nat) (h : u.voltageAverage = some a) :
    u.judgeVoltageNow = { u with voltageState := judgeVoltage u.voltageState u.vLow u.vCrit a } := by
  simp only [Supply.judgeVoltageNow, h]

theorem Supply.judgeCurrentNow_of (u : Supply) (a : Nat) (h : u.currentAverage = some a) :
    u.judgeCurrentNow = { u with currentLow := judgeCurrent u.currentLow u.budget a } := by
  simp only [Supply.judgeCurrentNow, h]

theorem Supply.nextInterval_eq (u : Supply) (lit : Bool) (kept : Option PartTime)
    (hkept : kept = if lit then vget u.conversions u.zoneIndex else none) :
    u.nextInterval lit = { u with
      intervalStart := u.intervalEnd, intervalLength := u.scan, zoneIndex := u.nextZone
      conversions := Vector.ofFn fun k => if k = u.nextZone then some u.intervalEnd
        else if k = u.zoneIndex then kept else none } := by
  unfold Supply.nextInterval
  congr 1
  refine vector_ext fun k => ?_
  rw [vget_vmap, vget_ofFn, hkept]
  congr 1
  by_cases hk : k = u.zoneIndex
  · subst hk
    cases lit <;> simp
  · simp [hk]

theorem Part.supply_eta (p : Part) (u : Supply) (h : p.supply = u) : p = { p with supply := u } := by
  rw [← h]

theorem Part.voltageSample_running (mV : Nat) (p : Part) (h : p.supply.running = true) :
    p.voltageSample mV = Part.findShed { p.reach p.supply.halfWay with
      supply := (p.supply.takeVoltage mV).judgeVoltageNow } := by
  unfold Part.voltageSample
  refine (if_pos h).trans ?_
  dsimp only
  rw [Part.reach_supply]

/-- The deck current sample is judged, and the next interval begins. -/
def Part.currentJudged (mA : Nat) (p : Part) : Part :=
  Part.findShed { p.reach p.supply.intervalEnd with supply := (p.supply.takeCurrent mA).judgeCurrentNow }

theorem Part.currentJudged_supply (mA : Nat) (p : Part) :
    (p.currentJudged mA).supply = { (p.supply.takeCurrent mA).judgeCurrentNow with
      shed := worse (p.supply.takeCurrent mA).judgeCurrentNow.voltageState
        (p.supply.takeCurrent mA).judgeCurrentNow.currentLow } := Part.findShed_supply _

theorem Part.currentSample_running (mA : Nat) (p : Part) (h : p.supply.running = true) :
    p.currentSample mA = { p.currentJudged mA with
      supply := (p.currentJudged mA).supply.nextInterval
        ((p.reach p.supply.intervalEnd).litSince p.supply.zoneIndex p.supply.intervalStart) } := by
  unfold Part.currentSample Part.currentJudged
  refine (if_pos h).trans ?_
  dsimp only
  rw [Part.reach_supply]

theorem Part.reach_litSince (p : Part) (d : PartTime) (z : ZoneId) (start : PartTime) :
    (p.reach d).litSince z start = true ↔
      (p.active = true ∧ (p.zone z).enabled = true ∧ (p.zone z).fault ≠ .shortFault ∧ 1 ≤ (p.zone z).level) ∨
      ∃ x ∈ (p.zone z).leftAt, (x.2 - start).toNat ≤ ((p.reach d).time - start).toNat := by
  have hactive : (p.reach d).active = p.active := by rw [p.reach_eq]; rfl
  rw [Part.litSince_iff, Part.zoneOutput_eq, Part.reach_zone, hactive]
  refine or_congr ?_ Iff.rfl
  split
  · rename_i h
    obtain ⟨ha, he, hf⟩ := h
    simp [ha, he, hf]
  · rename_i h
    exact ⟨fun hl => absurd hl (by decide), fun ⟨ha, he, hf, _⟩ => absurd ⟨ha, he, hf⟩ h⟩

/-- Settles O51. -/
theorem supplySamplesAreJudged : Obligations.SupplySamplesAreJudged := by
  intro s x hq hrun u mean told
  have htold : ∀ (d : PartTime) (u1 u' : Supply) (f : Part → Part),
      f s.part = { Part.findShed { s.part.reach d with supply := u1 } with supply := u' } →
      u1.shed = u.shed → u'.shed = worse u1.voltageState u1.currentLow →
      u'.voltageAverage = u1.voltageAverage → u'.currentAverage = u1.currentAverage →
      ∃ t, s.onPart f = t ∧ told d u' t := by
    intro d u1 u' f hf hshed hnew hva hca
    have hreach : ∃ now, s.part.reach d = { s.part with time := now } := ⟨_, s.part.reach_eq d⟩
    simp only [told]
    obtain ⟨now, hnow⟩ := hreach
    rw [hnow] at hf ⊢
    by_cases h : worse u1.voltageState u1.currentLow = u1.shed
    · rw [Part.findShed_same _ h] at hf
      rw [s.onPart_eq f _ hf hq]
      exact ⟨_, rfl, rfl, rfl, rfl, rfl, rfl, rfl, rfl, rfl, rfl, fun _ => rfl,
        fun hne => absurd (hnew.trans (h.trans hshed)) hne⟩
    · obtain ⟨v, hv, hseats⟩ := Part.findShed_changed { s.part with time := now, supply := u1 } _ hnew.symm
        (fun e => h (hnew.symm.trans e))
      rw [hv] at hf
      rw [s.onPart_eq f _ hf hq]
      refine ⟨_, rfl, rfl, rfl, rfl, rfl, rfl, rfl, rfl, rfl, rfl, fun he => absurd (hnew.symm.trans (he.trans hshed.symm)) h,
        fun _ => ⟨?_, rfl, rfl, rfl, fun i => ?_, fun z hz => ?_, fun z hz => ?_⟩⟩
      · rw [hva, hca, ← hshed]
        rfl
      · have h1 := congrArg Seat.pending (hseats i)
        exact h1
      · exact (s.part.light.tellShed_zone now u'.shed z).trans (if_pos hz)
      · exact (s.part.light.tellShed_zone now u'.shed z).trans (if_neg (by
          rw [show (vget s.part.light.zones z).safety = false from hz]
          decide))
  constructor
  · have hexec : exec (.voltageSample x) s = .next (s.onPart (Part.voltageSample x)) := rfl
    have hf := s.part.voltageSample_running x hrun
    rw [(s.part.supply.takeVoltage x).judgeVoltageNow_of _ rfl] at hf
    obtain ⟨t, ht, htold⟩ := htold _ _ _ _ (hf.trans (Part.supply_eta _ _ (Part.findShed_supply _))) rfl rfl rfl rfl
    exact ⟨t, hexec.trans (congrArg _ ht), htold⟩
  · have hexec : exec (.currentSample x) s = .next (s.onPart (Part.currentSample x)) := rfl
    have hf := s.part.currentSample_running x hrun
    set lit : Bool := (s.part.reach s.part.supply.intervalEnd).litSince s.part.supply.zoneIndex
      s.part.supply.intervalStart with hlit
    rw [Part.currentJudged_supply, Supply.nextInterval_eq _ lit _ rfl, Part.currentJudged,
      (s.part.supply.takeCurrent x).judgeCurrentNow_of _ rfl] at hf
    obtain ⟨t, ht, htold⟩ := htold _ _ _ _ hf rfl rfl rfl rfl
    have htime : t.part.time = (s.part.reach s.part.supply.intervalEnd).time := htold.2.2.2.1
    refine ⟨t, hexec.trans (congrArg _ ht), ?_⟩
    intro c a low stop next z lits
    have hiff : lit = true ↔ lits := by
      rw [hlit, Part.reach_litSince, ← htime]
    refine ⟨if lit then vget u.conversions u.zoneIndex else none, fun h => if_pos (hiff.2 h),
      fun h => if_neg (fun hl => h (hiff.1 hl)), htold⟩

/-! ### SUPPLY-SET and SUPPLY-PEAK-CLEAR (R155, R156, R158) -/

theorem heldField16_eq (body : Bytes) (n old low high : Nat) : heldField old low high (keep16 body n) =
    if b16 body n = 65535 then old else max low (min high (b16 body n)) := by
  unfold heldField keep16
  by_cases h : b16 body n = 65535
  · simp only [h, if_true]
  · simp only [h, if_false]
    rfl

theorem heldField8_eq (body : Bytes) (n old low high : Nat) : heldField old low high (keep8 body n) =
    if b8 body n = 255 then old else max low (min high (b8 body n)) := by
  unfold heldField keep8
  by_cases h : b8 body n = 255
  · simp only [h, if_true]
  · simp only [h, if_false]
    rfl

theorem fieldClamped16_iff (body : Bytes) (n old low high : Nat) : fieldClamped low high (keep16 body n) = true ↔
    b16 body n ≠ 65535 ∧ heldField old low high (keep16 body n) ≠ b16 body n := by
  unfold fieldClamped heldField keep16
  by_cases h : b16 body n = 65535
  · simp [h]
  · simp [h]

theorem fieldClamped8_iff (body : Bytes) (n old low high : Nat) : fieldClamped low high (keep8 body n) = true ↔
    b8 body n ≠ 255 ∧ heldField old low high (keep8 body n) ≠ b8 body n := by
  unfold fieldClamped heldField keep8
  by_cases h : b8 body n = 255
  · simp [h]
  · simp [h]

theorem checkPair_eq (a b : Nat) : checkPair a b =
    (if b < a then a else if a < 16500 then 16500 else a,
      if b < a then b else if a < 16500 then 16000 else a - 500) := by
  unfold checkPair
  by_cases h : a ≤ b
  · have h' : ¬b < a := by omega
    by_cases hl : a < 16500 <;> simp only [h, h', hl, if_true, if_false]
  · have h' : b < a := by omega
    simp only [h, h', if_true, if_false]

/-- R156: the stored scan interval once the request's field is held. -/
theorem Supply.withSettings_scan (u : Supply) (body : Bytes) :
    (u.withSettings body).scan = if b8 body 6 = 255 then u.scan else storedScan (b8 body 6) := by
  unfold Supply.withSettings keep8
  by_cases h : b8 body 6 = 255
  · simp only [h, if_true]
  · simp only [h, if_false]

theorem scanClamped_iff (body : Bytes) (old : Nat) :
    ((keep8 body 6).any fun x => decide (storedScan x ≠ x)) = true ↔
      b8 body 6 ≠ 255 ∧ (if b8 body 6 = 255 then old else storedScan (b8 body 6)) ≠ b8 body 6 := by
  unfold keep8
  by_cases h : b8 body 6 = 255
  · simp [h]
  · simp [h]

/-- R153, R156: the voltage state once the present average has been judged again. -/
def Supply.voltageJudged (u : Supply) : Shed :=
  match u.voltageAverage with
  | some a => judgeVoltage u.voltageState u.vLow u.vCrit a
  | none => u.voltageState

/-- R154, R156: the current state once the present average has been judged again. -/
def Supply.currentJudged (u : Supply) : Bool :=
  match u.currentAverage with
  | some a => judgeCurrent u.currentLow u.budget a
  | none => u.currentLow

theorem Supply.judgeVoltageNow_eq (u : Supply) : u.judgeVoltageNow = { u with voltageState := u.voltageJudged } := by
  rcases Option.eq_none_or_eq_some u.voltageAverage with h | ⟨a, h⟩
  · have hstate : u.voltageJudged = u.voltageState := by simp only [Supply.voltageJudged, h]
    have hnow : u.judgeVoltageNow = u := by simp only [Supply.judgeVoltageNow, h]
    rw [hnow, hstate]
  · simp only [Supply.judgeVoltageNow, Supply.voltageJudged, h]

theorem Supply.judgeCurrentNow_eq (u : Supply) : u.judgeCurrentNow = { u with currentLow := u.currentJudged } := by
  rcases Option.eq_none_or_eq_some u.currentAverage with h | ⟨a, h⟩
  · have hstate : u.currentJudged = u.currentLow := by simp only [Supply.currentJudged, h]
    have hnow : u.judgeCurrentNow = u := by simp only [Supply.judgeCurrentNow, h]
    rw [hnow, hstate]
  · simp only [Supply.judgeCurrentNow, Supply.currentJudged, h]

/-- R155, R156: the first of two judgements, made or not, with the shed state found after it. -/
def Part.judgedOnce (v : Shed) (moved : Bool) (p : Part) : Part :=
  if moved then Part.findShed { p with supply := { p.supply with voltageState := v } } else p

/-- R155, R156: the shed state is found after each of two judgements, each made or not. -/
def Part.judgedTwice (v : Shed) (low : Bool) (moved : Bool) (p : Part) : Part :=
  Part.findShed { p.judgedOnce v moved with supply := { (p.judgedOnce v moved).supply with currentLow := low } }

theorem Part.judgedOnce_supply (v : Shed) (moved : Bool) (p : Part) :
    (p.judgedOnce v moved).supply.currentJudged = p.supply.currentJudged ∧
      (p.judgedOnce v moved).supply.currentLow = p.supply.currentLow := by
  unfold Part.judgedOnce
  split
  · rw [Part.findShed_supply]
    exact ⟨rfl, rfl⟩
  · exact ⟨rfl, rfl⟩

/-- R156: the voltage state after the settings have been written over `old`. -/
def Supply.voltageAfter (old u : Supply) : Shed :=
  if u.vLow ≠ old.vLow ∨ u.vCrit ≠ old.vCrit then u.voltageJudged else u.voltageState

/-- R156: the current state after the settings have been written over `old`. -/
def Supply.currentAfter (old u : Supply) : Bool :=
  if u.budget ≠ old.budget then u.currentJudged else u.currentLow

/-- R156: the settings are written and judged. -/
theorem Part.writeSettings_eq (body : Bytes) (p : Part) (u : Supply) (hu : p.supply.withSettings body = u) :
    p.writeSettings body = Part.judgedTwice (p.supply.voltageAfter u) (p.supply.currentAfter u)
      (decide (u.vLow ≠ p.supply.vLow ∨ u.vCrit ≠ p.supply.vCrit)) { p with supply := u } := by
  have hfirst : (if u.vLow ≠ p.supply.vLow ∨ u.vCrit ≠ p.supply.vCrit then
      Part.rejudgeVoltage { p with supply := u } else { p with supply := u }) =
      Part.judgedOnce (p.supply.voltageAfter u) (decide (u.vLow ≠ p.supply.vLow ∨ u.vCrit ≠ p.supply.vCrit))
        { p with supply := u } := by
    unfold Part.judgedOnce Supply.voltageAfter
    by_cases h : u.vLow ≠ p.supply.vLow ∨ u.vCrit ≠ p.supply.vCrit
    · rw [if_pos h, if_pos h, if_pos (decide_eq_true h), Part.rejudgeVoltage, Supply.judgeVoltageNow_eq]
    · rw [if_neg h, if_neg (by simpa using h)]
  obtain ⟨hj, hl⟩ := Part.judgedOnce_supply (p.supply.voltageAfter u)
    (decide (u.vLow ≠ p.supply.vLow ∨ u.vCrit ≠ p.supply.vCrit)) { p with supply := u }
  unfold Part.writeSettings Part.judgedTwice Supply.currentAfter
  dsimp only
  rw [hu, hfirst]
  generalize Part.judgedOnce _ _ _ = r at hj hl ⊢
  by_cases h : u.budget ≠ p.supply.budget
  · rw [if_pos h, if_pos h, Part.rejudgeCurrent, Part.findShed_findShed, Supply.judgeCurrentNow_eq, hj]
  · rw [if_neg h, if_neg h, ← hl]

/-- What two findings of the shed state leave of the part. -/
theorem Part.judgedTwice_spec (v : Shed) (low moved : Bool) (p : Part)
    (hv : moved = false → v = p.supply.voltageState) :
    let between := if moved then worse v p.supply.currentLow else p.supply.shed
    (p.judgedTwice v low moved).supply =
        { p.supply with voltageState := v, currentLow := low, shed := worse v low } ∧
      (p.judgedTwice v low moved).link =
        (p.link.toldShed p.supply.shed between p.supply p.time).toldShed between (worse v low) p.supply p.time ∧
      (p.judgedTwice v low moved).bank = p.bank ∧ (p.judgedTwice v low moved).store = p.store ∧
      (p.judgedTwice v low moved).ann = p.ann ∧
      (between = p.supply.shed → worse v low = p.supply.shed → p.judgedTwice v low moved = { p with
        supply := { p.supply with voltageState := v, currentLow := low, shed := worse v low } }) := by
  intro between
  set q : Part := p.judgedOnce v moved with hq
  have hsecond : p.judgedTwice v low moved = Part.findShed { q with supply := { q.supply with currentLow := low } } :=
    rfl
  have hfirst : q.supply = { p.supply with voltageState := v, shed := between } ∧
      q.link = p.link.toldShed p.supply.shed between p.supply p.time ∧ q.time = p.time ∧ q.bank = p.bank ∧
      q.store = p.store ∧ q.ann = p.ann ∧
      (between = p.supply.shed → q = { p with supply := { p.supply with voltageState := v, shed := between } }) := by
    cases hm : moved with
    | true =>
      obtain ⟨hl, ht, hb, hs, ha⟩ := Part.findShed_spec { p with supply := { p.supply with voltageState := v } }
      have hbetween : between = worse v p.supply.currentLow := by simp only [between, hm, if_true]
      simp only [hq, Part.judgedOnce, hm, if_true, hbetween]
      refine ⟨Part.findShed_supply _, hl, ht, hb, hs, ha, fun he => ?_⟩
      rw [Part.findShed_same _ he, he]
    | false =>
      have hbetween : between = p.supply.shed := by
        simp only [between, hm, Bool.false_eq_true, if_false]
      simp only [hq, Part.judgedOnce, hm, Bool.false_eq_true, if_false, hbetween, hv hm]
      exact ⟨trivial, (if_pos rfl).symm, trivial, trivial, trivial, trivial, fun _ => trivial⟩
  rw [hsecond]
  obtain ⟨hsupply, hlink, htime, hbank, hstore, hann, hsame⟩ := hfirst
  clear_value q
  obtain ⟨hl, ht, hb, hs, ha⟩ := Part.findShed_spec { q with supply := { q.supply with currentLow := low } }
  refine ⟨?_, ?_, hb.trans hbank, hs.trans hstore, ha.trans hann, fun h1 h2 => ?_⟩
  · rw [Part.findShed_supply, hsupply]
  · rw [hl]
    simp only [hsupply, hlink, htime]
    rfl
  · have hq' := hsame h1
    subst hq'
    rw [Part.findShed_same _ (h2.trans h1.symm)]
    simp only [h1, h2]

theorem or_seven {a b c d e f g : Prop} :
    (((((a ∨ b) ∨ c) ∨ e) ∨ d) ∨ (f ∨ g)) ↔ (a ∨ b ∨ c ∨ d ∨ e ∨ f ∨ g) := by
  simp only [or_assoc]
  exact or_congr Iff.rfl (or_congr Iff.rfl (or_congr Iff.rfl or_left_comm))

/-- Settles O52. -/
theorem supplyRequestsWriteTheirFields : Obligations.SupplyRequestsWriteTheirFields := by
  intro s tag body hq u
  refine ⟨fun hcan hlen => ?set, fun hcan hne => ?long, fun hcan he => ?clear⟩
  case set =>
    intro held16 vLow vCrit budget scan shift vLow' vCrit' clamped
    have hexec : exec (.supplySet tag body) s =
        .next (s.onPart (Part.request .supplySet tag body (Part.takeSupplySet tag body))) := rfl
    set w : Supply := { u with vLow := vLow', vCrit := vCrit', budget := budget, scan := scan, shift := shift } with hw
    have hpair : u.givenPair body = (vLow, vCrit) := by
      unfold Supply.givenPair
      rw [heldField16_eq, heldField16_eq]
    have hsettings : u.withSettings body = w := by
      have hfields : u.withSettings body = { u with
          vLow := (checkPair (u.givenPair body).1 (u.givenPair body).2).1
          vCrit := (checkPair (u.givenPair body).1 (u.givenPair body).2).2
          budget := heldField u.budget 1000 60000 (keep16 body 4)
          scan := (u.withSettings body).scan
          shift := heldField u.shift 1 4 (keep8 body 7) } := rfl
      rw [hfields, u.withSettings_scan, heldField16_eq, heldField8_eq, hpair, checkPair_eq]
      rfl
    have hclamped : clampStatus (u.settingsClamped body) = if clamped then .clamped else .ok := by
      have hiff : u.settingsClamped body = true ↔ clamped := by
        unfold Supply.settingsClamped
        simp only [Bool.or_eq_true, fieldClamped16_iff body 0 u.vLow, fieldClamped16_iff body 2 u.vCrit,
          fieldClamped16_iff body 4 u.budget, fieldClamped8_iff body 7 u.shift, scanClamped_iff body u.scan,
          heldField16_eq, heldField8_eq, hpair, checkPair_eq, decide_eq_true_eq, ne_eq, Prod.mk.injEq]
        change (((((_ ∧ vLow ≠ _) ∨ (_ ∧ vCrit ≠ _)) ∨ (_ ∧ budget ≠ _)) ∨ (_ ∧ shift ≠ _)) ∨ (_ ∧ scan ≠ _)) ∨
          ¬(vLow' = vLow ∧ vCrit' = vCrit) ↔ clamped
        rw [not_and_or]
        exact or_seven
      rw [clampStatus_eq]
      simp only [hiff]
    set p : Part := { s.part with link := s.part.takenLink .supplySet tag body } with hp
    have htaken : p.takeSupplySet tag body = Part.answer .supplySet tag (if clamped then .clamped else .ok)
        (p.writeSettings body).supply.settingFields (p.writeSettings body) := by
      unfold Part.takeSupplySet
      simp only [readExact_eq hlen]
      rw [show p.supply = u from rfl, hclamped]
    have hright := (p.keeps_writeSettings body).shed
    have hwrite := p.writeSettings_eq body w hsettings
    rw [show p.supply = u from rfl] at hwrite
    rw [hwrite] at htaken hright
    set moved : Bool := decide (w.vLow ≠ u.vLow ∨ w.vCrit ≠ u.vCrit) with hmoved
    have hmoved' : moved = true ↔ (vLow' ≠ u.vLow ∨ vCrit' ≠ u.vCrit) := by
      rw [hmoved, decide_eq_true_eq]
    have hvoltage : u.voltageAfter w = match u.voltageAverage with
        | some a => if vLow' ≠ u.vLow ∨ vCrit' ≠ u.vCrit then judgeVoltage u.voltageState vLow' vCrit' a
            else u.voltageState
        | none => u.voltageState := by
      unfold Supply.voltageAfter Supply.voltageJudged
      rcases Option.eq_none_or_eq_some u.voltageAverage with h | ⟨a, h⟩
      · simp only [hw, h, ite_self]
      · simp only [hw, h]
    have hcurrent : u.currentAfter w = match u.currentAverage with
        | some a => if budget ≠ u.budget then judgeCurrent u.currentLow budget a else u.currentLow
        | none => u.currentLow := by
      unfold Supply.currentAfter Supply.currentJudged
      rcases Option.eq_none_or_eq_some u.currentAverage with h | ⟨a, h⟩
      · simp only [hw, h, ite_self]
      · simp only [hw, h]
    have hspec := Part.judgedTwice_spec (u.voltageAfter w) (u.currentAfter w) moved { p with supply := w } (fun h => by
      rw [hmoved, decide_eq_false_iff_not] at h
      exact if_neg h)
    obtain ⟨hsupply, hlink, hbank, hstore, hann, hsame⟩ := hspec
    generalize hfound : Part.judgedTwice (u.voltageAfter w) (u.currentAfter w) moved { p with supply := w } = q at *
    rw [s.onPart_request _ _ _ (Part.takeSupplySet tag body) _ hcan htaken (by rw [Part.answer_bank, hbank]; exact hq)] at hexec
    refine ⟨_, hexec, rfl, rfl, ?_⟩
    intro u' moved' between told
    have hu' : u' = { w with
        voltageState := u.voltageAfter w, currentLow := u.currentAfter w
        shed := worse (u.voltageAfter w) (u.currentAfter w) } := hsupply
    have hv : u'.voltageState = u.voltageAfter w := congrArg Supply.voltageState hu'
    have hc : u'.currentLow = u.currentAfter w := congrArg Supply.currentLow hu'
    have hs : u'.shed = worse (u.voltageAfter w) (u.currentAfter w) := congrArg Supply.shed hu'
    have hbetween : between = if moved then worse (u.voltageAfter w) u.currentLow else u.shed := by
      simp only [between, moved', hmoved', hv]
    rw [← hs] at hlink hsame
    have hlink' : q.link = told between u'.shed (told u.shed between (s.part.takenLink .supplySet tag body)) := by
      rw [hbetween]
      exact hlink
    have hbyte : (if clamped then Status.clamped else Status.ok).byte = if clamped then 1 else 0 := by
      split <;> rfl
    refine ⟨?_, hv.trans hvoltage, hc.trans hcurrent, ?_, ?_, ?_, hright, hbank, hstore, hann⟩
    · rw [hv, hc, hs]
      exact hu'
    · rw [hv, hc, hs]
    · rw [← hlink', ← hbyte]
      have hfields : q.supply.settingFields = w.settingFields := by rw [hsupply]; rfl
      exact congrArg (fun x => (q.link.answer .supplySet tag (_ :: x)).pump) hfields
    · intro h1 h2
      have hq' := hsame (hbetween.symm.trans h1) h2
      rw [hs] at hq'
      rw [hu', hq']
      rfl
  case long =>
    have hexec : exec (.supplyPeakClear tag body) s =
        .next (s.onPart (Part.request .supplyPeakClear tag body (Part.takeSupplyPeakClear tag body))) := rfl
    have htaken : ∀ p : Part, p.takeSupplyPeakClear tag body =
        Part.answer .supplyPeakClear tag .badLength (eAbsent 2) p := by
      intro p
      have hread : readExact 0 body = none := if_neg fun h => hne (List.length_eq_zero_iff.1 h)
      simp only [Part.takeSupplyPeakClear, hread]
    rw [s.onPart_replied _ _ _ _ _ (Part.takeSupplyPeakClear tag body) s.part hcan (htaken _) hq] at hexec
    exact ⟨_, hexec⟩
  case clear =>
    have hexec : exec (.supplyPeakClear tag body) s =
        .next (s.onPart (Part.request .supplyPeakClear tag body (Part.takeSupplyPeakClear tag body))) := rfl
    have htaken : ∀ p : Part, p.takeSupplyPeakClear tag body =
        Part.answer .supplyPeakClear tag .ok (e16 p.supply.peak)
          { p with supply := { p.supply with peak := 0 } } := by
      intro p
      simp only [Part.takeSupplyPeakClear, readExact_eq (show body.length = 0 by rw [he]; rfl)]
    rw [s.onPart_replied _ _ _ _ _ (Part.takeSupplyPeakClear tag body)
      { s.part with supply := { u with peak := 0 } } hcan (htaken _) hq] at hexec
    exact hexec

end Sys2Proof.Machine
end

section
/-! The seat strings: how rounds begin and go on, what the end of the mode setting starts, and the missed answers. -/

namespace Sys2Proof.Machine

/-! ### Rounds and exchanges (R104, R105) -/

@[simp] theorem Part.string_setSeat (p : Part) (k : SeatId) (x : Seat) (i : StringId) :
    (p.setSeat k x).string i = p.string i := rfl

@[simp] theorem Part.seat_setString (p : Part) (i : StringId) (x : StringRec) (k : SeatId) :
    (p.setString i x).seat k = p.seat k := rfl

theorem Part.string_setString_ne (p : Part) {i j : StringId} (x : StringRec) (h : j ≠ i) :
    (p.setString i x).string j = p.string j := vget_vset_ne _ _ h

theorem seatAt_of {i : StringId} {n : Nat} {k : SeatId} (hn : n < 24) (hk : k.val = 24 * i.val + n) :
    seatAt i n = some k := by
  unfold seatAt
  rw [dif_pos hn]
  exact congrArg some (Fin.ext hk.symm)

theorem positionOf_of {i : StringId} {n : Nat} {k : SeatId} (hn : n < 24) (hk : k.val = 24 * i.val + n) :
    positionOf k = n := by
  unfold positionOf
  omega

/-- A step of a string's round: its record moves, and what the seats' polls carry. -/
structure Part.RoundStep (i : StringId) (p q : Part) : Prop where
  rest : q = { p with strings := q.strings, seats := q.seats }
  others : ∀ j, j ≠ i → q.string j = p.string j
  seats : ∀ k, q.seat k = { p.seat k with carried := (q.seat k).carried }

theorem Part.RoundStep.refl (i : StringId) (p : Part) : p.RoundStep i p := ⟨rfl, fun _ _ => rfl, fun _ => rfl⟩

theorem Part.RoundStep.trans {i : StringId} {p q r : Part} (h : p.RoundStep i q) (k : q.RoundStep i r) :
    p.RoundStep i r where
  rest := by rw [k.rest, h.rest]
  others j hj := (k.others j hj).trans (h.others j hj)
  seats x := by rw [k.seats, h.seats]

theorem Part.roundStep_setString (i : StringId) (x : StringRec) (p : Part) : p.RoundStep i (p.setString i x) :=
  ⟨rfl, fun _ h => p.string_setString_ne x h, fun _ => rfl⟩

theorem Part.roundStep_carried (i : StringId) (k : SeatId) (c : Option (Bool × GainCode)) (p : Part) :
    p.RoundStep i (p.setSeat k { p.seat k with carried := c }) := by
  refine ⟨rfl, fun _ _ => rfl, fun j => ?_⟩
  by_cases hj : j = k
  · subst hj
    rw [Part.seat_setSeat]
  · rw [Part.seat_setSeat_ne _ _ hj]

/-- R105: the poll of the round position is built from its seat and sent. -/
theorem Part.beginExchange_polls (p : Part) (i : StringId) (n : Nat) (k : SeatId)
    (hpos : (p.string i).roundPosition = some n) (hn : n < 24) (hk : k.val = 24 * i.val + n)
    (hrel : (p.string i).releasing = []) :
    p.beginExchange i = (p.setString i { p.string i with
        exchange := true, lastPoll := some ((p.seat k).poll n p.supply.shed) }).setSeat k
      { p.seat k with carried := some (((p.seat k).poll n p.supply.shed).power,
        ((p.seat k).poll n p.supply.shed).gain) } := by
  simp only [Part.beginExchange, hpos, Option.bind_some, seatAt_of hn hk, hrel, if_true, positionOf_of hn hk]

/-- R111: while release polls go out the exchange waits. -/
theorem Part.beginExchange_waits (p : Part) (i : StringId) (h : (p.string i).releasing ≠ []) :
    p.beginExchange i = p := by
  unfold Part.beginExchange
  dsimp only
  split
  · rfl
  · exact if_neg h

theorem Part.beginExchange_spec (p : Part) (i : StringId) : p.RoundStep i (p.beginExchange i) ∧
    ∃ b q, (p.beginExchange i).string i = { p.string i with exchange := b, lastPoll := q } ∧
      (∀ n, (p.string i).roundPosition = some n → n < 24 → (p.string i).exchange = false →
        (b = true ↔ (p.string i).releasing = [])) := by
  by_cases hrel : (p.string i).releasing = []
  · rcases Option.eq_none_or_eq_some (p.string i).roundPosition with hpos | ⟨n, hpos⟩
    · have hsame : p.beginExchange i = p := by simp only [Part.beginExchange, hpos, Option.bind_none]
      rw [hsame]
      exact ⟨.refl i p, _, _, rfl, fun n hn => absurd (hpos.symm.trans hn) (by simp)⟩
    · by_cases hn : n < 24
      · have hlt : 24 * i.val + n < 96 := by omega
        rw [p.beginExchange_polls i n ⟨24 * i.val + n, hlt⟩ hpos hn rfl hrel]
        refine ⟨(p.roundStep_setString i _).trans (Part.roundStep_carried i _ _ _), true, _,
          Part.string_setString p i _, fun _ _ _ _ => ⟨fun _ => hrel, fun _ => rfl⟩⟩
      · have hsame : p.beginExchange i = p := by
          simp only [Part.beginExchange, hpos, Option.bind_some, seatAt, dif_neg hn]
        rw [hsame]
        exact ⟨.refl i p, _, _, rfl, fun m hm hlt => absurd (Option.some.inj (hpos.symm.trans hm)) (by omega)⟩
  · rw [p.beginExchange_waits i hrel]
    exact ⟨.refl i p, _, _, rfl, fun _ _ _ hex => ⟨fun h => absurd (hex.symm.trans h) (by decide),
      fun h => absurd h hrel⟩⟩

/-- R104: what the beginning of a round makes of its string. -/
theorem Part.beginRound_spec (p : Part) (i : StringId) : p.RoundStep i (p.beginRound i) ∧
    ∃ b q, (p.beginRound i).string i = { p.string i with
        roundStart := p.time, roundPosition := if (p.string i).population = 0 then none else some 0
        exchange := b, lastPoll := q } ∧
      ((p.string i).population = 0 → b = (p.string i).exchange) ∧
      ((p.string i).population ≠ 0 → (p.string i).releasing = [] → b = true) ∧
      ((p.string i).exchange = false → (p.string i).releasing ≠ [] → b = false) := by
  unfold Part.beginRound
  by_cases h : (p.string i).population = 0
  · simp only [h, if_true]
    refine ⟨p.roundStep_setString i _, _, _, Part.string_setString _ _ _, fun _ => rfl,
      fun hne => absurd rfl hne, fun he _ => he⟩
  · simp only [h, if_false]
    generalize hx : ({ p.string i with roundStart := p.time, roundPosition := some 0 } : StringRec) = x
    have hstring : (p.setString i x).string i = x := Part.string_setString _ _ _
    obtain ⟨hstep, b, q, hb, hex⟩ := (p.setString i x).beginExchange_spec i
    refine ⟨(p.roundStep_setString i x).trans hstep, b, q, ?_, fun h0 => absurd h0 (by simp), fun _ hrel => ?_, fun he hrel => ?_⟩
    · rw [hb, hstring, ← hx]
    · have hk : ∃ k : SeatId, k.val = 24 * i.val + 0 := ⟨⟨24 * i.val, by omega⟩, rfl⟩
      obtain ⟨k, hk⟩ := hk
      have hpolls := (p.setString i x).beginExchange_polls i 0 k (by rw [hstring, ← hx]) (by decide) hk
        (by rw [hstring, ← hx]; exact hrel)
      have hb' := congrArg StringRec.exchange hb
      rw [hpolls, Part.string_setSeat, Part.string_setString] at hb'
      exact hb'.symm
    · rw [(p.setString i x).beginExchange_waits i (by rw [hstring, ← hx]; exact hrel), hstring] at hb
      have hb' := congrArg StringRec.exchange hb
      rw [← hx] at hb'
      exact hb'.symm.trans he

/-- The rounds of the strings named begin, each once. -/
theorem Part.beginRounds_spec (is : List StringId) (p : Part) (hnd : is.Nodup) :
    let q := is.foldl (fun (q : Part) i => q.beginRound i) p
    q = { p with strings := q.strings, seats := q.seats } ∧
      (∀ j, j ∉ is → q.string j = p.string j) ∧
      (∀ k, q.seat k = { p.seat k with carried := (q.seat k).carried }) ∧
      ∀ j ∈ is, ∃ b l, q.string j = { p.string j with
          roundStart := p.time, roundPosition := if (p.string j).population = 0 then none else some 0
          exchange := b, lastPoll := l } ∧
        ((p.string j).population ≠ 0 → (p.string j).releasing = [] → b = true) := by
  induction is generalizing p with
  | nil => exact ⟨rfl, fun _ _ => rfl, fun _ => rfl, fun j hj => absurd hj (by simp)⟩
  | cons i is ih =>
    obtain ⟨hi, hnd⟩ := List.nodup_cons.1 hnd
    obtain ⟨hstep, b, l, hb, -, hex, -⟩ := p.beginRound_spec i
    obtain ⟨hrest, hout, hseats, hin⟩ := ih (p.beginRound i) hnd
    rw [List.foldl_cons]
    have htime : (p.beginRound i).time = p.time := by rw [hstep.rest]
    refine ⟨hrest.trans ?_, fun j hj => ?_, fun k => ?_, fun j hj => ?_⟩
    · rw [hstep.rest]
    · obtain ⟨hji, hjs⟩ := not_or.1 (fun h => hj (List.mem_cons.2 h))
      exact (hout j hjs).trans (hstep.others j hji)
    · rw [hseats, hstep.seats]
    · rcases List.mem_cons.1 hj with rfl | hjs
      · rw [hout j hi]
        exact ⟨b, l, hb, hex⟩
      · have hji : j ≠ i := fun e => hi (e ▸ hjs)
        have hj' := hin j hjs
        rw [hstep.others j hji, htime] at hj'
        exact hj'

/-! ### The end of the mode setting (R3, R9, R102, R149, R165, R177) -/

theorem Light.comeUp_fades (l : Light) (now : PartTime) (z : ZoneId) : vget (l.comeUp now).zones z =
    (vget l.zones z).fadedTo now (vget l.scenes l.active).fade (l.effective z) := by
  simp only [Light.comeUp, vget_vmap, Zone.startFade_eq]
  rfl

/-- Settles O12. -/
theorem modeSettingEndsInRunning : Obligations.ModeSettingEndsInRunning := by
  intro s hq hinit hstage
  have hexec : exec .modeSettingDone s = .next (s.onPart Part.modeSettingDone) := rfl
  set p : Part := { s.part with
    mem := { s.part.mem with state := .ready, stage := .none, owed := 0, ring := 15 }
    link := s.part.link.noted (.storeMemory .initialising .ready) s.part.time
    strings := vmap (fun _ x => { x with scanning := true }) s.part.strings } with hp
  have hstring : ∀ i, p.string i = { s.part.string i with scanning := true } := fun i => vget_vmap _ _ _
  have hdone : s.part.modeSettingDone = p.startRunning := by
    unfold Part.modeSettingDone
    simp only [hinit, hstage]
    unfold Part.enterRunning
    dsimp only
    rw [Part.raise_only_link]
  obtain ⟨hrest, -, hseats, hrounds⟩ := Part.beginRounds_spec (List.finRange 4) p (List.nodup_finRange 4)
  have hstart : p.startRunning = { p.beginRounds with
      supply := p.beginRounds.supply.start p.beginRounds.time
      light := p.beginRounds.light.comeUp p.beginRounds.time } := rfl
  have hbegun : p.beginRounds = (List.finRange 4).foldl (fun (q : Part) i => q.beginRound i) p := rfl
  rw [← hbegun] at hrest hseats hrounds
  generalize p.beginRounds = q at *
  rw [hrest] at hstart
  rw [s.onPart_eq _ _ (hdone.trans hstart) hq] at hexec
  refine ⟨_, hexec, rfl, rfl, rfl, ?_, rfl, fun i => ?_, ?_, fun z => ?_, rfl, hseats, rfl, rfl, rfl, rfl, rfl, rfl⟩
  · rfl
  · obtain ⟨b, l, hb, hex⟩ := hrounds i (List.mem_finRange i)
    rw [hstring] at hb hex
    refine ⟨congrArg StringRec.scanning hb, congrArg StringRec.roundStart hb, congrArg StringRec.roundPosition hb,
      fun h1 h2 => (congrArg StringRec.exchange hb).trans (hex h1 h2)⟩
  · refine congrArg (fun v => ({ s.part.supply with
      running := true, intervalStart := s.part.time, intervalLength := s.part.supply.scan
      zoneIndex := 0, conversions := v } : Supply)) ?_
    exact vector_ext fun z => by rw [vget_vmap, vget_ofFn]
  · exact s.part.light.comeUp_fades s.part.time z

/-! ### The polls of the rounds (R104, R105, R111) -/

@[simp] theorem Part.reach_string (p : Part) (d : PartTime) (i : StringId) : (p.reach d).string i = p.string i := by
  rw [p.reach_eq]
  rfl

theorem Seat.powerCommand_eq (z : Seat) (shed : Shed) : z.powerCommand shed = (decide (z.node = .online) &&
    ((decide (z.socket.state = .unpowered) && decide (shed ≠ .critical)) ||
      decide (z.socket.state = .settling) || decide (z.socket.state = .empty) ||
      decide (z.socket.state = .attached))) := by
  unfold Seat.powerCommand
  cases z.node <;> cases z.socket.state <;> simp

theorem Seat.ledMode_match (z : Seat) : z.ledMode = if z.node = .online then
    (match z.socket.state with
      | .attached => if z.volume = 0 then Led.off else .steady
      | .faulted => .slow
      | .lockedOut => .fast
      | _ => .off)
    else .off := by
  unfold Seat.ledMode
  cases z.node <;> cases z.socket.state <;> rfl

theorem Part.continueRound_polls (p : Part) (i : StringId) (n : Nat) (hpos : (p.string i).roundPosition = some n)
    (h : n < (p.string i).population) : p.continueRound i = p.beginExchange i := by
  simp only [Part.continueRound, hpos, h, if_true]

/-- Settles O41. -/
theorem roundsBuildTheirPolls : Obligations.RoundsBuildTheirPolls := by
  refine ⟨fun s i k hq hactive hk => ?_, fun s i hq hrel => ?_⟩
  · intro x z q hscan hpos hrel
    have hexec : exec (.roundStart i) s = .next (s.onPart (Part.roundStarts i)) := rfl
    have hstarts : s.part.roundStarts i = q.beginRound i := if_pos ⟨hscan, hpos, hactive⟩
    have hstring : q.string i = x := Part.reach_string _ _ _
    have hseat : q.seat k = z := Part.reach_seat _ _ _
    refine ⟨fun hpop => ?_, fun hpop => ?_⟩
    · have hbegin : q.beginRound i = q.setString i { x with roundStart := q.time } := by
        unfold Part.beginRound
        rw [hstring]
        refine (if_pos hpop).trans ?_
        rw [← hpos]
      rw [s.onPart_eq _ _ (hstarts.trans hbegin) (by simpa [q] using hq)] at hexec
      rw [hexec]
      simp only [Part.served, Part.setString_link, q, Part.reach_link]
    · intro power gain led
      have hpoll : z.poll 0 s.part.supply.shed = ⟨0, power, led, z.language, gain⟩ := by
        simp only [Seat.poll, z.powerCommand_eq, z.ledMode_match] <;> rfl
      have hbegin : q.beginRound i = (q.setString i { x with
          roundStart := q.time, roundPosition := some 0, exchange := true
          lastPoll := some ⟨0, power, led, z.language, gain⟩ }).setSeat k { z with carried := some (power, gain) } := by
        unfold Part.beginRound
        rw [hstring]
        refine (if_neg hpop).trans ?_
        have hpolls := Part.beginExchange_polls
          (q.setString i { x with roundStart := q.time, roundPosition := some 0 }) i 0 k
          (by rw [Part.string_setString]) (by decide) hk (by rw [Part.string_setString]; exact hrel)
        rw [hpolls, Part.string_setString, Part.setString_setString, Part.seat_setString, hseat, Part.setString_supply,
          show q.supply = s.part.supply from Part.reach_supply _ _, hpoll]
      rw [s.onPart_eq _ _ (hstarts.trans hbegin) (by simpa [q] using hq)] at hexec
      rw [hexec]
      simp only [Part.served, Part.setString_link, Part.setSeat_link, q, Part.reach_link]
  · intro x
    have hexec : exec (.releasePollsSent i) s = .next (s.onPart (Part.releasePollsSent i)) := rfl
    refine ⟨fun hidle => ?_, fun n k hex hpos hn h24 hk => ?_⟩
    · have hsent : s.part.releasePollsSent i = s.part.setString i { x with releasing := [] } := by
        unfold Part.releasePollsSent
        refine (if_neg hrel).trans ?_
        by_cases hex : x.exchange = true
        · exact if_pos hex
        · refine (if_neg hex).trans ?_
          have hpos : x.roundPosition = none := hidle.resolve_left hex
          simp only [Part.continueRound, Part.string_setString]
          rw [show (s.part.string i).roundPosition = none from hpos]
      rw [s.onPart_eq _ _ hsent hq] at hexec
      exact hexec
    · have hsent : s.part.releasePollsSent i =
          Part.continueRound i (s.part.setString i { x with releasing := [] }) := by
        unfold Part.releasePollsSent
        refine (if_neg hrel).trans ?_
        exact if_neg (by rw [show (s.part.string i).exchange = false from hex]; decide)
      generalize hy : ({ x with releasing := [] } : StringRec) = y at hsent
      have hstring : (s.part.setString i y).string i = y := Part.string_setString _ _ _
      have hpolls := (s.part.setString i y).beginExchange_polls i n k (by rw [hstring, ← hy]; exact hpos) h24 hk
        (by rw [hstring, ← hy])
      rw [hstring] at hpolls
      rw [(s.part.setString i y).continueRound_polls i n (by rw [hstring, ← hy]; exact hpos)
        (by rw [hstring, ← hy]; exact hn), hpolls] at hsent
      rw [s.onPart_eq _ _ hsent hq] at hexec
      refine ⟨_, hexec, rfl, rfl, ?_⟩
      have hstr : ∀ v : StringRec, ((s.part.setString i y).setString i v).string i = v :=
        fun v => Part.string_setString _ _ _
      refine ⟨(congrArg _ (hstr _)).trans (by rw [← hy]), congrArg StringRec.exchange (hstr _),
        (congrArg _ (hstr _)).trans (by rw [← hy]; exact hpos), congrArg StringRec.lastPoll (hstr _),
        fun j hj => ?_, fun j hj => Part.seat_setSeat_ne _ _ hj, rfl⟩
      exact (Part.string_setString_ne _ _ hj).trans (Part.string_setString_ne _ _ hj)

end Sys2Proof.Machine
end

section
/-! The seats: what an exchange's answer or miss, a population and a press make of a seat, and what they leave. -/

namespace Sys2Proof.Machine

/-! ### What happens to one seat -/

/-- What happens to one seat: its record, the streams and readers that its listener reaches, and notices. -/
structure Part.SeatEvent (k : SeatId) (p q : Part) : Prop where
  time : q.time = p.time
  ann : q.ann = p.ann
  strings : q.strings = p.strings
  level : q.level = p.level
  supply : q.supply = p.supply
  light : q.light = p.light
  others : ∀ j, j ≠ k → q.seat j = p.seat j
  langs : ∀ l, (p.language l).Configured (q.language l)
  link : p.link.Noted q.link

theorem Part.SeatEvent.refl (k : SeatId) (p : Part) : p.SeatEvent k p :=
  ⟨rfl, rfl, rfl, rfl, rfl, rfl, fun _ _ => rfl, fun _ => .refl _, .refl _⟩

theorem Part.SeatEvent.trans {k : SeatId} {p q r : Part} (h : p.SeatEvent k q) (g : q.SeatEvent k r) :
    p.SeatEvent k r where
  time := g.time.trans h.time
  ann := g.ann.trans h.ann
  strings := g.strings.trans h.strings
  level := g.level.trans h.level
  supply := g.supply.trans h.supply
  light := g.light.trans h.light
  others j hj := (g.others j hj).trans (h.others j hj)
  langs l := (h.langs l).trans (g.langs l)
  link := h.link.trans g.link

theorem Part.StreamsOnly.seatEvent {p q : Part} (h : p.StreamsOnly q) (k : SeatId) : p.SeatEvent k q where
  time := h.time
  ann := h.ann
  strings := h.strings
  level := h.level
  supply := h.supply
  light := h.light
  others j _ := by unfold Part.seat; rw [h.seats]
  langs := h.langs
  link := h.link

theorem Part.seatEvent_setSeat (k : SeatId) (x : Seat) (p : Part) : p.SeatEvent k (p.setSeat k x) :=
  ⟨rfl, rfl, rfl, rfl, rfl, rfl, fun _ h => p.seat_setSeat_ne x h, fun _ => .refl _, .refl _⟩

theorem Part.seatEvent_setSocket (k : SeatId) (x : Socket) (p : Part) : p.SeatEvent k (p.setSocket k x) :=
  p.seatEvent_setSeat k _

theorem Part.seatEvent_recomputeSeat (k : SeatId) (p : Part) : p.SeatEvent k (p.recomputeSeat k) :=
  p.seatEvent_setSeat k _

theorem Part.seatEvent_raise (k : SeatId) (n : Notice) (p : Part) : p.SeatEvent k (p.raise n) :=
  (p.readersOnly_raise n).streams.seatEvent k

theorem Part.seatEvent_nodeDown (k : SeatId) (p : Part) : p.SeatEvent k (p.nodeDown k) := by
  unfold Part.nodeDown
  extract_lets s x q r
  split
  · exact .refl k p
  · have hr : p.SeatEvent k r := by
      refine .trans (q := q) (p.seatEvent_setSocket k _) ?_
      unfold r
      split
      · exact ((q.streamsOnly_leave _).seatEvent k).trans (Part.seatEvent_recomputeSeat k _)
      · exact .refl k q
    split
    · exact hr
    · exact hr.trans (r.seatEvent_raise k _)

theorem Part.seatEvent_configure (k : SeatId) (p : Part) : p.SeatEvent k (p.configure k) :=
  (p.seatEvent_setSeat k _).trans (Part.seatEvent_raise k _ _)

theorem Part.seatEvent_unconfigure (k : SeatId) (p : Part) : p.SeatEvent k (p.unconfigure k) :=
  ((p.seatEvent_setSeat k _).trans (Part.seatEvent_raise k _ _)).trans (Part.seatEvent_nodeDown k _)

theorem Part.seatEvent_takeMiss (k : SeatId) (p : Part) : p.SeatEvent k (p.takeMiss k) := by
  unfold Part.takeMiss
  extract_lets s
  split
  · split
    · exact ((p.seatEvent_setSeat k _).trans (Part.seatEvent_raise k _ _)).trans (Part.seatEvent_nodeDown k _)
    · exact p.seatEvent_setSeat k _
  all_goals exact .refl k p

theorem Part.seatEvent_acknowledgePower (k : SeatId) (b : Bool) (p : Part) :
    p.SeatEvent k (p.acknowledgePower k b) := by
  unfold Part.acknowledgePower
  extract_lets x x' q
  have hq : p.SeatEvent k q := p.seatEvent_setSocket k _
  split
  · split
    · exact hq
    · exact hq.trans (q.seatEvent_raise k _)
  · exact p.seatEvent_setSocket k _

theorem Part.seatEvent_acknowledge (k : SeatId) (p : Part) : p.SeatEvent k (p.acknowledge k) := by
  unfold Part.acknowledge
  split
  · exact .refl k p
  · exact (p.seatEvent_setSeat k _).trans (Part.seatEvent_acknowledgePower k _ _)

theorem Part.seatEvent_changeLanguage (k : SeatId) (l : Lang) (p : Part) : p.SeatEvent k (p.changeLanguage k l) := by
  unfold Part.changeLanguage
  extract_lets s q r
  have hq : p.SeatEvent k q := p.seatEvent_setSeat k _
  have hr : q.SeatEvent k r := by
    unfold r
    split
    · exact (q.streamsOnly_move _ _).seatEvent k
    · exact .refl k q
  split
  · exact .refl k p
  · exact ((hq.trans hr).trans (r.seatEvent_recomputeSeat k)).trans (Part.seatEvent_raise k _ _)

theorem Part.seatEvent_changeVolume (k : SeatId) (v : Nat) (p : Part) : p.SeatEvent k (p.changeVolume k v) := by
  unfold Part.changeVolume
  extract_lets s
  split
  · exact .refl k p
  · exact ((p.seatEvent_setSeat k _).trans (Part.seatEvent_recomputeSeat k _)).trans (Part.seatEvent_raise k _ _)

theorem Part.seatEvent_takePresses (k : SeatId) (c : Counters) (p : Part) : p.SeatEvent k (p.takePresses k c) := by
  unfold Part.takePresses
  extract_lets s q
  have hq : p.SeatEvent k q := p.seatEvent_setSeat k _
  split
  · exact hq
  · exact (hq.trans (q.seatEvent_changeLanguage k _)).trans (Part.seatEvent_changeVolume k _ _)

theorem Part.seatEvent_socketFault (k : SeatId) (r : FaultReason) (x a : Nat) (p : Part) :
    p.SeatEvent k (p.socketFault k r x a) := by
  unfold Part.socketFault
  extract_lets s q history locked t
  have hq : p.SeatEvent k q := by
    unfold q
    split
    · exact ((p.streamsOnly_leave _).seatEvent k).trans (Part.seatEvent_setSeat k _ _)
    · exact .refl k p
  exact (hq.trans (q.seatEvent_setSocket k _)).trans (Part.seatEvent_raise k _ _)

theorem Part.seatEvent_decideSocket (k : SeatId) (x : Indication) (n : Nat) (p : Part) :
    p.SeatEvent k (p.decideSocket k x n) := by
  unfold Part.decideSocket
  extract_lets s y q q' r
  split
  · exact p.seatEvent_socketFault k _ _ _
  · split
    · exact .refl k p
    · exact (((p.seatEvent_setSocket k _).trans ((Part.streamsOnly_join _ _).seatEvent k)).trans
        (Part.seatEvent_recomputeSeat k _)).trans (Part.seatEvent_raise k _ _)
  · split
    · exact .refl k p
    · refine .trans (q := r) ?_ (Part.seatEvent_raise k _ _)
      unfold r
      split
      · exact ((p.seatEvent_setSocket k _).trans ((Part.streamsOnly_leave _ _).seatEvent k)).trans
          (Part.seatEvent_recomputeSeat k _)
      · exact p.seatEvent_setSocket k _

theorem Part.seatEvent_takeSample (k : SeatId) (n : Nat) (p : Part) : p.SeatEvent k (p.takeSample k n) := by
  unfold Part.takeSample
  extract_lets x y z run q
  split
  · split
    · exact (p.seatEvent_setSocket k _).trans (Part.seatEvent_socketFault k _ _ _ _)
    · split
      · split
        · exact (p.seatEvent_setSocket k _).trans (Part.seatEvent_decideSocket k _ _ _)
        · exact p.seatEvent_setSocket k _
      · exact p.seatEvent_setSocket k _
  · exact p.seatEvent_setSocket k _

theorem Part.seatEvent_takeAnswer (k : SeatId) (a : Answer) (p : Part) : p.SeatEvent k (p.takeAnswer k a) := by
  unfold Part.takeAnswer
  extract_lets s q
  split
  · have hq : p.SeatEvent k q := (p.seatEvent_setSeat k _).trans (Part.seatEvent_acknowledge k _)
    exact (hq.trans (q.seatEvent_takePresses k _)).trans (Part.seatEvent_takeSample k _ _)
  · exact (((p.seatEvent_setSeat k _).trans (Part.seatEvent_raise k _ _)).trans
      (Part.seatEvent_acknowledge k _)).trans (Part.seatEvent_takeSample k _ _)
  · exact (((p.seatEvent_setSeat k _).trans (Part.seatEvent_raise k _ _)).trans
      (Part.seatEvent_acknowledge k _)).trans (Part.seatEvent_takeSample k _ _)
  · exact .refl k p

/-! ### The seat itself -/

theorem Part.seat_raise (p : Part) (n : Notice) (k : SeatId) : (p.raise n).seat k = p.seat k := by
  rw [Part.raise_only_link]
  rfl

theorem Part.StreamsOnly.seat {p q : Part} (h : p.StreamsOnly q) (k : SeatId) : q.seat k = p.seat k := by
  unfold Part.seat
  rw [h.seats]

theorem Part.recomputeSeat_seat (k : SeatId) (p : Part) : (p.recomputeSeat k).seat k =
    { p.seat k with pending := ((p.recomputeSeat k).seat k).pending } := by
  unfold Part.recomputeSeat
  rw [Part.seat_setSeat]
  rfl

/-- R129: the socket of a node that is down. -/
def Socket.down (x : Socket) : Socket :=
  if x.state = .lockedOut then x
  else { x with state := .unpowered, settleEnd := none, coolEnd := none, run := none, classifying := false }

theorem Part.nodeDown_seat (k : SeatId) (p : Part) : (p.nodeDown k).seat k =
    { p.seat k with
      pending := ((p.nodeDown k).seat k).pending
      socket := (p.seat k).socket.down } := by
  unfold Part.nodeDown Socket.down
  extract_lets s x q r
  by_cases h : x.state = .lockedOut
  · simp only [if_pos h]
    rw [if_pos h]
  · have hq : q.seat k = { p.seat k with socket := { x with
        state := .unpowered, settleEnd := none, coolEnd := none, run := none, classifying := false } } :=
      Part.seat_setSeat _ _ _
    have hr : r.seat k = { q.seat k with pending := (r.seat k).pending } := by
      unfold r
      split
      · rw [Part.recomputeSeat_seat, (q.streamsOnly_leave _).seat]
      · rfl
    have hlast : (if x.state = .unpowered then r else r.seatNotice k).seat k = r.seat k := by
      split
      · rfl
      · exact r.seat_raise _ k
    simp only [if_neg h]
    rw [hlast, if_neg h, hr, hq]

/-! ### Misses (R108) -/

theorem Part.takeMiss_offline (k : SeatId) (p : Part) (h : (p.seat k).node ≠ .online) : p.takeMiss k = p := by
  unfold Part.takeMiss
  dsimp only
  split
  · rename_i hon
    exact absurd hon h
  all_goals rfl

theorem Part.takeMiss_few (k : SeatId) (p : Part) (hon : (p.seat k).node = .online)
    (h : (p.seat k).missCount < 2) :
    (p.takeMiss k).seat k = { p.seat k with missCount := (p.seat k).missCount + 1 } := by
  have hfew : ¬2 ≤ (p.seat k).missCount := by omega
  simp only [Part.takeMiss, hon, hfew, if_false, Part.seat_setSeat]

/-- R108, R129: the third miss in succession loses the node. -/
theorem Part.takeMiss_lost (k : SeatId) (p : Part) (hon : (p.seat k).node = .online)
    (h : 2 ≤ (p.seat k).missCount) :
    (p.takeMiss k).seat k = { p.seat k with
      node := .lost, missCount := 3, pending := ((p.takeMiss k).seat k).pending
      socket := (p.seat k).socket.down } := by
  have hlost : p.takeMiss k = Part.nodeDown k
      (Part.nodeNotice k (p.setSeat k { p.seat k with node := .lost, missCount := 3 })) := by
    simp only [Part.takeMiss, hon, h, if_true]
  have hseat : (Part.nodeNotice k (p.setSeat k { p.seat k with node := .lost, missCount := 3 })).seat k =
      { p.seat k with node := .lost, missCount := 3 } := (Part.seat_raise _ _ _).trans (Part.seat_setSeat _ _ _)
  rw [hlost]
  generalize Part.nodeNotice k _ = q at hseat
  rw [Part.nodeDown_seat, hseat]

theorem Part.takeMiss_kept (k : SeatId) (p : Part) :
    ((p.takeMiss k).seat k).baselines = (p.seat k).baselines ∧
      ((p.takeMiss k).seat k).volume = (p.seat k).volume ∧
      ((p.takeMiss k).seat k).language = (p.seat k).language := by
  by_cases hon : (p.seat k).node = .online
  · by_cases h : 2 ≤ (p.seat k).missCount
    · rw [p.takeMiss_lost k hon h]
      exact ⟨rfl, rfl, rfl⟩
    · rw [p.takeMiss_few k hon (by omega)]
      exact ⟨rfl, rfl, rfl⟩
  · rw [p.takeMiss_offline k hon]
    exact ⟨rfl, rfl, rfl⟩

/-! ### The end of an exchange (R104) -/

theorem Part.applyPending_none (p : Part) (i : StringId) (h : (p.string i).pendingPopulation = none) :
    p.applyPending i = p := by
  simp only [Part.applyPending, h]

theorem Part.continueRound_roundStep (p : Part) (i : StringId) : p.RoundStep i (p.continueRound i) := by
  unfold Part.continueRound
  extract_lets x q
  split
  · exact .refl i p
  · split
    · exact (p.beginExchange_spec i).1
    · split
      · exact (p.roundStep_setString i _).trans (Part.beginRound_spec _ i).1
      · exact p.roundStep_setString i _

/-- The exchange is over: its seat carries nothing, and the string is between exchanges. -/
def Part.exchangeOver (i : StringId) (p : Part) : Part :=
  let x := p.string i
  let q := match x.roundPosition.bind (seatAt i) with
    | none => p
    | some k => p.setSeat k { p.seat k with carried := none }
  q.setString i { x with exchange := false }

theorem Part.exchangeOver_spec (i : StringId) (p : Part) : p.RoundStep i (p.exchangeOver i) ∧
    (p.exchangeOver i).string i = { p.string i with exchange := false } := by
  unfold Part.exchangeOver
  extract_lets x q
  have hq : p.RoundStep i q := by
    unfold q
    split
    · exact .refl i p
    · exact p.roundStep_carried i _ none
  exact ⟨hq.trans (q.roundStep_setString i _), Part.string_setString _ _ _⟩

theorem Part.endExchange_eq (i : StringId) (p : Part) : p.endExchange i =
    Part.continueRound i (((p.exchangeOver i).applyPending i).setString i
      { ((p.exchangeOver i).applyPending i).string i with
        roundPosition := (((p.exchangeOver i).applyPending i).string i).roundPosition.map (· + 1) }) := rfl

/-- R104: an exchange that ends with no population pending is a step of its string's round. -/
theorem Part.endExchange_roundStep (i : StringId) (p : Part) (h : (p.string i).pendingPopulation = none) :
    p.RoundStep i (p.endExchange i) := by
  obtain ⟨hover, hstring⟩ := p.exchangeOver_spec i
  rw [Part.endExchange_eq, Part.applyPending_none _ _ (by rw [hstring]; exact h)]
  exact (hover.trans (Part.roundStep_setString i _ _)).trans (Part.continueRound_roundStep _ i)

/-- The seat with which a string has its exchange. -/
theorem Part.exchangeSeat_of {p : Part} {i : StringId} {n : Nat} {k : SeatId}
    (hex : (p.string i).exchange = true) (hpos : (p.string i).roundPosition = some n) (hn : n < 24)
    (hk : k.val = 24 * i.val + n) : p.exchangeSeat i = some k := by
  simp only [Part.exchangeSeat, hex, if_true, hpos, Option.bind_some, seatAt_of hn hk]

theorem State.onPart_finish (s : State) (f : Part → Part) :
    ∃ q, (f s.part).AnnouncesOnly q ∧ q.bank.reports = [] ∧ s.onPart f = { s with part := q.served } := by
  obtain ⟨q, hq, hr, hfin⟩ := (f s.part).finish_announces
  exact ⟨q, hq, hr, congrArg (fun x => ({ s with part := x } : State)) hfin⟩

/-- Settles O43. -/
theorem missedAnswersLoseTheNode : Obligations.MissedAnswersLoseTheNode := by
  intro s i k n hq hex hpos hk hn
  have hseat := Part.exchangeSeat_of hex hpos hn hk
  refine ⟨fun _ => rfl, fun bytes hbad => ?_, fun hpend => ?_⟩
  · have hexec : exec (.nodeAnswer i bytes) s = .next (s.onPart (Part.nodeAnswers i bytes)) := rfl
    have hsame : s.part.nodeAnswers i bytes = s.part := by
      simp only [Part.nodeAnswers, hseat, positionOf_of hn hk, hbad]
    rw [s.onPart_eq _ _ hsame hq] at hexec
    exact hexec
  · have hexec : exec (.answerTimeout i) s = .next (s.onPart (Part.answerTimesOut i)) := rfl
    obtain ⟨q, hfin, -, ht⟩ := s.onPart_finish (Part.answerTimesOut i)
    rw [ht] at hexec
    have hout : s.part.answerTimesOut i = (s.part.takeMiss k).endExchange i := by
      simp only [Part.answerTimesOut, hseat]
    rw [hout] at hfin
    have hmiss := s.part.seatEvent_takeMiss k
    have hstring : (s.part.takeMiss k).string i = s.part.string i := by
      unfold Part.string
      rw [hmiss.strings]
    have hstep := (s.part.takeMiss k).endExchange_roundStep i (by rw [hstring]; exact hpend)
    have hseats : ∀ j, q.seat j = { (s.part.takeMiss k).seat j with
        carried := (q.seat j).carried, pending := (q.seat j).pending } := fun j => by
      rw [hfin.seats j, hstep.seats j]
    have hothers : ∀ j, j ≠ k → (s.part.takeMiss k).seat j = s.part.seat j := hmiss.others
    have hstrings : ∀ j, q.string j = ((s.part.takeMiss k).endExchange i).string j := fun j => by
      unfold Part.string
      rw [hfin.strings]
    have htime : q.time = s.part.time := by
      rw [hfin.time, hstep.rest, hmiss.time]
    have hmine := hseats k
    refine ⟨_, hexec, rfl, rfl, ?_⟩
    intro z
    refine ⟨fun hon hfew => ?_, fun hon hmany => ?_, fun hoff => ?_, ?_, ?_, ?_, fun j hj => ?_, fun j hj => ?_, htime⟩
    · have hx := s.part.takeMiss_few k hon hfew
      rw [hx] at hmine
      exact ⟨(congrArg Seat.node hmine).trans hon, congrArg Seat.missCount hmine,
        (congrArg Seat.socket hmine).trans rfl⟩
    · have hx := s.part.takeMiss_lost k hon hmany
      rw [hx] at hmine
      refine ⟨congrArg Seat.node hmine, fun hs => ?_, fun hs => (congrArg Seat.socket hmine).trans (if_pos hs)⟩
      exact (congrArg (fun x : Seat => x.socket.state) hmine).trans (congrArg Socket.state (if_neg hs))
    · rw [s.part.takeMiss_offline k hoff] at hmine
      exact ⟨(congrArg Seat.node hmine).trans rfl, (congrArg Seat.missCount hmine).trans rfl,
        (congrArg Seat.socket hmine).trans rfl⟩
    · exact (congrArg Seat.baselines hmine).trans (s.part.takeMiss_kept k).1
    · exact (congrArg Seat.volume hmine).trans (s.part.takeMiss_kept k).2.1
    · exact (congrArg Seat.language hmine).trans (s.part.takeMiss_kept k).2.2
    · have hj' := hseats j
      rw [hothers j hj] at hj'
      exact ⟨(congrArg Seat.node hj').trans rfl, (congrArg Seat.socket hj').trans rfl⟩
    · refine (hstrings j).trans ((hstep.others j hj).trans ?_)
      unfold Part.string
      rw [hmiss.strings]

end Sys2Proof.Machine
end

section
/-! The seat strings: the answers that are taken, and the populations that are applied. -/

namespace Sys2Proof.Machine

/-! ### A round that goes on (R104) -/

/-- R104, R111: the string's record after its round has gone on at a position, or ended. -/
theorem Part.continueRound_string (q : Part) (i : StringId) (m : Nat)
    (hpos : (q.string i).roundPosition = some m) (hex : (q.string i).exchange = false)
    (hpop : (q.string i).population ≤ 24) :
    let y := q.string i
    let r := (q.continueRound i).string i
    let late := atOrAfter q.time (later y.roundStart 20) = true
    r.population = y.population ∧ r.pendingPopulation = y.pendingPopulation ∧ r.releasing = y.releasing ∧
      (m < y.population → r.roundPosition = some m ∧ r.roundStart = y.roundStart ∧
        (r.exchange = true ↔ y.releasing = [])) ∧
      (y.population ≤ m → ¬late → r.roundPosition = none ∧ r.roundStart = y.roundStart ∧ r.exchange = false) ∧
      (y.population ≤ m → late → y.population = 0 →
        r.roundPosition = none ∧ r.roundStart = q.time ∧ r.exchange = false) ∧
      (y.population ≤ m → late → y.population ≠ 0 →
        r.roundPosition = some 0 ∧ r.roundStart = q.time ∧ (r.exchange = true ↔ y.releasing = [])) := by
  intro y r late
  by_cases hm : m < y.population
  · have hcont : q.continueRound i = q.beginExchange i := q.continueRound_polls i m hpos hm
    obtain ⟨-, b, l, hb, hiff⟩ := q.beginExchange_spec i
    have hr : r = { y with exchange := b, lastPoll := l } := (congrArg (fun p : Part => p.string i) hcont).trans hb
    rw [hr]
    have hm24 : m < 24 := Nat.lt_of_lt_of_le hm hpop
    refine ⟨rfl, rfl, rfl, fun _ => ⟨hpos, rfl, hiff m hpos hm24 hex⟩, ?_, ?_, ?_⟩ <;>
      exact fun h => absurd hm (by omega)
  · have hends : q.continueRound i = if atOrAfter q.time y.roundDue then
        (q.setString i { y with roundPosition := none }).beginRound i
        else q.setString i { y with roundPosition := none } := by
      have hm' : ¬m < (q.string i).population := hm
      simp only [Part.continueRound, hpos, hm', if_false]
      rfl
    have hstring : (q.setString i { y with roundPosition := none }).string i = { y with roundPosition := none } :=
      Part.string_setString _ _ _
    by_cases hlate : late
    · have hcont := hends.trans (if_pos hlate)
      obtain ⟨-, b, l, hb, hzero, htrue, hfalse⟩ := (q.setString i { y with roundPosition := none }).beginRound_spec i
      rw [hstring] at hb hzero htrue hfalse
      have hr : r = _ := (congrArg (fun p : Part => p.string i) hcont).trans hb
      rw [hr]
      refine ⟨rfl, rfl, rfl, fun h => absurd h hm, fun _ h => absurd hlate h, fun _ _ h0 => ?_, fun _ _ h0 => ?_⟩
      · exact ⟨if_pos h0, rfl, (hzero h0).trans hex⟩
      · refine ⟨if_neg h0, rfl, fun h => ?_, fun h => htrue h0 h⟩
        by_contra hne
        exact absurd (h.symm.trans (hfalse hex hne)) (by decide)
    · have hcont := hends.trans (if_neg hlate)
      have hr : r = _ := (congrArg (fun p : Part => p.string i) hcont).trans hstring
      rw [hr]
      exact ⟨rfl, rfl, rfl, fun h => absurd h hm, fun _ _ => ⟨rfl, rfl, hex⟩, fun _ h => absurd h hlate,
        fun _ h => absurd h hlate⟩

/-! ### What an answer makes of its seat (R107, R109, R113 to R115, R121, R122) -/

/-- R121: the socket once a poll's socket power has been acknowledged. -/
def Socket.acknowledged (power : Bool) (now : PartTime) (x : Socket) : Socket :=
  if power = true ∧ (x.state = .unpowered ∨
      (x.state = .settling ∧ x.settleEnd = none ∧ x.classifying = false)) then
    { x with
      ackOn := power, state := .settling, settleEnd := some (later now 400), classifying := false
      average := none, run := none, peak := 0 }
  else { x with ackOn := power }

theorem Part.seat_setSocket (p : Part) (k : SeatId) (x : Socket) :
    (p.setSocket k x).seat k = { p.seat k with socket := x } := Part.seat_setSeat _ _ _

theorem Part.acknowledgePower_seat (k : SeatId) (power : Bool) (p : Part) :
    (p.acknowledgePower k power).seat k =
      { p.seat k with socket := (p.seat k).socket.acknowledged power p.time } := by
  unfold Part.acknowledgePower Socket.acknowledged
  extract_lets x x' q
  split
  · have hq : q.seat k = _ := p.seat_setSocket k _
    split
    · exact hq
    · exact (Part.seat_raise _ _ _).trans hq
  · exact p.seat_setSocket k _

theorem Part.acknowledge_seat (k : SeatId) (p : Part) :
    (∀ power gain, (p.seat k).carried = some (power, gain) → (p.acknowledge k).seat k =
      { p.seat k with
        acknowledged := gain, socket := (p.seat k).socket.acknowledged power p.time }) ∧
      ((p.seat k).carried = none → p.acknowledge k = p) := by
  constructor
  · intro power gain h
    simp only [Part.acknowledge, h, Part.acknowledgePower_seat, Part.seat_setSeat]
    rfl
  · intro h
    simp only [Part.acknowledge, h]

theorem Part.changeLanguage_seat (k : SeatId) (l : Lang) (p : Part) : (p.changeLanguage k l).seat k =
    { p.seat k with language := l, pending := ((p.changeLanguage k l).seat k).pending } := by
  unfold Part.changeLanguage
  extract_lets s q r
  split
  · rename_i h
    rw [← h]
  · have hr : r.seat k = q.seat k := by
      unfold r
      split
      · exact (q.streamsOnly_move _ _).seat k
      · rfl
    have hq : q.seat k = { p.seat k with language := l } := Part.seat_setSeat _ _ _
    have hraise : ((r.recomputeSeat k).seatNotice k).seat k = (r.recomputeSeat k).seat k := Part.seat_raise _ _ _
    rw [hraise, Part.recomputeSeat_seat, hr, hq]

theorem Part.changeVolume_seat (k : SeatId) (v : Nat) (p : Part) : (p.changeVolume k v).seat k =
    { p.seat k with volume := v, pending := ((p.changeVolume k v).seat k).pending } := by
  unfold Part.changeVolume
  extract_lets s
  split
  · rename_i h
    rw [← h]
  · have hq : (p.setSeat k { s with volume := v }).seat k = { p.seat k with volume := v } := Part.seat_setSeat _ _ _
    generalize p.setSeat k { s with volume := v } = q at hq
    have hraise : ((q.recomputeSeat k).seatNotice k).seat k = (q.recomputeSeat k).seat k := Part.seat_raise _ _ _
    rw [hraise, Part.recomputeSeat_seat, hq]

/-- R113: what the presses of an answer make of their seat. -/
theorem Part.takePresses_seat (k : SeatId) (c : Counters) (p : Part) :
    (p.takePresses k c).seat k = { p.seat k with
        baselines := some c, pending := ((p.takePresses k c).seat k).pending
        language := ((p.takePresses k c).seat k).language
        volume := ((p.takePresses k c).seat k).volume } ∧
      (∀ b, (p.seat k).baselines = some b →
        ((p.takePresses k c).seat k).language =
          p.stepLanguage (presses c.lang b.lang) (p.seat k).language ∧
        ((p.takePresses k c).seat k).volume =
          pressedVolume (p.seat k).volume (presses c.up b.up) (presses c.down b.down)) ∧
      ((p.seat k).baselines = none →
        ((p.takePresses k c).seat k).language = (p.seat k).language ∧
        ((p.takePresses k c).seat k).volume = (p.seat k).volume) := by
  have hq : (p.setSeat k { p.seat k with baselines := some c }).seat k = { p.seat k with baselines := some c } :=
    Part.seat_setSeat _ _ _
  have hlang : ∀ n l, (p.setSeat k { p.seat k with baselines := some c }).stepLanguage n l = p.stepLanguage n l := by
    intro n
    induction n with
    | zero => exact fun _ => rfl
    | succ n ih => exact fun l => ih _
  rcases Option.eq_none_or_eq_some (p.seat k).baselines with h | ⟨b, h⟩
  · have htake : p.takePresses k c = p.setSeat k { p.seat k with baselines := some c } := by
      simp only [Part.takePresses, h]
    rw [htake, hq]
    exact ⟨rfl, fun b hb => absurd (h.symm.trans hb) (by simp), fun _ => ⟨rfl, rfl⟩⟩
  · have htake : p.takePresses k c = Part.changeVolume k
        (pressedVolume (p.seat k).volume (presses c.up b.up) (presses c.down b.down))
        (Part.changeLanguage k (p.stepLanguage (presses c.lang b.lang) (p.seat k).language)
          (p.setSeat k { p.seat k with baselines := some c })) := by
      simp only [Part.takePresses, h, hlang]
    rw [htake]
    generalize p.setSeat k { p.seat k with baselines := some c } = q at hq
    have hl := q.changeLanguage_seat k (p.stepLanguage (presses c.lang b.lang) (p.seat k).language)
    generalize q.changeLanguage k _ = r at hl
    have hv := r.changeVolume_seat k (pressedVolume (p.seat k).volume (presses c.up b.up) (presses c.down b.down))
    generalize r.changeVolume k _ = t at hv
    rw [hl, hq] at hv
    refine ⟨?_, fun b' hb' => ?_, fun hb' => absurd (h.symm.trans hb') (by simp)⟩
    · rw [hv]
    · have hbb : b = b' := Option.some.inj (h.symm.trans hb')
      subst hbb
      rw [hv]
      exact ⟨rfl, rfl⟩

/-- R127: a socket that has faulted. -/
def Socket.faultedBy (now : PartTime) (r : FaultReason) (sample average : Nat) (x : Socket) : Socket :=
  let history := faultHistory x.history now
  { x with
    state := if lockoutDue history then .lockedOut else .faulted
    fault := some ⟨r, now, sample, average⟩
    history := history
    coolEnd := if lockoutDue history then none else some (later now 30000)
    settleEnd := none, run := none, classifying := false }

theorem Part.socketFault_seat (k : SeatId) (r : FaultReason) (x a : Nat) (p : Part) :
    (p.socketFault k r x a).seat k = { p.seat k with
      pending := ((p.socketFault k r x a).seat k).pending
      socket := (p.seat k).socket.faultedBy p.time r x a } := by
  unfold Part.socketFault
  extract_lets s q history locked src t
  have hq : q.seat k = { p.seat k with pending := (q.seat k).pending } ∧ q.time = p.time := by
    unfold q
    split
    · rw [Part.seat_setSeat]
      exact ⟨rfl, (p.streamsOnly_leave _).time⟩
    · exact ⟨rfl, rfl⟩
  obtain ⟨hseat, htime⟩ := hq
  have ht : t.seat k = { q.seat k with socket := s.socket.faultedBy q.time r x a } := q.seat_setSocket k _
  have hraise : (t.seatNotice k).seat k = t.seat k := Part.seat_raise _ _ _
  rw [hraise, ht, hseat, htime]

/-- R125, R126: a socket that a run of 2 has decided. -/
def Socket.decidedBy (now : PartTime) (i : Indication) (sample : Nat) (x : Socket) : Socket :=
  match i with
  | .leak => x.faultedBy now .leak sample (x.average.getD 0)
  | .headset => if x.state = .attached then x else { x with state := .attached, run := none }
  | .empty => if x.state = .empty then x else { x with state := .empty, run := none }

theorem Part.decideSocket_seat (k : SeatId) (i : Indication) (n : Nat) (p : Part) :
    (p.decideSocket k i n).seat k = { p.seat k with
      pending := ((p.decideSocket k i n).seat k).pending
      socket := (p.seat k).socket.decidedBy p.time i n } := by
  unfold Part.decideSocket Socket.decidedBy
  extract_lets s y q q' r
  cases i with
  | leak => exact p.socketFault_seat k _ _ _
  | headset =>
    by_cases h : y.state = .attached
    · simp only [if_pos h]
      rw [if_pos h]
    · have hraise : ((q.recomputeSeat k).seatNotice k).seat k = (q.recomputeSeat k).seat k := Part.seat_raise _ _ _
      have hq : q.seat k = { p.seat k with socket := { y with state := .attached, run := none } } :=
        ((Part.streamsOnly_join _ _).seat k).trans (p.seat_setSocket k _)
      simp only [if_neg h]
      rw [if_neg h, hraise, Part.recomputeSeat_seat, hq]
  | empty =>
    by_cases h : y.state = .empty
    · simp only [if_pos h]
      rw [if_pos h]
    · have hraise : (r.seatNotice k).seat k = r.seat k := Part.seat_raise _ _ _
      have hq : q'.seat k = { p.seat k with socket := { y with state := .empty, run := none } } :=
        p.seat_setSocket k _
      have hr : r.seat k = { q'.seat k with pending := (r.seat k).pending } := by
        unfold r
        split
        · rw [Part.recomputeSeat_seat, (q'.streamsOnly_leave _).seat]
        · rfl
      simp only [if_neg h]
      rw [if_neg h, hraise, hr, hq]

/-- R122, R123, R125: a socket that has taken a sample. -/
def Socket.measured (now : PartTime) (n : Nat) (x : Socket) : Socket :=
  if x.takes then
    let y := { x with
      lastSample := n, average := some (Machine.average x.average n 4), peak := max x.peak n }
    let run := nextRun y.run (indicationOf (y.average.getD 0))
    if 8000 ≤ n then y.faultedBy now .overcurrent n (y.average.getD 0)
    else if y.classifying then
      if run.2 = 2 then ({ y with run := some run } : Socket).decidedBy now (indicationOf (y.average.getD 0)) n
      else { y with run := some run }
    else y
  else { x with lastSample := n }

theorem Part.takeSample_seat (k : SeatId) (n : Nat) (p : Part) :
    (p.takeSample k n).seat k = { p.seat k with
      pending := ((p.takeSample k n).seat k).pending
      socket := (p.seat k).socket.measured p.time n } := by
  have hset : ∀ y, (p.setSocket k y).seat k = { p.seat k with socket := y } := fun y => p.seat_setSocket k y
  unfold Part.takeSample
  extract_lets src x y ind run q
  have ht' : x.takes = (p.seat k).socket.takes := rfl
  unfold Socket.measured
  by_cases ht : x.takes = true
  · have htakes : (p.seat k).socket.takes = true := ht
    simp only [if_pos ht, if_pos htakes]
    by_cases hover : 8000 ≤ n
    · simp only [if_pos hover]
      rw [Part.socketFault_seat, hset]
      rfl
    · simp only [if_neg hover]
      by_cases hclass : y.classifying = true
      · have hclass' : (p.seat k).socket.classifying = true := hclass
        simp only [if_pos hclass, if_pos hclass']
        have hq : q.seat k = { p.seat k with socket := { y with run := some run } } := hset _
        have hqtime : q.time = p.time := rfl
        by_cases hrun : run.2 = 2
        · simp only [if_pos hrun]
          rw [if_pos hrun, Part.decideSocket_seat, hq, hqtime]
        · simp only [if_neg hrun]
          rw [if_neg hrun, hq]
      · have hclass' : ¬(p.seat k).socket.classifying = true := hclass
        simp only [if_neg hclass, if_neg hclass']
        rw [hset]
  · have htakes : ¬(p.seat k).socket.takes = true := ht
    simp only [if_neg ht, if_neg htakes]
    rw [hset]

/-- R114: the steps look at the enabled languages alone. -/
theorem Part.stepLanguage_congr {p q : Part} (h : ∀ l, (q.language l).enabled = (p.language l).enabled) (n : Nat)
    (l : Lang) : q.stepLanguage n l = p.stepLanguage n l := by
  have hnext : ∀ m, q.nextEnabled m = p.nextEnabled m := fun m => by
    unfold Part.nextEnabled
    simp only [h]
  induction n generalizing l with
  | zero => rfl
  | succ n ih =>
    simp only [Part.stepLanguage]
    rw [hnext, ih]

/-- R109, R121: a seat whose poll has been acknowledged. -/
def Seat.acked (now : PartTime) (s : Seat) : Seat :=
  match s.carried with
  | none => s
  | some (power, gain) => { s with acknowledged := gain, socket := s.socket.acknowledged power now }

theorem Part.acknowledge_acked (k : SeatId) (p : Part) : (p.acknowledge k).seat k = (p.seat k).acked p.time := by
  obtain ⟨hsome, hnone⟩ := p.acknowledge_seat k
  unfold Seat.acked
  split
  · rename_i h
    rw [hnone h]
  · rename_i h
    exact hsome _ _ h

/-- R113, R114: the language of a seat after an answer. -/
def Seat.languageAfter (step : Nat → Lang → Lang) (c : Counters) (s : Seat) : Lang :=
  match s.node, s.baselines with
  | .online, some b => step (presses c.lang b.lang) s.language
  | _, _ => s.language

/-- R113, R115: the volume of a seat after an answer. -/
def Seat.volumeAfter (c : Counters) (s : Seat) : Nat :=
  match s.node, s.baselines with
  | .online, some b => pressedVolume s.volume (presses c.up b.up) (presses c.down b.down)
  | _, _ => s.volume

theorem Seat.after_pressed (step : Nat → Lang → Lang) (c b : Counters) (s : Seat) (hon : s.node = .online)
    (hb : s.baselines = some b) : s.languageAfter step c = step (presses c.lang b.lang) s.language ∧
      s.volumeAfter c = pressedVolume s.volume (presses c.up b.up) (presses c.down b.down) := by
  simp only [Seat.languageAfter, Seat.volumeAfter, hon, hb, and_self]

theorem Seat.after_unpressed (step : Nat → Lang → Lang) (c : Counters) (s : Seat)
    (h : s.node ≠ .online ∨ s.baselines = none) : s.languageAfter step c = s.language ∧ s.volumeAfter c = s.volume := by
  unfold Seat.languageAfter Seat.volumeAfter
  rcases h with h | h
  · cases hn : s.node with
    | online => exact absurd hn h
    | unconfigured => exact ⟨rfl, rfl⟩
    | seeking => exact ⟨rfl, rfl⟩
    | lost => exact ⟨rfl, rfl⟩
  · rw [h]
    cases s.node <;> exact ⟨rfl, rfl⟩

/-- R107: the seat once a valid answer has been taken, but for its code. -/
def Seat.afterAnswer (step : Nat → Lang → Lang) (now : PartTime) (a : Answer) (s : Seat) : Seat :=
  { s.acked now with
    node := .online, missCount := 0, baselines := some a.counters
    language := s.languageAfter step a.counters, volume := s.volumeAfter a.counters
    socket := (s.acked now).socket.measured now a.sample }

theorem Seat.acked_with (now : PartTime) (s : Seat) (n : NodeState) (m : Nat) (b : Option Counters) :
    ({ s with node := n, missCount := m, baselines := b } : Seat).acked now =
      { s.acked now with node := n, missCount := m, baselines := b } := by
  rcases Option.eq_none_or_eq_some s.carried with h | ⟨⟨power, gain⟩, h⟩ <;> simp only [Seat.acked, h]

theorem Seat.acked_kept (now : PartTime) (s : Seat) : (s.acked now).node = s.node ∧
    (s.acked now).baselines = s.baselines ∧ (s.acked now).language = s.language ∧
    (s.acked now).volume = s.volume := by
  unfold Seat.acked
  cases s.carried <;> exact ⟨rfl, rfl, rfl, rfl⟩

/-- R107: what a valid answer makes of its seat. -/
theorem Part.takeAnswer_seat (k : SeatId) (a : Answer) (p : Part) (h : (p.seat k).node ≠ .unconfigured) :
    (p.takeAnswer k a).seat k = { (p.seat k).afterAnswer p.stepLanguage p.time a with
      pending := ((p.takeAnswer k a).seat k).pending } := by
  obtain ⟨hnode, hbase, hlang, hvol⟩ := (p.seat k).acked_kept p.time
  by_cases hon : (p.seat k).node = .online
  · generalize hq : Part.acknowledge k (p.setSeat k { p.seat k with missCount := 0 }) = q
    have hevent : p.SeatEvent k q := by
      rw [← hq]
      exact (p.seatEvent_setSeat k _).trans (Part.seatEvent_acknowledge k _)
    have htake : p.takeAnswer k a = (q.takePresses k a.counters).takeSample k a.sample := by
      rw [← hq]
      simp only [Part.takeAnswer, hon]
    have hseat : q.seat k = { (p.seat k).acked p.time with missCount := 0 } := by
      rw [← hq, Part.acknowledge_acked, Part.seat_setSeat]
      exact (p.seat k).acked_with p.time (p.seat k).node 0 (p.seat k).baselines |>.trans (by rw [← hnode, ← hbase])
    have hstep : q.stepLanguage = p.stepLanguage := by
      funext n l
      exact Part.stepLanguage_congr (fun l => by rw [hevent.langs l]) n l
    obtain ⟨hpress, hmoved, hstill⟩ := q.takePresses_seat k a.counters
    have htime : (q.takePresses k a.counters).time = p.time :=
      (q.seatEvent_takePresses k a.counters).time.trans hevent.time
    have hafter : ((q.takePresses k a.counters).seat k).language = (p.seat k).languageAfter p.stepLanguage a.counters ∧
        ((q.takePresses k a.counters).seat k).volume = (p.seat k).volumeAfter a.counters := by
      rcases Option.eq_none_or_eq_some (p.seat k).baselines with hb | ⟨b, hb⟩
      · obtain ⟨hl, hv⟩ := hstill (by rw [hseat]; exact hbase.trans hb)
        obtain ⟨hl', hv'⟩ := (p.seat k).after_unpressed p.stepLanguage a.counters (.inr hb)
        rw [hl, hv, hl', hv', hseat]
        exact ⟨hlang, hvol⟩
      · obtain ⟨hl, hv⟩ := hmoved b (by rw [hseat]; exact hbase.trans hb)
        obtain ⟨hl', hv'⟩ := (p.seat k).after_pressed p.stepLanguage a.counters b hon hb
        rw [hl, hv, hl', hv', hstep, hseat]
        exact ⟨by rw [hlang], by rw [hvol]⟩
    obtain ⟨hl, hv⟩ := hafter
    rw [hl, hv, hseat] at hpress
    generalize q.takePresses k a.counters = r at hpress htime htake
    rw [htake, Part.takeSample_seat, htime, hpress]
    unfold Seat.afterAnswer
    rw [← hon, ← hnode]
  · generalize hq : Part.nodeNotice k (p.setSeat k { p.seat k with
      node := .online, missCount := 0, baselines := some a.counters }) = q
    have htake : p.takeAnswer k a = (q.acknowledge k).takeSample k a.sample := by
      rw [← hq]
      unfold Part.takeAnswer
      cases hn : (p.seat k).node with
      | online => exact absurd hn hon
      | unconfigured => exact absurd hn h
      | seeking => simp only [hn]
      | lost => simp only [hn]
    have hseat : q.seat k = { p.seat k with node := .online, missCount := 0, baselines := some a.counters } := by
      rw [← hq]
      exact (Part.seat_raise _ _ _).trans (Part.seat_setSeat _ _ _)
    have htime : q.time = p.time := by
      rw [← hq]
      exact ((p.seatEvent_setSeat k _).trans (Part.seatEvent_raise k _ _)).time
    obtain ⟨hl, hv⟩ := (p.seat k).after_unpressed p.stepLanguage a.counters (.inl hon)
    rw [htake, Part.takeSample_seat, Part.acknowledge_acked, hseat, (q.seatEvent_acknowledge k).time, htime,
      Seat.acked_with]
    unfold Seat.afterAnswer
    rw [hl, hv, ← hlang, ← hvol]

theorem Socket.faultedBy_kept (now : PartTime) (r : FaultReason) (n a : Nat) (x : Socket) :
    (x.faultedBy now r n a).lastSample = x.lastSample ∧ (x.faultedBy now r n a).ackOn = x.ackOn := ⟨rfl, rfl⟩

theorem Socket.decidedBy_kept (now : PartTime) (i : Indication) (n : Nat) (x : Socket) :
    (x.decidedBy now i n).lastSample = x.lastSample ∧ (x.decidedBy now i n).ackOn = x.ackOn := by
  unfold Socket.decidedBy
  cases i with
  | leak => exact x.faultedBy_kept now _ _ _
  | headset => dsimp only; split <;> exact ⟨rfl, rfl⟩
  | empty => dsimp only; split <;> exact ⟨rfl, rfl⟩

/-- R122: the sample is stored, and the acknowledged power stands. -/
theorem Socket.measured_kept (now : PartTime) (n : Nat) (x : Socket) :
    (x.measured now n).lastSample = n ∧ (x.measured now n).ackOn = x.ackOn := by
  unfold Socket.measured
  extract_lets y run
  split
  · split
    · exact ⟨rfl, rfl⟩
    · split
      · split
        · obtain ⟨h1, h2⟩ := Socket.decidedBy_kept now (indicationOf (y.average.getD 0)) n { y with run := some run }
          exact ⟨h1, h2⟩
        · exact ⟨rfl, rfl⟩
      · exact ⟨rfl, rfl⟩
  · exact ⟨rfl, rfl⟩

/-- R122: a sample below the overcurrent of R123, of a socket outside classification, enters the average. -/
theorem Socket.measured_calm (now : PartTime) (n : Nat) (x : Socket) (ht : x.takes = true) (hn : n < 8000)
    (hc : x.classifying = false) : x.measured now n = { x with
      lastSample := n, average := some (Machine.average x.average n 4), peak := max x.peak n } := by
  have hover : ¬8000 ≤ n := by omega
  unfold Socket.measured
  simp only [ht, hover, hc, if_true, if_false, Bool.false_eq_true]

/-! ### Answers (R107) -/

theorem Part.endExchange_string (i : StringId) (n : Nat) (p : Part)
    (hpend : (p.string i).pendingPopulation = none) (hpos : (p.string i).roundPosition = some n) :
    ∃ q, p.endExchange i = q.continueRound i ∧ p.RoundStep i q ∧
      q.string i = { p.string i with exchange := false, roundPosition := some (n + 1) } := by
  obtain ⟨hover, hstring⟩ := p.exchangeOver_spec i
  refine ⟨_, p.endExchange_eq i, ?_, ?_⟩
  · rw [Part.applyPending_none _ _ (by rw [hstring]; exact hpend)]
    exact hover.trans (Part.roundStep_setString i _ _)
  · rw [Part.applyPending_none _ _ (by rw [hstring]; exact hpend), Part.string_setString, hstring]
    simp only [hpos, Option.map_some]

theorem stepLanguage_iterate (p : Part) (n : Nat) (l : Lang) : p.stepLanguage n l = p.nextEnabled^[n] l := by
  induction n generalizing l with
  | zero => rfl
  | succ n ih => exact ih _

theorem pressedVolume_eq (v up down : Nat) :
    (pressedVolume v up down : Int) = max 0 (min 15 ((v : Int) + (up : Int) - (down : Int))) := by
  unfold pressedVolume clampInt
  omega

/-- Settles O42. -/
theorem nodeAnswersAreTaken : Obligations.NodeAnswersAreTaken := by
  intro s i k n bytes a hq hex hpos hk hn hread hpend hpop hnode
  have hexec : exec (.nodeAnswer i bytes) s = .next (s.onPart (Part.nodeAnswers i bytes)) := rfl
  obtain ⟨q, hfin, -, ht⟩ := s.onPart_finish (Part.nodeAnswers i bytes)
  rw [ht] at hexec
  have hout : s.part.nodeAnswers i bytes = (s.part.takeAnswer k a).endExchange i := by
    simp only [Part.nodeAnswers, Part.exchangeSeat_of hex hpos hn hk, positionOf_of hn hk, hread]
  rw [hout] at hfin
  have hevent := s.part.seatEvent_takeAnswer k a
  have hstring : (s.part.takeAnswer k a).string i = s.part.string i := by
    unfold Part.string
    rw [hevent.strings]
  obtain ⟨r, hr, hstep, hrstring⟩ := (s.part.takeAnswer k a).endExchange_string i n
    (by rw [hstring]; exact hpend) (by rw [hstring]; exact hpos)
  rw [hstring] at hrstring
  have hround := r.continueRound_string i (n + 1) (by rw [hrstring]) (by rw [hrstring]) (by rw [hrstring]; exact hpop)
  have hlast := r.continueRound_roundStep i
  have hrtime : r.time = s.part.time := by rw [hstep.rest, hevent.time]
  rw [hrstring, hrtime] at hround
  obtain ⟨-, -, -, hon, hends, -, hagain⟩ := hround
  rw [hr] at hfin
  have hall := hstep.trans hlast
  have hseats : ∀ j, q.seat j = { (s.part.takeAnswer k a).seat j with
      carried := (q.seat j).carried, pending := (q.seat j).pending } := fun j => by
    rw [hfin.seats j, hall.seats j]
  have hstrings : ∀ j, q.string j = (r.continueRound i).string j := fun j => by
    unfold Part.string
    rw [hfin.strings]
  have hmine := hseats k
  rw [s.part.takeAnswer_seat k a hnode] at hmine
  refine ⟨_, hexec, rfl, rfl, ?_⟩
  intro z enabled step
  have hnext : s.part.nextEnabled = step := by
    funext l
    unfold Part.nextEnabled
    dsimp only [step]
    cases (enabled.find? fun m => decide (l < m)) <;> rfl
  refine ⟨?_, ?_, ?_, ?_, fun b hon hb => ?_, fun hoff => ?_, fun power gain hcarried => ?_, fun j hj => ?_,
    fun hlt => ?_, fun hge hlate => ?_, fun hge hne hlate => ?_, fun j hj => ?_, ?_, ?_⟩
  · exact congrArg Seat.node hmine
  · exact congrArg Seat.missCount hmine
  · exact congrArg Seat.baselines hmine
  · exact (congrArg (fun x : Seat => x.socket.lastSample) hmine).trans (Socket.measured_kept _ _ _).1
  · obtain ⟨hl, hv⟩ := z.after_pressed s.part.stepLanguage a.counters b hon hb
    refine ⟨?_, ((congrArg Seat.language hmine).trans hl).trans ?_⟩
    · rw [← pressedVolume_eq]
      exact congrArg _ ((congrArg Seat.volume hmine).trans hv)
    · rw [← hnext, ← stepLanguage_iterate]
      rfl
  · obtain ⟨hl, hv⟩ := z.after_unpressed s.part.stepLanguage a.counters (.inl hoff)
    exact ⟨(congrArg Seat.volume hmine).trans hv, (congrArg Seat.language hmine).trans hl⟩
  · have hacked : z.acked s.part.time = { z with
        acknowledged := gain, socket := z.socket.acknowledged power s.part.time } := by
      unfold Seat.acked
      rw [hcarried]
    have hsocket : (z.acked s.part.time).socket = z.socket.acknowledged power s.part.time := congrArg Seat.socket hacked
    refine ⟨(congrArg Seat.acknowledged hmine).trans (congrArg Seat.acknowledged hacked),
      (congrArg (fun x : Seat => x.socket.ackOn) hmine).trans ((Socket.measured_kept _ _ _).2.trans ?_),
      fun hpower hlow hstate => (congrArg Seat.socket hmine).trans ?_⟩
    · refine (congrArg Socket.ackOn hsocket).trans ?_
      unfold Socket.acknowledged
      split <;> rfl
    · have hsettling : z.socket.acknowledged power s.part.time = { z.socket with
          ackOn := power, state := .settling, settleEnd := some (later s.part.time 400), classifying := false
          average := none, run := none, peak := 0 } := if_pos ⟨hpower, hstate⟩
      rw [hsettling, hpower] at hsocket
      refine (congrArg (Socket.measured s.part.time a.sample) hsocket).trans ?_
      rw [Socket.measured_calm s.part.time a.sample _ rfl hlow rfl]
      simp only [average, Nat.zero_max]
  · have hj' := hseats j
    rw [hevent.others j hj] at hj'
    exact ⟨(congrArg Seat.node hj').trans rfl, (congrArg Seat.socket hj').trans rfl,
      (congrArg Seat.language hj').trans rfl, (congrArg Seat.volume hj').trans rfl⟩
  · obtain ⟨h1, -, h2⟩ := hon hlt
    exact ⟨(congrArg StringRec.roundPosition (hstrings i)).trans h1,
      fun hrel => (congrArg StringRec.exchange (hstrings i)).trans (h2.2 hrel)⟩
  · obtain ⟨h1, -, h2⟩ := hends hge (by rw [hlate]; decide)
    exact ⟨(congrArg StringRec.roundPosition (hstrings i)).trans h1,
      (congrArg StringRec.exchange (hstrings i)).trans h2⟩
  · obtain ⟨h1, h2, -⟩ := hagain hge hlate hne
    exact ⟨(congrArg StringRec.roundPosition (hstrings i)).trans h1,
      (congrArg StringRec.roundStart (hstrings i)).trans h2⟩
  · refine (hstrings j).trans ((hall.others j hj).trans ?_)
    unfold Part.string
    rw [hevent.strings]
  · exact hfin.time.trans (by rw [hlast.rest]; exact hrtime)
  · exact hfin.supply.trans (by rw [hall.rest]; exact hevent.supply)

end Sys2Proof.Machine
end

section
/-! The seat strings: a population that is applied at once, and one that waits for an exchange to end. -/

namespace Sys2Proof.Machine

/-! ### No report is raised by a listener that leaves (R61) -/

theorem Part.raise_bank (p : Part) (n : Notice) : (p.raise n).bank = p.bank := by rw [Part.raise_only_link]

theorem Part.releaseHold_bank (p : Part) (c : ClipId) : (p.releaseHold c).bank = p.bank := by
  have hclear : ∀ q : Part, (q.clearClip c).bank = q.bank := fun q => by rw [(q.clearClip_spec c).2.2.2.2]
  unfold Part.releaseHold Part.freeClip
  dsimp only
  split
  · split
    · rw [Part.raise_bank, hclear]
      rfl
    · rw [hclear]
      rfl
  · rfl

theorem Part.stopRelease_reports (p : Part) (r : ReaderId) : (p.stopRelease r).bank.reports = p.bank.reports := by
  unfold Part.stopRelease
  split
  · rfl
  · rw [Part.releaseHold_bank]
    rfl

theorem Part.park_reports (p : Part) (l : Lang) : (p.park l).bank.reports = p.bank.reports := by
  have hstop : (p.stopChannel l).bank.reports = p.bank.reports := by
    unfold Part.stopChannel
    split
    · exact p.stopRelease_reports _
    · rfl
  have hdrop : ∀ q : Part, (q.dropResume l).bank = q.bank := fun q => by
    unfold Part.dropResume
    split
    · rfl
    · rw [Part.releaseHold_bank]
      rfl
  unfold Part.park Part.streamNotice
  dsimp only
  rw [Part.raise_bank, Part.setLanguage_bank, hdrop]
  exact hstop

theorem Part.leave_reports (p : Part) (l : Lang) : (p.leave l).bank.reports = p.bank.reports := by
  unfold Part.leave
  dsimp only
  split
  · exact Part.park_reports _ _
  · rfl

theorem Part.nodeDown_reports (k : SeatId) (p : Part) : (p.nodeDown k).bank.reports = p.bank.reports := by
  unfold Part.nodeDown
  extract_lets s x q r
  have hr : r.bank.reports = p.bank.reports := by
    unfold r
    split
    · exact q.leave_reports _
    · rfl
  split
  · rfl
  · split
    · exact hr
    · exact (congrArg Bank.reports (r.raise_bank _)).trans hr

/-! ### Seats taken into and out of use (R111, R112) -/

theorem Part.unconfigure_seat (k : SeatId) (p : Part) : (p.unconfigure k).seat k = { p.seat k with
    node := .unconfigured, missCount := 0, baselines := none
    pending := ((p.unconfigure k).seat k).pending, socket := (p.seat k).socket.down } := by
  obtain ⟨q, hdown, hseat⟩ : ∃ q : Part, p.unconfigure k = q.nodeDown k ∧
      q.seat k = { p.seat k with node := .unconfigured, missCount := 0, baselines := none } :=
    ⟨_, rfl, (Part.seat_raise _ _ _).trans (Part.seat_setSeat _ _ _)⟩
  rw [hdown, Part.nodeDown_seat, hseat]

theorem Part.unconfigure_reports (k : SeatId) (p : Part) : (p.unconfigure k).bank.reports = p.bank.reports :=
  (Part.nodeDown_reports k _).trans (congrArg Bank.reports (Part.raise_bank _ _))

theorem Part.configure_seat (k : SeatId) (p : Part) : (p.configure k).seat k = { p.seat k with
    node := .seeking, missCount := 0, baselines := none } :=
  (Part.seat_raise _ _ _).trans (Part.seat_setSeat _ _ _)

theorem Part.configure_reports (k : SeatId) (p : Part) : (p.configure k).bank.reports = p.bank.reports :=
  congrArg Bank.reports (Part.raise_bank _ _)

/-- What an operation of each of some seats leaves of the part. -/
structure Part.SeatsEvent (ks : List SeatId) (p q : Part) : Prop where
  time : q.time = p.time
  ann : q.ann = p.ann
  strings : q.strings = p.strings
  level : q.level = p.level
  supply : q.supply = p.supply
  light : q.light = p.light
  reports : q.bank.reports = p.bank.reports
  others : ∀ j, j ∉ ks → q.seat j = p.seat j
  link : p.link.Noted q.link

/-- Seats that are treated one after another, each once. -/
theorem Part.eachSeat_spec (f : SeatId → Part → Part) (hf : ∀ k (p : Part), p.SeatEvent k (f k p))
    (hr : ∀ k (p : Part), (f k p).bank.reports = p.bank.reports) (ks : List SeatId) (p : Part) (hnd : ks.Nodup) :
    let q := ks.foldl (fun q k => f k q) p
    p.SeatsEvent ks q ∧ ∀ k ∈ ks, ∃ r : Part, r.seat k = p.seat k ∧ q.seat k = (f k r).seat k := by
  induction ks generalizing p with
  | nil => exact ⟨⟨rfl, rfl, rfl, rfl, rfl, rfl, rfl, fun _ _ => rfl, .refl _⟩, fun k hk => absurd hk (by simp)⟩
  | cons k ks ih =>
    obtain ⟨hk, hnd⟩ := List.nodup_cons.1 hnd
    have h := hf k p
    obtain ⟨g, hin⟩ := ih (f k p) hnd
    rw [List.foldl_cons]
    refine ⟨⟨g.time.trans h.time, g.ann.trans h.ann, g.strings.trans h.strings, g.level.trans h.level,
      g.supply.trans h.supply, g.light.trans h.light, g.reports.trans (hr k p), fun j hj => ?_,
      h.link.trans g.link⟩, fun j hj => ?_⟩
    · obtain ⟨hjk, hjs⟩ := not_or.1 (fun h => hj (List.mem_cons.2 h))
      exact (g.others j hjs).trans (h.others j hjk)
    · rcases List.mem_cons.1 hj with rfl | hjs
      · exact ⟨p, rfl, g.others j hk⟩
      · have hjk : j ≠ k := fun e => hk (e ▸ hjs)
        obtain ⟨r, hr1, hr2⟩ := hin j hjs
        exact ⟨r, hr1.trans (h.others j hjk), hr2⟩

/-- The seats at the positions from `low` up to `high` of a string. -/
def seatsBetween (i : StringId) (low high : Nat) : List SeatId :=
  (List.range' low (high - low)).filterMap (seatAt i)

theorem mem_seatsBetween (i : StringId) (low high : Nat) (k : SeatId) : k ∈ seatsBetween i low high ↔
    k.val / 24 = i.val ∧ low ≤ k.val % 24 ∧ k.val % 24 < high := by
  unfold seatsBetween
  simp only [List.mem_filterMap, List.mem_range'_1]
  constructor
  · rintro ⟨n, hn, h⟩
    unfold seatAt at h
    split at h
    · have hk : k.val = 24 * i.val + n := by rw [← Option.some.inj h]
      omega
    · exact absurd h (by simp)
  · rintro ⟨hs, hlow, hhigh⟩
    exact ⟨k.val % 24, by omega, seatAt_of (Nat.mod_lt _ (by decide)) (by omega)⟩

theorem seatsBetween_nodup (i : StringId) (low high : Nat) : (seatsBetween i low high).Nodup := by
  refine List.Nodup.filterMap ?_ List.nodup_range'
  intro a b k ha hb
  unfold seatAt at ha hb
  split at ha
  · split at hb
    · have h1 := congrArg Fin.val (Option.some.inj ha)
      have h2 := congrArg Fin.val (Option.some.inj hb)
      simp only at h1 h2
      omega
    · exact absurd hb (by simp)
  · exact absurd ha (by simp)

/-- R111, R112: what an applied population makes of the string and of the seats. -/
theorem Part.applyPopulation_spec (i : StringId) (new : Nat) (p : Part) :
    let x := p.string i
    let q := p.applyPopulation i new
    q.string i = { x with
        population := new, pendingPopulation := none
        releasing := x.releasing ++ List.range' new (x.population - new) } ∧
      (∀ j, j ≠ i → q.string j = p.string j) ∧
      q.time = p.time ∧ q.ann = p.ann ∧ q.level = p.level ∧ q.supply = p.supply ∧ q.light = p.light ∧
      q.bank.reports = p.bank.reports ∧ p.link.Noted q.link ∧
      (∀ k ∈ seatsBetween i new x.population, q.seat k = { p.seat k with
        node := .unconfigured, missCount := 0, baselines := none
        pending := (q.seat k).pending, socket := (p.seat k).socket.down }) ∧
      (∀ k ∈ seatsBetween i x.population new, q.seat k = { p.seat k with
        node := .seeking, missCount := 0, baselines := none }) ∧
      (∀ k, k ∉ seatsBetween i new x.population → k ∉ seatsBetween i x.population new → q.seat k = p.seat k) := by
  intro x q
  generalize hy : ({ x with
    population := new, pendingPopulation := none
    releasing := x.releasing ++ List.range' new (x.population - new) } : StringRec) = y
  have hstring : (p.setString i y).string i = y := Part.string_setString _ _ _
  have hempty : ∀ low high, high ≤ low → seatsBetween i low high = [] := fun low high h => by
    simp only [seatsBetween, Nat.sub_eq_zero_of_le h, List.range'_zero, List.filterMap_nil]
  by_cases hlow : new < x.population
  · have hq : q = (seatsBetween i new x.population).foldl (fun q k => q.unconfigure k) (p.setString i y) := by
      rw [← hy]
      exact if_pos hlow
    obtain ⟨h, hin⟩ := Part.eachSeat_spec (fun k q => q.unconfigure k) Part.seatEvent_unconfigure
      Part.unconfigure_reports _ (p.setString i y) (seatsBetween_nodup i new x.population)
    rw [← hq] at h hin
    refine ⟨?_, fun j hj => ?_, h.time, h.ann, h.level, h.supply, h.light, h.reports, h.link, fun k hk => ?_,
      fun k hk => ?_, fun k hk _ => h.others k hk⟩
    · unfold Part.string at hstring ⊢
      rw [h.strings, hstring]
    · refine .trans ?_ (p.string_setString_ne y hj)
      unfold Part.string
      rw [h.strings]
    · obtain ⟨r, hr, hk'⟩ := hin k hk
      rw [Part.unconfigure_seat, hr] at hk'
      rw [hk']
      rfl
    · rw [hempty _ _ (by omega)] at hk
      exact absurd hk (by simp)
  · have hq : q = (seatsBetween i x.population new).foldl (fun q k => q.configure k) (p.setString i y) := by
      rw [← hy]
      exact if_neg hlow
    obtain ⟨h, hin⟩ := Part.eachSeat_spec (fun k q => q.configure k) Part.seatEvent_configure
      Part.configure_reports _ (p.setString i y) (seatsBetween_nodup i x.population new)
    rw [← hq] at h hin
    refine ⟨?_, fun j hj => ?_, h.time, h.ann, h.level, h.supply, h.light, h.reports, h.link, fun k hk => ?_,
      fun k hk => ?_, fun k _ hk => h.others k hk⟩
    · unfold Part.string at hstring ⊢
      rw [h.strings, hstring]
    · refine .trans ?_ (p.string_setString_ne y hj)
      unfold Part.string
      rw [h.strings]
    · rw [hempty _ _ (by omega)] at hk
      exact absurd hk (by simp)
    · obtain ⟨r, hr, hk'⟩ := hin k hk
      rw [Part.configure_seat, hr] at hk'
      exact hk'

/-! ### STRING-SET with no exchange in progress (R110) -/

theorem populationReply (i : StringId) (old new : Nat) (clamped : Prop) [Decidable clamped] :
    (clampStatus (decide clamped)).byte :: populationFields i old new =
      (if clamped then 1 else 0) :: e8 i.val ++ e8 new ++ e8 (old - new) ++ e8 (new - old) := by
  rw [clampStatus_eq]
  by_cases h : clamped <;> simp only [h, decide_true, decide_false, if_true, if_false, Bool.false_eq_true] <;> rfl

theorem Part.takeStringSet_named (tag : Byte) (body : Bytes) (i : StringId) (p : Part) (hlen : body.length = 2)
    (hi : b8 body 0 = i.val) : p.takeStringSet tag body =
      if (p.string i).exchange then
        p.setString i { p.string i with pendingPopulation := some (min 24 (b8 body 1)) }
      else (p.applyPopulation i (min 24 (b8 body 1))).answer .stringSet tag
        (clampStatus (decide (24 < b8 body 1))) (populationFields i (p.string i).population (min 24 (b8 body 1))) := by
  simp only [Part.takeStringSet, readExact_eq hlen, ident_eq i hi]

/-! ### An exchange that ends with a population pending (R110 to R112) -/

theorem Part.answer_string (p : Part) (k : Kind) (tag : Byte) (s : Status) (fields : Bytes) (i : StringId) :
    (p.answer k tag s fields).string i = p.string i := rfl

/-- The seat but for its codes. -/
def Seat.Same (s t : Seat) : Prop := t = { s with pending := t.pending, carried := t.carried }

theorem Seat.Same.trans {s t u : Seat} (h : s.Same t) (g : t.Same u) : s.Same u := by
  unfold Seat.Same at *
  rw [g, h]

theorem Seat.Same.symm {s t : Seat} (h : s.Same t) : t.Same s := by
  unfold Seat.Same at *
  rw [h]

theorem Part.RoundStep.same {i : StringId} {p q : Part} (h : p.RoundStep i q) (k : SeatId) :
    (p.seat k).Same (q.seat k) := by
  unfold Seat.Same
  rw [h.seats k]

theorem Part.AnnouncesOnly.same {p q : Part} (h : p.AnnouncesOnly q) (k : SeatId) :
    (p.seat k).Same (q.seat k) := by
  unfold Seat.Same
  rw [h.seats k]

theorem Part.takeAnswer_off (k : SeatId) (a : Answer) (p : Part) (h : (p.seat k).node = .unconfigured) :
    p.takeAnswer k a = p := by
  simp only [Part.takeAnswer, h]

/-- The end of an exchange of a seat, by its answer or by a miss. -/
structure ExchangeEnd (k : SeatId) (f : Part → Part) : Prop where
  event : ∀ p : Part, p.SeatEvent k (f p)
  seat : ∀ p q : Part, q.seat k = p.seat k → q.time = p.time → q.lang = p.lang →
    ((f p).seat k).Same ((f q).seat k)

theorem exchangeEnd_takeMiss (k : SeatId) : ExchangeEnd k (Part.takeMiss k) := by
  refine ⟨fun p => p.seatEvent_takeMiss k, fun p q hs _ _ => ?_⟩
  unfold Seat.Same
  by_cases hon : (p.seat k).node = .online
  · have hon' : (q.seat k).node = .online := by rw [hs]; exact hon
    by_cases h : (p.seat k).missCount < 2
    · rw [p.takeMiss_few k hon h, q.takeMiss_few k hon' (by rw [hs]; exact h), hs]
    · rw [p.takeMiss_lost k hon (by omega), q.takeMiss_lost k hon' (by rw [hs]; omega), hs]
  · rw [p.takeMiss_offline k hon, q.takeMiss_offline k (by rw [hs]; exact hon), hs]

theorem exchangeEnd_takeAnswer (k : SeatId) (a : Answer) : ExchangeEnd k (Part.takeAnswer k a) := by
  refine ⟨fun p => p.seatEvent_takeAnswer k a, fun p q hs ht hl => ?_⟩
  unfold Seat.Same
  by_cases h : (p.seat k).node = .unconfigured
  · rw [p.takeAnswer_off k a h, q.takeAnswer_off k a (by rw [hs]; exact h), hs]
  · have hstep : q.stepLanguage = p.stepLanguage := by
      funext n l
      exact Part.stepLanguage_congr (fun l => by unfold Part.language; rw [hl]) n l
    rw [p.takeAnswer_seat k a h, q.takeAnswer_seat k a (by rw [hs]; exact h), hs, ht, hstep]

theorem Link.waitingStringSet_of (l : Link) (w : Slot) (hw : w ∈ l.slots) (hk : w.kind = .stringSet)
    (hp : w.progress = .taken) (huniq : ∀ y ∈ l.slots, y.kind = .stringSet → y.progress = .taken → y = w) :
    l.waitingStringSet = some w := by
  unfold Link.waitingStringSet
  cases h : l.slots.find? fun s => decide (s.kind = .stringSet) && decide (s.progress = .taken) with
  | none =>
    have := List.find?_eq_none.1 h w hw
    simp [hk, hp] at this
  | some y =>
    have hy := List.find?_some h
    simp only [Bool.and_eq_true, decide_eq_true_eq] at hy
    rw [huniq y (List.mem_of_find?_eq_some h) hy.1 hy.2]

theorem Part.applyPending_some (p : Part) (i : StringId) (new : Nat) (w : Slot)
    (h : (p.string i).pendingPopulation = some new)
    (hw : (p.applyPopulation i new).link.waitingStringSet = some w) :
    p.applyPending i = (p.applyPopulation i new).answer .stringSet w.tag (clampStatus (decide (24 < b8 w.body 1)))
      (populationFields i (p.string i).population new) := by
  simp only [Part.applyPending, h, hw]

/-- R110 to R112: the end of an exchange with a population pending, before the round goes on. -/
theorem Part.endExchange_pending (p : Part) (i : StringId) (n new : Nat) (w : Slot)
    (hpos : (p.string i).roundPosition = some n) (hpend : (p.string i).pendingPopulation = some new)
    (hw : p.link.waitingStringSet = some w) :
    let x := p.string i
    ∃ c : Part, p.endExchange i = c.continueRound i ∧ c.time = p.time ∧
      c.string i = { x with
        exchange := false, population := new, pendingPopulation := none, roundPosition := some (n + 1)
        releasing := x.releasing ++ List.range' new (x.population - new) } ∧
      (∀ j, j ≠ i → c.string j = p.string j) ∧
      (⟨Kind.byte .stringSet, w.tag, (clampStatus (decide (24 < b8 w.body 1))).byte ::
        populationFields i x.population new, true⟩ : Reply) ∈ c.link.replies ∧
      (∀ k ∈ seatsBetween i new x.population, ({ p.seat k with
        node := .unconfigured, missCount := 0, baselines := none
        socket := (p.seat k).socket.down } : Seat).Same (c.seat k)) ∧
      (∀ k ∈ seatsBetween i x.population new, ({ p.seat k with
        node := .seeking, missCount := 0, baselines := none } : Seat).Same (c.seat k)) ∧
      (∀ k, k ∉ seatsBetween i new x.population → k ∉ seatsBetween i x.population new →
        (p.seat k).Same (c.seat k)) := by
  intro x
  obtain ⟨hover, hstring⟩ := p.exchangeOver_spec i
  have hend := p.endExchange_eq i
  generalize p.exchangeOver i = o at hover hstring hend
  have hlink : o.link = p.link := by rw [hover.rest]
  have hpop : (o.string i).population = x.population := by rw [hstring]
  obtain ⟨hstr, hothers, htime, -, -, -, -, -, hnoted, hout, hin, hstay⟩ := o.applyPopulation_spec i new
  have hslots : (o.applyPopulation i new).link.waitingStringSet = some w := by
    rw [hnoted.rest, hlink]
    exact hw
  rw [o.applyPending_some i new w (by rw [hstring]; exact hpend) hslots] at hend
  generalize o.applyPopulation i new = a at *
  rw [hpop] at hout hin hstay hend
  refine ⟨_, hend, ?_, ?_, fun j hj => ?_, ?_, fun k hk => ?_, fun k hk => ?_, fun k h1 h2 => ?_⟩
  · exact htime.trans (by rw [hover.rest])
  · refine (Part.string_setString _ _ _).trans ?_
    rw [Part.answer_string, hstr, hstring]
    simp only [x, hpos, Option.map_some]
  · exact (Part.string_setString_ne _ _ hj).trans ((hothers j hj).trans (hover.others j hj))
  · exact List.mem_append_right _ (List.mem_singleton_self _)
  · have hk' := hout k hk
    rw [hover.seats k] at hk'
    change Seat.Same _ (a.seat k)
    rw [Seat.Same, hk']
  · have hk' := hin k hk
    rw [hover.seats k] at hk'
    change Seat.Same _ (a.seat k)
    rw [Seat.Same, hk']
  · exact (hover.same k).trans (by rw [← hstay k h1 h2]; rfl)

/-- Settles O40. -/
theorem stringSetAppliesOrWaits : Obligations.StringSetAppliesOrWaits := by
  refine ⟨?_, ?_⟩
  · intro s tag body i hq hcan hlen hi x new place on
    have hexec : exec (.stringSet tag body) s =
        .next (s.onPart (Part.request .stringSet tag body (Part.takeStringSet tag body))) := rfl
    set p : Part := { s.part with link := s.part.takenLink .stringSet tag body } with hp
    have htaken := p.takeStringSet_named tag body i hlen hi
    refine ⟨fun hex => ?_, fun hex => ?_⟩
    · rw [s.onPart_request _ _ _ (Part.takeStringSet tag body) _ hcan (htaken.trans (if_pos hex)) hq] at hexec
      exact hexec
    · obtain ⟨hstring, hothers, htime, hann, hlevel, hsupply, hlight, hreports, -, hout, hin, hstay⟩ :=
        p.applyPopulation_spec i new
      have htaken' := htaken.trans (if_neg (by rw [show (p.string i).exchange = false from hex]; decide))
      rw [show min 24 (b8 body 1) = new from rfl] at htaken'
      generalize p.applyPopulation i new = q at *
      rw [s.onPart_request _ _ _ (Part.takeStringSet tag body) _ hcan htaken' (hreports.trans hq)] at hexec
      refine ⟨_, hexec, rfl, rfl, hstring, hothers, fun k => ?_, ?_, htime, hann, hsupply, hlevel, hlight⟩
      · have hmem := mem_seatsBetween i
        have hkept : (q.seat k).language = (p.seat k).language ∧ (q.seat k).volume = (p.seat k).volume := by
          by_cases h1 : k ∈ seatsBetween i new (p.string i).population
          · rw [hout k h1]
            exact ⟨rfl, rfl⟩
          · by_cases h2 : k ∈ seatsBetween i (p.string i).population new
            · rw [hin k h2]
              exact ⟨rfl, rfl⟩
            · rw [hstay k h1 h2]
              exact ⟨rfl, rfl⟩
        refine ⟨fun h1 h2 h3 => ?_, fun h1 h2 h3 => ?_, fun h => ?_, ?_, ?_⟩
        · have hk := hout k ((hmem _ _ _).2 ⟨h1, h2, h3⟩)
          exact ⟨congrArg Seat.node hk, congrArg Seat.missCount hk, congrArg Seat.baselines hk,
            fun hs => (congrArg (fun y : Seat => y.socket.state) hk).trans (congrArg Socket.state (if_neg hs))⟩
        · have hk := hin k ((hmem _ _ _).2 ⟨h1, h2, h3⟩)
          exact ⟨congrArg Seat.node hk, (congrArg Seat.socket hk).trans rfl⟩
        · refine hstay k (fun hk => ?_) (fun hk => ?_)
          · obtain ⟨h1, h2, h3⟩ := (hmem _ _ _).1 hk
            rcases h with h | h | h
            · exact h h1
            · exact absurd h2 (Nat.not_le.2 h.1)
            · exact absurd h3 (Nat.not_lt.2 h.2)
          · obtain ⟨h1, h2, h3⟩ := (hmem _ _ _).1 hk
            rcases h with h | h | h
            · exact h h1
            · exact absurd h2 (Nat.not_le.2 h.2)
            · exact absurd h3 (Nat.not_lt.2 h.1)
        · exact hkept.1
        · exact hkept.2
      · rw [← populationReply]
        refine Link.pump_keeps _ _ ?_
        exact List.mem_append_right _ (List.mem_singleton_self _)
  · intro s i n new w cmd hq x old hex hpos hn hpend hnew hw hkind hprog huniq hcmd s₀ releasing late
    obtain ⟨k, hk⟩ : ∃ k : SeatId, k.val = 24 * i.val + n := ⟨⟨24 * i.val + n, by omega⟩, rfl⟩
    obtain ⟨f, hf, hends⟩ : ∃ f, ExchangeEnd k f ∧ ∃ g : Part → Part, (∀ t : State, exec cmd t = .next (t.onPart g)) ∧
        ∀ p : Part, p.exchangeSeat i = some k → g p = (f p).endExchange i := by
      rcases hcmd with rfl | ⟨bytes, a, hread, rfl⟩
      · exact ⟨_, exchangeEnd_takeMiss k, Part.answerTimesOut i, fun _ => rfl, fun p hp => by
          simp only [Part.answerTimesOut, hp]⟩
      · exact ⟨_, exchangeEnd_takeAnswer k a, Part.nodeAnswers i bytes, fun _ => rfl, fun p hp => by
          simp only [Part.nodeAnswers, hp, positionOf_of hn hk, hread]⟩
    obtain ⟨g, hexec, hg⟩ := hends
    have hstring₀ : s₀.part.string i = { x with pendingPopulation := none } := Part.string_setString _ _ _
    have hg₀ := hg s₀.part (Part.exchangeSeat_of (by rw [hstring₀]; exact hex) (by rw [hstring₀]; exact hpos) hn hk)
    have hg₁ := hg s.part (Part.exchangeSeat_of hex hpos hn hk)
    have hevent₀ := hf.event s₀.part
    have hevent := hf.event s.part
    have hfstring : (f s.part).string i = x := by
      unfold Part.string
      rw [hevent.strings]
      rfl
    have hfstring₀ : (f s₀.part).string i = { x with pendingPopulation := none } := by
      rw [← hstring₀]
      unfold Part.string
      rw [hevent₀.strings]
    have hstep₀ := (f s₀.part).endExchange_roundStep i (by rw [hfstring₀])
    have hwait : (f s.part).link.waitingStringSet = some w := by
      have hslots := Link.waitingStringSet_of s.part.link w hw hkind hprog huniq
      rw [hevent.link.rest]
      exact hslots
    obtain ⟨c, hc, hctime, hcstring, hcothers, hreply, hout, hin, hstay⟩ :=
      (f s.part).endExchange_pending i n new w (by rw [hfstring]; exact hpos) (by rw [hfstring]; exact hpend) hwait
    rw [hfstring] at hcstring hreply hout hin hstay
    obtain ⟨q₀, hfin₀, -, ht₀⟩ := s₀.onPart_finish g
    obtain ⟨q, hfin, -, ht⟩ := s.onPart_finish g
    rw [hg₀] at hfin₀
    rw [hg₁, hc] at hfin
    have hlast := c.continueRound_roundStep i
    have hround := c.continueRound_string i (n + 1) (by rw [hcstring]) (by rw [hcstring]) (by rw [hcstring]; exact hnew)
    have htime : c.time = s.part.time := hctime.trans hevent.time
    rw [hcstring, htime] at hround
    have hstrings : ∀ j, q.string j = (c.continueRound i).string j := fun j => by
      unfold Part.string
      rw [hfin.strings]
    rw [← hstrings i] at hround
    obtain ⟨hpop, hnone, hrel, hon, hends, hagain₀, hagain⟩ := hround
    have hagree : ∀ j, ((f s.part).seat j).Same ((f s₀.part).seat j) := fun j => by
      by_cases hj : j = k
      · subst hj
        exact hf.seat s.part s₀.part rfl rfl rfl
      · rw [hevent.others j hj, hevent₀.others j hj]
        rfl
    have hbase : ∀ j, (q₀.seat j).Same ((f s.part).seat j) := fun j =>
      ((hagree j).trans ((hstep₀.same j).trans (hfin₀.same j))).symm
    have hsame : ∀ j, (c.seat j).Same (q.seat j) := fun j => (hlast.same j).trans (hfin.same j)
    refine ⟨_, _, (hexec s₀).trans (congrArg _ ht₀), (hexec s).trans (congrArg _ ht), rfl, rfl, ?_, ?_,
      fun j hj => ?_, fun j => ?_, ?_⟩
    · exact hfin.time.trans (by rw [hlast.rest]; exact htime)
    · exact ⟨hpop, hnone, hrel, hon, hends, hagain₀, hagain⟩
    · refine (hstrings j).trans ((hlast.others j hj).trans ((hcothers j hj).trans ?_))
      unfold Part.string
      rw [hevent.strings]
    · intro on place z₀ z
      have hmem := mem_seatsBetween i
      have hX := hbase j
      unfold Seat.Same at hX
      refine ⟨fun h1 h2 h3 => ?_, fun h1 h2 h3 => ?_, fun h => ?_, ?_⟩
      · have hz := (hout j ((hmem _ _ _).2 ⟨h1, h2, h3⟩)).trans (hsame j)
        unfold Seat.Same at hz
        rw [hX] at hz
        exact ⟨congrArg Seat.node hz, congrArg Seat.missCount hz, congrArg Seat.baselines hz,
          fun hs => (congrArg Seat.socket hz).trans (if_pos hs),
          fun hs => (congrArg (fun y : Seat => y.socket.state) hz).trans (congrArg Socket.state (if_neg hs))⟩
      · have hz := (hin j ((hmem _ _ _).2 ⟨h1, h2, h3⟩)).trans (hsame j)
        unfold Seat.Same at hz
        rw [hX] at hz
        exact ⟨congrArg Seat.node hz, congrArg Seat.missCount hz, congrArg Seat.baselines hz,
          (congrArg Seat.socket hz).trans rfl⟩
      · have h1 : j ∉ seatsBetween i new old := fun hj => by
          obtain ⟨g1, g2, g3⟩ := (hmem _ _ _).1 hj
          rcases h with h | h | h
          · exact h g1
          · exact absurd g2 (Nat.not_le.2 h.1)
          · exact absurd g3 (Nat.not_lt.2 h.2)
        have h2 : j ∉ seatsBetween i old new := fun hj => by
          obtain ⟨g1, g2, g3⟩ := (hmem _ _ _).1 hj
          rcases h with h | h | h
          · exact h g1
          · exact absurd g2 (Nat.not_le.2 h.2)
          · exact absurd g3 (Nat.not_lt.2 h.1)
        have hz := (hstay j h1 h2).trans (hsame j)
        unfold Seat.Same at hz
        rw [hX] at hz
        exact ⟨(congrArg Seat.node hz).trans rfl, (congrArg Seat.missCount hz).trans rfl,
          (congrArg Seat.baselines hz).trans rfl, (congrArg Seat.socket hz).trans rfl⟩
      · have hkept : z.language = ((f s.part).seat j).language ∧ z.volume = ((f s.part).seat j).volume := by
          by_cases h1 : j ∈ seatsBetween i new old
          · have hz := (hout j h1).trans (hsame j)
            unfold Seat.Same at hz
            exact ⟨(congrArg Seat.language hz).trans rfl, (congrArg Seat.volume hz).trans rfl⟩
          · by_cases h2 : j ∈ seatsBetween i old new
            · have hz := (hin j h2).trans (hsame j)
              unfold Seat.Same at hz
              exact ⟨(congrArg Seat.language hz).trans rfl, (congrArg Seat.volume hz).trans rfl⟩
            · have hz := (hstay j h1 h2).trans (hsame j)
              unfold Seat.Same at hz
              exact ⟨(congrArg Seat.language hz).trans rfl, (congrArg Seat.volume hz).trans rfl⟩
        rw [hX] at hkept
        exact hkept
    · rw [populationReply] at hreply
      refine Link.pump_keeps _ _ ?_
      rw [hfin.link.rest, hlast.rest]
      exact hreply

end Sys2Proof.Machine
end

section
/-! The loader's fills, which take a page, wait for one or go on without one (R23 to R25, R13). -/

namespace Sys2Proof.Machine

/-! ### A clip's new page (R24) -/

/-- R24: the record of a clip with a page chained behind its last one. -/
def Clip.chained (x : Clip) (page : Nat) : Clip :=
  { x with firstPage := some (x.firstPage.getD page), lastPage := some page, pageCount := x.pageCount + 1 }

/-- R24: the entry of a page that a clip takes. -/
def Clip.newEntry (x : Clip) (c : ClipId) : PageEntry :=
  { state := .clip, owner := some c, index := some x.pageCount, next := none }

/-- The Free List written. -/
def Part.withFree (rest : List PageRun) (p : Part) : Part :=
  { p with store := { p.store with freeList := rest } }

theorem Part.allocPage_eq (c : ClipId) (p : Part) {page : Nat} {rest : List PageRun}
    (h : runsPop p.store.freeList = some (page, rest)) :
    let q := (p.withFree rest).setPage page ((p.clip c).newEntry c)
    p.allocPage c = Part.setClip (match (p.clip c).lastPage with
      | none => q
      | some g => q.setPage g { q.pageEntry g with next := some page }) c ((p.clip c).chained page) := by
  intro q
  unfold Part.allocPage Clip.chained
  simp only [h]
  cases (p.clip c).firstPage <;> rfl

/-- R24: the head of the Free List becomes the clip's last page. -/
theorem Part.allocPage_spec (c : ClipId) (p : Part) {page : Nat} {more : List Nat}
    (h : runsPages p.store.freeList = page :: more) :
    let x := p.clip c
    let q := p.allocPage c
    q.clip c = x.chained page ∧ (∀ d, d ≠ c → q.clip d = p.clip d) ∧
      (x.lastPage ≠ some page → q.pageEntry page = x.newEntry c) ∧
      (∀ g, x.lastPage = some g → (q.pageEntry g).next = some page) ∧
      (∀ n, n ≠ page → x.lastPage ≠ some n → q.pageEntry n = p.pageEntry n) ∧
      runsPages q.store.freeList = more ∧
      q = { p with store := { p.store with
        clips := q.store.clips, pageMap := q.store.pageMap, freeList := q.store.freeList } } := by
  intro x q
  obtain ⟨rest, hpop⟩ : ∃ rest, runsPop p.store.freeList = some (page, rest) := by
    cases hp : runsPop p.store.freeList with
    | none => exact absurd ((runsPop_none _).mp hp) (by simp [h])
    | some a =>
      obtain ⟨n, rest⟩ := a
      have := (runsPop_some _ _ _ hp).symm.trans h
      exact ⟨rest, by rw [(List.cons.inj this).1]⟩
  have hmore : runsPages rest = more := (List.cons.inj ((runsPop_some _ _ _ hpop).symm.trans h)).2
  have hq : q = _ := p.allocPage_eq c hpop
  have hclips : ∀ (u : Part), (∀ d, u.clip d = p.clip d) →
      (Part.setClip u c (x.chained page)).clip c = x.chained page ∧
      ∀ d, d ≠ c → (Part.setClip u c (x.chained page)).clip d = p.clip d := fun u hu =>
    ⟨Part.clip_setClip_same _ _ _, fun d hd => by rw [Part.clip_setClip, if_neg hd, hu]⟩
  rcases Option.eq_none_or_eq_some x.lastPage with hlast | ⟨g, hlast⟩
  · simp only [show (p.clip c).lastPage = none from hlast] at hq
    have hentry : ∀ n, q.pageEntry n = if n = page then x.newEntry c else p.pageEntry n := fun n => by
      rw [hq]
      exact Part.pageEntry_setPage (p.withFree rest) page n (x.newEntry c)
    obtain ⟨hown, hothers⟩ := hclips
      ((p.withFree rest).setPage page (x.newEntry c)) fun _ => rfl
    refine ⟨?_, ?_, fun _ => ?_, fun g hg => ?_, fun n hn _ => ?_, ?_, ?_⟩
    · rw [hq]
      exact hown
    · rw [hq]
      exact hothers
    · rw [hentry, if_pos rfl]
    · rw [hlast] at hg
      exact absurd hg (by simp)
    · rw [hentry, if_neg hn]
    · rw [hq]
      exact hmore
    · rw [hq]
      rfl
  · simp only [show (p.clip c).lastPage = some g from hlast] at hq
    have hentry : ∀ n, q.pageEntry n =
        if n = g then { (if g = page then x.newEntry c else p.pageEntry g) with next := some page }
        else if n = page then x.newEntry c else p.pageEntry n := fun n => by
      have hfirst := Part.pageEntry_setPage (p.withFree rest) page
      rw [hq]
      refine (Part.pageEntry_setPage ((p.withFree rest).setPage page (x.newEntry c)) g n _).trans ?_
      rw [hfirst, hfirst]
      rfl
    obtain ⟨hown, hothers⟩ := hclips
      (Part.setPage ((p.withFree rest).setPage page (x.newEntry c)) g
        { ((p.withFree rest).setPage page
            (x.newEntry c)).pageEntry g with next := some page }) fun _ => rfl
    refine ⟨?_, ?_, fun hne => ?_, fun g' hg => ?_, fun n hn hne => ?_, ?_, ?_⟩
    · rw [hq]
      exact hown
    · rw [hq]
      exact hothers
    · rw [hentry, if_neg fun he => hne (hlast.trans (congrArg some he.symm)), if_pos rfl]
    · rw [hlast] at hg
      rw [← Option.some.inj hg, hentry, if_pos rfl]
    · rw [hentry, if_neg fun he => hne (hlast.trans (congrArg some he.symm)), if_neg hn]
    · rw [hq]
      exact hmore
    · rw [hq]
      rfl

/-! ### The loader's next write (R25) -/

theorem Part.nextFillWrite_some (tag : Byte) (c : ClipId) (data : Bytes) (p : Part) (hd : data ≠ [])
    (hm : p.mem.state = .ready) :
    p.nextFillWrite tag c data = { p with
      store := { p.store with
        job := .fillWrite tag c (data.drop (256 - (p.clip c).loaded % 256))
        buffer := data.take (256 - (p.clip c).loaded % 256) }
      mem := { p.mem with waiting := vset p.mem.waiting 14 true } } := by
  cases data with
  | nil => exact absurd rfl hd
  | cons b rest => exact Part.placeRequest_ready _ _ hm

/-- R24, R25: a fill that needs no page begins its writes. -/
theorem Part.beginFill_inside (tag : Byte) (c : ClipId) (data : Bytes) (p : Part)
    (h : (p.clip c).loaded + data.length ≤ 4096 * (p.clip c).pageCount) :
    p.beginFill tag c data = p.nextFillWrite tag c data := by
  unfold Part.beginFill
  simp only
  rw [if_neg]
  simp only [Clip.needsPage, decide_eq_true_eq, not_lt]
  exact h

/-- R24, R25: a fill that needs a page takes it and begins its writes. -/
theorem Part.beginFill_beyond (tag : Byte) (c : ClipId) (data : Bytes) (p : Part)
    (h : 4096 * (p.clip c).pageCount < (p.clip c).loaded + data.length) :
    p.beginFill tag c data = (p.allocPage c).nextFillWrite tag c data := by
  unfold Part.beginFill
  simp only
  rw [if_pos]
  simp only [Clip.needsPage, decide_eq_true_eq]
  exact h

/-- R24: the state of a clip and the loader after a fill has taken its page. -/
theorem Part.beginFill_page (tag : Byte) (c : ClipId) (data : Bytes) (p : Part) {page : Nat}
    {more : List Nat} (hd : data ≠ []) (hm : p.mem.state = .ready)
    (h : 4096 * (p.clip c).pageCount < (p.clip c).loaded + data.length)
    (hfree : runsPages p.store.freeList = page :: more) :
    let room := 256 - (p.clip c).loaded % 256
    p.beginFill tag c data = { p with
      store := { p.store with
        clips := (p.allocPage c).store.clips, pageMap := (p.allocPage c).store.pageMap
        freeList := (p.allocPage c).store.freeList
        job := .fillWrite tag c (data.drop room), buffer := data.take room }
      mem := { p.mem with waiting := vset p.mem.waiting 14 true } } := by
  obtain ⟨hclip, _, _, _, _, _, honly⟩ := p.allocPage_spec c hfree
  have hmem : (p.allocPage c).mem = p.mem := by rw [honly]
  have hloaded : ((p.allocPage c).clip c).loaded = (p.clip c).loaded := by rw [hclip]; rfl
  rw [Part.beginFill_beyond _ _ _ _ h, Part.nextFillWrite_some _ _ _ _ hd (by rw [hmem, hm]), hloaded]
  generalize p.allocPage c = q at honly
  intro room
  rw [honly]

/-! ### CLIP-FILL (R23, R24) -/

theorem readFill_long {body : Bytes} (h2 : (body.drop 6).length % 2 = 0)
    (h3 : 2 ≤ (body.drop 6).length) (h4 : (body.drop 6).length ≤ 1024) :
    readFill body = some ⟨b16 body 0, b32 body 2, body.drop 6⟩ := by
  unfold readFill
  exact if_pos ⟨h2, h3, h4⟩

/-- R23: a fill at the end of a LOADING clip passes its checks. -/
theorem Part.fillStatus_ok {body : Bytes} {p : Part} {q : FillReq} {c : ClipId} (h : readFill body = some q)
    (hc : q.clip = c.val) (ho : q.offset = (p.clip c).loaded) (hs : (p.clip c).state = .loading)
    (hd : ∀ d, (p.clip c).declared = some d → (p.clip c).loaded + q.data.length ≤ 2 * d) :
    p.fillStatus body = .ok (q, c) := by
  obtain ⟨_, _, hloading⟩ := p.fillStatus_state body q c h hc
  refine (hloading hs).trans ((if_neg (not_not.mpr ho)).trans (if_neg ?_))
  intro hany
  rw [Option.any_eq_true] at hany
  obtain ⟨d, hsome, hlt⟩ := hany
  have := hd d hsome
  simp only [decide_eq_true_eq] at hlt
  omega

/-- R24: a fill with a page at hand, or with none needed, begins. -/
theorem Part.takeClipFill_begins {tag : Byte} {body : Bytes} {p : Part} {q : FillReq} {c : ClipId}
    (h : p.fillStatus body = .ok (q, c))
    (hpage : (p.clip c).loaded + q.data.length ≤ 4096 * (p.clip c).pageCount ∨
      runsPages p.store.freeList ≠ []) :
    p.takeClipFill tag body = p.beginFill tag c q.data := by
  unfold Part.takeClipFill
  simp only [h]
  refine if_neg fun ⟨hneeds, hnone⟩ => ?_
  rw [← runsPages_length, List.length_eq_zero_iff] at hnone
  simp only [Clip.needsPage, decide_eq_true_eq] at hneeds
  rcases hpage with hin | hsome
  · exact absurd hneeds (not_lt.mpr hin)
  · exact hsome hnone

/-- R24: a fill whose clip needs a page waits while the list is empty and the batch holds pages. -/
theorem Part.takeClipFill_waits {tag : Byte} {body : Bytes} {p : Part} {q : FillReq} {c : ClipId}
    (h : p.fillStatus body = .ok (q, c))
    (hneeds : 4096 * (p.clip c).pageCount < (p.clip c).loaded + q.data.length)
    (hfree : runsPages p.store.freeList = []) (hbatch : p.store.check.batch ≠ []) :
    p.takeClipFill tag body = p.setJob (.fillWait tag c q.data) [] := by
  have hnone : runsLength p.store.freeList = 0 := by rw [← runsPages_length, hfree]; rfl
  unfold Part.takeClipFill
  simp only [h]
  rw [if_pos ⟨by simpa only [Clip.needsPage, decide_eq_true_eq] using hneeds, hnone⟩, if_neg hbatch]

/-- Settles O23. -/
theorem clipFillBeginsItsWrites : Obligations.ClipFillBeginsItsWrites := by
  intro s tag body c hq hmem hcan _ data x heven htwo hmost hclip hoff hstate hdecl room
  have hread := readFill_long heven htwo hmost
  set p : Part := { s.part with link := s.part.takenLink .clipFill tag body } with hp
  have hok : p.fillStatus body = .ok (⟨b16 body 0, b32 body 2, data⟩, c) :=
    Part.fillStatus_ok (p := p) hread hclip hoff hstate hdecl
  have hdata : data ≠ [] := fun hnil => by simp [hnil] at htwo
  have hexec : exec (.clipFill tag body) s =
    .next (s.onPart (Part.request .clipFill tag body (Part.takeClipFill tag body))) := rfl
  refine ⟨fun hin => ?_, fun hneeds hfree hbatch => ?_, fun page rest hneeds hpop => ?_⟩
  · have htaken := (Part.takeClipFill_begins (tag := tag) hok (.inl hin)).trans
      ((Part.beginFill_inside _ _ _ p hin).trans (Part.nextFillWrite_some _ _ _ _ hdata hmem))
    exact congrArg _ (s.onPart_request _ _ _ (Part.takeClipFill tag body) _ hcan htaken hq)
  · have htaken := Part.takeClipFill_waits (tag := tag) (p := p) hok hneeds hfree hbatch
    exact congrArg _ (s.onPart_request _ _ _ (Part.takeClipFill tag body) _ hcan htaken hq)
  · have hfree := runsPop_some _ _ _ hpop
    have htaken := (Part.takeClipFill_begins (tag := tag) (p := p) hok
      (.inr (by rw [show p.store.freeList = s.part.store.freeList from rfl, hfree]; simp))).trans
      (Part.beginFill_page tag c data p hdata hmem hneeds hfree)
    obtain ⟨hclip, hothers, hnew, hlast, hentries, hmore, _⟩ := p.allocPage_spec c hfree
    generalize p.allocPage c = t at htaken hclip hothers hnew hlast hentries hmore
    rw [s.onPart_request _ _ _ (Part.takeClipFill tag body) _ hcan htaken hq] at hexec
    exact ⟨_, hexec, rfl, rfl, rfl, hfree.trans (congrArg _ hmore.symm), hclip, hothers, hnew, hlast,
      hentries, rfl, rfl⟩

/-! ### FILL_PAGE_WAIT_END (R13, R24) -/

/-- R24: with a page free the waiting fill begins, and a check whose batch has ended goes on. -/
theorem Part.fillPageWaitEnd_page (p : Part) {tag : Byte} {c : ClipId} {data : Bytes}
    (hjob : p.store.job = .fillWait tag c data) (hfree : runsPages p.store.freeList ≠ []) :
    p.fillPageWaitEnd =
      if (p.beginFill tag c data).store.check.running = true ∧ (p.beginFill tag c data).store.check.batch = []
      then (p.beginFill tag c data).continueCheck else p.beginFill tag c data := by
  have hsome : runsLength p.store.freeList ≠ 0 := by
    rw [← runsPages_length]
    exact fun h => hfree (List.length_eq_zero_iff.mp h)
  unfold Part.fillPageWaitEnd
  simp only [hjob]
  rw [if_neg fun h => hsome h.1, if_neg hsome]

theorem Part.fillPageWaitEnd_empty (p : Part) {tag : Byte} {c : ClipId} {data : Bytes}
    (hjob : p.store.job = .fillWait tag c data) (hfree : runsPages p.store.freeList = [])
    (hbatch : p.store.check.batch = []) :
    let q := (p.setJob .none []).answer .clipFill tag .full (p.fillFields c)
    p.fillPageWaitEnd = if p.store.check.running = true then q.continueCheck else q := by
  have hnone : runsLength p.store.freeList = 0 := by rw [← runsPages_length, hfree]; rfl
  unfold Part.fillPageWaitEnd
  simp only [hjob]
  rw [if_neg fun h => h.2 hbatch, if_pos hnone]
  exact if_congr (and_iff_left hbatch) rfl rfl

/-- R11, R13: with no page free the check ends, its target reached or not. -/
theorem Part.continueCheck_empty (p : Part) (h : runsPages p.store.freeList = []) :
    p.continueCheck = p.endCheck := by
  unfold Part.continueCheck
  split
  · rfl
  · exact p.formBatch_empty h

/-- R11, R13: the pages of the next batch, none when the target is reached or no page is free. -/
def Check.nextPages (k : Check) (free : List Nat) : List Nat :=
  if k.tested < k.target then free.take (min 16 (k.target - k.tested)) else []

/-- R11, R13: the check ends when there is no page for the next batch. -/
theorem Part.continueCheck_ends (p : Part) (h : p.store.check.nextPages (runsPages p.store.freeList) = []) :
    p.continueCheck = p.endCheck := by
  unfold Part.continueCheck
  split
  · rfl
  · rename_i hless
    unfold Check.nextPages at h
    rw [if_pos (by omega), List.take_eq_nil_iff] at h
    exact p.formBatch_empty (h.resolve_left (by omega))

/-- R11, R13: the next batch is formed from the list's head. -/
theorem Part.continueCheck_forms (p : Part) (hm : p.mem.state = .ready)
    (h : p.store.check.nextPages (runsPages p.store.freeList) ≠ []) :
    let pages := p.store.check.nextPages (runsPages p.store.freeList)
    let q := p.continueCheck
    q = { p with
      store := { p.store with
        pageMap := q.store.pageMap, freeList := q.store.freeList
        check := { p.store.check with batch := pages.map fun g => ⟨g, .untested⟩, made := 0 } }
      mem := { p.mem with waiting := vset p.mem.waiting 15 true } } ∧
      runsPages q.store.freeList = (runsPages p.store.freeList).drop pages.length ∧
      ∀ g, q.pageEntry g = if g ∈ pages then ⟨.check, none, none, none⟩ else p.pageEntry g := by
  have hless : p.store.check.tested < p.store.check.target := by
    by_contra hn
    exact h (if_neg hn)
  have hfree : runsPages p.store.freeList ≠ [] := fun hnil => h (by
    unfold Check.nextPages
    rw [hnil, List.take_nil, ite_self])
  set n := min 16 (min (runsPages p.store.freeList).length (p.store.check.target - p.store.check.tested))
    with hn
  have hpages : p.store.check.nextPages (runsPages p.store.freeList) =
      (runsPages p.store.freeList).take n := by
    unfold Check.nextPages
    rw [if_pos hless, hn, List.take_eq_take_iff]
    omega
  have hlength : ((runsPages p.store.freeList).take n).length = n := by
    rw [List.length_take]
    omega
  obtain ⟨hform, hdrop, hentry⟩ := p.formBatch_some n hn hfree
  have hcont : p.continueCheck = p.formBatch := if_neg (by omega)
  intro pages q
  have hq : q = p.formBatch := hcont
  rw [show pages = _ from hpages, hq, hlength]
  refine ⟨?_, hdrop, hentry⟩
  rw [Part.placeRequest_ready _ _ (by exact hm)] at hform
  exact hform

/-- R11, R13: a check that may be due its next batch. -/
def Part.checkGoesOn (p : Part) : Part :=
  if p.store.check.running = true ∧ p.store.check.batch = [] then p.continueCheck else p

/-- R11, R13: the next batch when it is due, or the check's end when no page is left for it. -/
theorem Part.checkGoesOn_spec (p : Part) (hm : p.mem.state = .ready) :
    let k := p.store.check
    let due := k.running = true ∧ k.batch = []
    let next := if due ∧ k.tested < k.target then
      (runsPages p.store.freeList).take (min 16 (k.target - k.tested)) else []
    let r := p.checkGoesOn
    (∀ g, r.pageEntry g = if g ∈ next then ⟨.check, none, none, none⟩ else p.pageEntry g) ∧
      runsPages r.store.freeList = (runsPages p.store.freeList).drop next.length ∧
      r = { p with
        store := { p.store with
          pageMap := r.store.pageMap, freeList := r.store.freeList
          check := if due then
              if next = [] then { k with running := false }
              else { k with batch := next.map (fun n => ⟨n, .untested⟩), made := 0 }
            else k }
        mem := if next = [] then p.mem else { p.mem with waiting := vset p.mem.waiting 15 true }
        link := if due ∧ next = [] then p.link.answer .storeCheck k.tag
          (0 :: e32 k.target ++ e32 k.tested ++ e32 k.withdrawn) else p.link } := by
  intro k due next r
  by_cases hdue : due
  · have hr : r = p.continueCheck := if_pos hdue
    have hnext : next = k.nextPages (runsPages p.store.freeList) := by
      by_cases hless : k.tested < k.target
      · exact (if_pos ⟨hdue, hless⟩).trans (if_pos hless).symm
      · exact (if_neg fun h => hless h.2).trans (if_neg hless).symm
    by_cases hnil : next = []
    · have hend : r = p.endCheck := hr.trans (p.continueCheck_ends (hnext.symm.trans hnil))
      refine ⟨fun g => ?_, ?_, ?_⟩
      · rw [hnil, if_neg (by simp), hend]
        rfl
      · rw [hnil, hend]
        rfl
      · rw [if_pos hdue, if_pos hnil, if_pos hnil, if_pos ⟨hdue, hnil⟩, hend]
        rfl
    · obtain ⟨hform, hdrop, hentry⟩ := p.continueCheck_forms hm (by
        rw [show p.store.check = k from rfl, ← hnext]
        exact hnil)
      rw [show p.store.check = k from rfl, ← hnext, ← hr] at hform hdrop hentry
      refine ⟨hentry, hdrop, ?_⟩
      rw [if_pos hdue, if_neg hnil, if_neg hnil, if_neg fun h => hnil h.2]
      exact hform
  · have hr : r = p := if_neg hdue
    have hnil : next = [] := if_neg fun h => hdue h.1
    refine ⟨fun g => ?_, ?_, ?_⟩
    · rw [hnil, if_neg (by simp), hr]
    · rw [hnil, hr]
      rfl
    · rw [if_neg hdue, if_pos hnil, if_neg fun h => hdue h.1, hr]

/-- Settles O21. -/
theorem waitingFillEndsItsWait : Obligations.WaitingFillEndsItsWait := by
  intro s tag c data hq hmem hjob k x due ended
  have hexec : exec .fillPageWaitEnd s = .next (s.onPart Part.fillPageWaitEnd) := rfl
  refine ⟨fun hfree hbatch => ?_, fun hfree hbatch => ?_, fun page more hfree hdata hneeds => ?_⟩
  · have hnone : runsLength s.part.store.freeList = 0 := by rw [← runsPages_length, hfree]; rfl
    have hsame : s.part.fillPageWaitEnd = s.part := by
      unfold Part.fillPageWaitEnd
      simp only [hjob]
      exact if_pos ⟨hnone, hbatch⟩
    exact congrArg _ (s.onPart_eq _ _ hsame hq)
  · intro refused
    have hend := s.part.fillPageWaitEnd_empty hjob hfree hbatch
    by_cases hrun : k.running = true
    · have hcont := Part.continueCheck_empty ((s.part.setJob .none []).answer .clipFill tag .full
        (s.part.fillFields c)) hfree
      refine congrArg _ ((s.onPart_eq _ _ (hend.trans ((if_pos hrun).trans hcont)) hq).trans ?_)
      rw [if_pos hrun]
      rfl
    · refine congrArg _ ((s.onPart_eq _ _ (hend.trans (if_neg hrun)) hq).trans ?_)
      have hsame : { k with running := false } = k := by
        have : k.running = false := by simpa using hrun
        rw [← this]
      rw [if_neg hrun, hsame]
      rfl
  · intro room next asked
    have hbegin := Part.beginFill_page tag c data s.part hdata hmem hneeds hfree
    obtain ⟨hclip, hothers, hnew, _, _, hmore, _⟩ := s.part.allocPage_spec c hfree
    have hend : s.part.fillPageWaitEnd = (s.part.beginFill tag c data).checkGoesOn :=
      s.part.fillPageWaitEnd_page hjob (by rw [hfree]; simp)
    generalize s.part.beginFill tag c data = q at hbegin hend
    generalize s.part.allocPage c = t at hbegin hclip hothers hnew hmore
    have hcheck : q.store.check = k := by rw [hbegin]
    have hqfree : runsPages q.store.freeList = more := by rw [hbegin]; exact hmore
    have hqentry : ∀ n, q.pageEntry n = t.pageEntry n := fun n => by rw [hbegin]; rfl
    have hqclip : ∀ d, q.clip d = t.clip d := fun d => by rw [hbegin]; rfl
    obtain ⟨hentry, hdrop, honly⟩ := q.checkGoesOn_spec (by rw [hbegin]; exact hmem)
    rw [hcheck, hqfree] at hentry hdrop honly
    generalize q.checkGoesOn = r at hend hentry hdrop honly
    have hrclip : ∀ d, r.clip d = t.clip d := fun d => by
      rw [← hqclip, honly]
      rfl
    rw [s.onPart_eq _ r hend (by rw [honly, hbegin]; exact hq)] at hexec
    refine ⟨_, hexec, rfl, rfl, (hrclip c).trans hclip, fun d hd => (hrclip d).trans (hothers d hd),
      fun hout hlast => ?_, fun n hn => ?_, hdrop, ?_, ?_, ?_, ?_⟩
    · exact (hentry page).trans ((if_neg hout).trans ((hqentry page).trans (hnew hlast)))
    · exact congrArg PageEntry.state ((hentry n).trans (if_pos hn))
    · change r.store.job = _
      rw [honly, hbegin]
    · change r.store.buffer = _
      rw [honly, hbegin]
    · change r.store.check = _
      rw [honly]
    · have hmemr : r.mem = { s.part.mem with
          waiting := if next = [] then asked else vset asked 15 true } := by
        rw [honly, hbegin]
        exact (apply_ite (fun w => { s.part.mem with waiting := w }) (next = []) asked _).symm
      have hlink : r.link = if due ∧ next = [] then ended s.part.link else s.part.link := by
        rw [honly, hbegin]
      have hrest : r = { s.part with store := r.store, mem := r.mem, link := r.link } := by
        rw [honly, hbegin]
      rw [hmemr, hlink] at hrest
      exact congrArg Part.served hrest

end Sys2Proof.Machine
end

section
/-! The sample periods of the readers and the frame of the audio bus (R43 to R46, R51). -/

namespace Sys2Proof.Machine

/-! ### A reader's end (R44, R46, R32, R33) -/

/-- R44, R46: what the end of a reader leaves. -/
theorem Part.endReader_spec (p : Part) (r : ReaderId) (kind : ReportKind) (c : ClipId)
    (hc : (p.reader r).clip = some c) :
    let k := p.clip c
    let q := p.endReader r kind
    q.reader r = Reader.idle (p.reader r).owner ∧ (∀ o, o ≠ r → q.reader o = p.reader o) ∧
      q.bank.reports = p.bank.reports ++ [⟨r, (p.reader r).owner, kind⟩] ∧
      (k.state ≠ .retiring ∨ 2 ≤ k.hold → q.clip c = { k with hold := k.hold - 1 }) ∧
      (k.state = .retiring → k.hold ≤ 1 → q.clip c = Clip.empty) ∧
      ∀ d, d ≠ c → q.clip d = p.clip d := by
  obtain ⟨hothers, hstop, _⟩ := p.stopRelease_reader r
  obtain ⟨hreader, hclips⟩ := hstop c hc
  obtain ⟨hkept, hfreed, hclip⟩ := p.releaseHold_clip c
  have hends : ∀ d, (p.endReader r kind).clip d = (p.releaseHold c).clip d := hclips
  refine ⟨hreader, hothers, ?_, fun h => ?_, fun h1 h2 => ?_, fun d hd => ?_⟩
  · change (p.stopRelease r).bank.reports ++ [⟨r, ((p.stopRelease r).reader r).owner, kind⟩] = _
    rw [hreader, Part.stopRelease_reports]
    rfl
  · exact (hends c).trans ((congrArg (fun q => Part.clip q c) (hkept h)).trans (Part.clip_setClip_same _ _ _))
  · exact (hends c).trans (hfreed h1 h2)
  · exact (hends d).trans (hclip d hd)

/-- Settles O30. -/
theorem readerEndsAtStopPointOrClipEnd : Obligations.ReaderEndsAtStopPointOrClipEnd := by
  intro p r c hc x k ended
  have hended : ∀ kind, p.samplePeriod r = (0, p.endReader r kind) → ended kind := by
    intro kind h
    refine ⟨by rw [h], ?_⟩
    rw [h]
    exact p.endReader_spec r kind c hc
  refine ⟨fun n (hstop : (p.reader r).stopPoint = some n) hpast hlast => hended .cut ?_,
    fun (hstop : (p.reader r).stopPoint = none) (hrun : (p.reader r).state = .running)
      (hpast : (p.clip c).pastEnd (p.reader r).position = true) => hended .completed ?_⟩
  · have hdue : (p.reader r).cutDue (p.clip c) = true := by
      simp only [Reader.cutDue, hstop, Bool.and_eq_true, decide_eq_true_eq, Bool.not_eq_true']
      exact ⟨hpast, hlast⟩
    simp only [Part.samplePeriod, hc, hdue, if_true]
  · have hdue : ((p.reader r).cutDue (p.clip c)) = false := by
      simp only [Reader.cutDue, hstop]
    simp only [Part.samplePeriod, hc, hdue, hrun, hpast, if_true]
    exact if_neg (by simp)

/-! ### Output (R43, R45) -/

/-- The reader comes neither to a stop point nor to its clip's end in this sample period, and has the block of
its position. -/
def Part.Calm (p : Part) (r : ReaderId) : Prop :=
  ∀ c, (p.reader r).clip = some c →
    (∀ n, (p.reader r).stopPoint = some n → (p.reader r).position < n) ∧
    ((p.reader r).state = .running → (p.reader r).buffer ≠ [] ∧
      (p.clip c).pastEnd (p.reader r).position = false)

/-- R43: the sample that a reader gives in a sample period. -/
def Part.sampleNow (p : Part) (r : ReaderId) : BitVec 16 :=
  if (p.reader r).clip ≠ none ∧ (p.reader r).state = .running then
    sampleOf ((p.reader r).buffer.headD []) ((p.reader r).position % 128)
  else 0

/-- R43, R45: a reader after its sample period. -/
def Part.Advanced (p : Part) (r : ReaderId) (y : Reader) : Prop :=
  (∀ c, (p.reader r).clip = some c → (p.reader r).state = .running →
    let x := p.reader r
    let buffer := if (x.position + 1) % 128 = 0 then x.buffer.tail else x.buffer
    y = { x with
      position := x.position + 1
      buffer := buffer
      state := if (p.clip c).state = .loading ∧ buffer = [] ∧ x.nextBlock = (p.clip c).writtenBlocks
        then .starved else .running
      page := y.page
      outstanding := y.outstanding }) ∧
  ((p.reader r).clip = none ∨ (p.reader r).state ≠ .running → y = p.reader r)

/-- What a sample period changes of the part: read requests and one reader. -/
def Part.sampled (w : Vector Bool 16) (v : Vector Reader 14) (p : Part) : Part :=
  { p with mem := { p.mem with waiting := w }, bank := { p.bank with readers := v } }

theorem Part.fetch_sampled (p : Part) (r : ReaderId) (x : Reader) :
    ∃ w page out, (p.setReader r x).fetch r =
      p.sampled w (vset p.bank.readers r { x with page := page, outstanding := out }) := by
  obtain ⟨w, page, out, hf, _⟩ := Part.fetch_only r (p.setReader r x)
  refine ⟨w, page, out, hf.trans ?_⟩
  rw [Part.reader_setReader]
  simp only [Part.setReader, vset_vset]
  rfl

theorem Part.sampled_same (p : Part) (r : ReaderId) :
    p.sampled p.mem.waiting (vset p.bank.readers r (p.reader r)) = p := by
  rw [Part.reader, vset_vget]
  rfl

/-- R43, R45: the output of a RUNNING reader that has its sample. -/
theorem Part.outputSample_spec (p : Part) (r : ReaderId) (c : ClipId) (hc : (p.reader r).clip = some c)
    (hrun : (p.reader r).state = .running) (hb : (p.reader r).buffer ≠ []) :
    ∃ w y, p.outputSample r = (p.sampleNow r, p.sampled w (vset p.bank.readers r y)) ∧ p.Advanced r y := by
  obtain ⟨block, rest, hbuf⟩ := List.exists_cons_of_ne_nil hb
  have hsample : p.sampleNow r = sampleOf block ((p.reader r).position % 128) := by
    unfold Part.sampleNow
    rw [if_pos ⟨by simp [hc], hrun⟩, hbuf]
    rfl
  have hadvanced : ∀ y : Reader, (∀ k, k = p.clip c →
      let x := p.reader r
      let buffer := if (x.position + 1) % 128 = 0 then rest else block :: rest
      y = { x with
        position := x.position + 1, buffer := buffer
        state := if k.state = .loading ∧ buffer = [] ∧ x.nextBlock = k.writtenBlocks then .starved
          else .running
        page := y.page, outstanding := y.outstanding }) → p.Advanced r y := by
    intro y hy
    refine ⟨fun d hd _ => ?_, fun h => ?_⟩
    · have hdc : d = c := Option.some.inj (hd.symm.trans hc)
      have := hy _ rfl
      simp only [hbuf, List.tail_cons, hdc]
      exact this
    · rcases h with h | h
      · exact absurd (hc.symm.trans h) (by simp)
      · exact absurd hrun h
  have hout : p.outputSample r = (if (p.clip c).state = .loading ∧
        (if ((p.reader r).position + 1) % 128 = 0 then rest else block :: rest) = [] ∧
        (p.reader r).nextBlock = (p.clip c).writtenBlocks then
      (sampleOf block ((p.reader r).position % 128), p.setReader r { p.reader r with
        position := (p.reader r).position + 1
        buffer := if ((p.reader r).position + 1) % 128 = 0 then rest else block :: rest
        state := .starved })
    else (sampleOf block ((p.reader r).position % 128), (p.setReader r { p.reader r with
        position := (p.reader r).position + 1
        buffer := if ((p.reader r).position + 1) % 128 = 0 then rest else block :: rest }).fetch r)) := by
    unfold Part.outputSample
    simp only [hc, hbuf] <;> rfl
  rw [hout, hsample]
  by_cases hstarved : (p.clip c).state = .loading ∧
        (if ((p.reader r).position + 1) % 128 = 0 then rest else block :: rest) = [] ∧
        (p.reader r).nextBlock = (p.clip c).writtenBlocks
  · rw [if_pos hstarved]
    refine ⟨p.mem.waiting, _, rfl, hadvanced _ fun k hk => ?_⟩
    subst hk
    simp only
    rw [if_pos hstarved]
  · rw [if_neg hstarved]
    obtain ⟨w, page, out, hf⟩ := p.fetch_sampled r { p.reader r with
        position := (p.reader r).position + 1
        buffer := if ((p.reader r).position + 1) % 128 = 0 then rest else block :: rest }
    refine ⟨w, _, by rw [hf], hadvanced _ fun k hk => ?_⟩
    subst hk
    simp only
    rw [if_neg hstarved, hrun]

/-- R43 to R46: the sample period of a reader that comes to no end. -/
theorem Part.samplePeriod_calm (p : Part) (r : ReaderId) (h : p.Calm r) :
    ∃ w y, p.samplePeriod r = (p.sampleNow r, p.sampled w (vset p.bank.readers r y)) ∧ p.Advanced r y := by
  have hstands : (p.reader r).clip = none ∨ (p.reader r).state ≠ .running →
      p.samplePeriod r = (0, p) →
      ∃ w y, p.samplePeriod r = (p.sampleNow r, p.sampled w (vset p.bank.readers r y)) ∧ p.Advanced r y := by
    intro hs hp
    have hnone : p.sampleNow r = 0 := if_neg fun hn => hs.elim hn.1 fun hne => hne hn.2
    refine ⟨p.mem.waiting, p.reader r, ?_, fun c hc hrun => ?_, fun _ => rfl⟩
    · rw [hp, hnone, p.sampled_same]
    · exact (hs.elim (fun hn => absurd (hc.symm.trans hn) (by simp)) fun hne => absurd hrun hne)
  rcases Option.eq_none_or_eq_some (p.reader r).clip with hc | ⟨c, hc⟩
  · refine hstands (.inl hc) ?_
    simp only [Part.samplePeriod, hc]
  · obtain ⟨hstop, hplay⟩ := h c hc
    have hdue : (p.reader r).cutDue (p.clip c) = false := by
      unfold Reader.cutDue
      cases hs : (p.reader r).stopPoint with
      | none => rfl
      | some n => simp [Nat.not_le.mpr (hstop n hs)]
    by_cases hrun : (p.reader r).state = .running
    · obtain ⟨hb, hend⟩ := hplay hrun
      have hout : p.samplePeriod r = p.outputSample r := by
        simp only [Part.samplePeriod, hc, hdue, hrun, hend, if_true]
        rfl
      rw [hout]
      exact p.outputSample_spec r c hc hrun hb
    · refine hstands (.inr hrun) ?_
      simp only [Part.samplePeriod, hc, hdue, hrun, if_false]
      rfl

theorem Part.reader_sampled_ne (p : Part) {r o : ReaderId} (w : Vector Bool 16) (y : Reader) (h : o ≠ r) :
    (p.sampled w (vset p.bank.readers r y)).reader o = p.reader o := by
  simp [Part.reader, Part.sampled, h]

/-- R43: the sample periods of several readers that come to no end. -/
theorem Part.samplePeriods_calm (l : List ReaderId) (hl : l.Nodup) (p : Part) (h : ∀ r ∈ l, p.Calm r) :
    ∃ w v, Part.samplePeriods l p = (l.map p.sampleNow, p.sampled w v) ∧
      (∀ r ∈ l, p.Advanced r (vget v r)) ∧ ∀ r, r ∉ l → vget v r = p.reader r := by
  induction l generalizing p with
  | nil => exact ⟨p.mem.waiting, p.bank.readers, rfl, fun r hr => absurd hr (by simp), fun _ _ => rfl⟩
  | cons r l ih =>
    obtain ⟨hr, hl⟩ := List.nodup_cons.mp hl
    obtain ⟨w, y, hperiod, hy⟩ := p.samplePeriod_calm r (h r (by simp))
    have hother : ∀ o ∈ l, (p.sampled w (vset p.bank.readers r y)).reader o = p.reader o := fun o ho =>
      p.reader_sampled_ne w y fun he => hr (he ▸ ho)
    have hcalm : ∀ o ∈ l, (p.sampled w (vset p.bank.readers r y)).Calm o := by
      intro o ho
      unfold Part.Calm
      rw [hother o ho]
      exact h o (List.mem_cons_of_mem r ho)
    obtain ⟨w', v, hrest, hadv, hstand⟩ := ih hl _ hcalm
    refine ⟨w', v, ?_, fun o ho => ?_, fun o ho => ?_⟩
    · have hsamples : l.map (p.sampled w (vset p.bank.readers r y)).sampleNow = l.map p.sampleNow :=
        List.map_congr_left fun o ho => by
          unfold Part.sampleNow
          rw [hother o ho]
      unfold Part.samplePeriods
      rw [hperiod]
      simp only [hrest, hsamples]
      rfl
    · obtain rfl | ho := List.mem_cons.mp ho
      · rw [hstand _ hr]
        simpa [Part.reader, Part.sampled] using hy
      · have := hadv o ho
        unfold Part.Advanced at this
        rw [hother o ho] at this
        exact this
    · obtain ⟨hne, ho⟩ := not_or.mp (mt List.mem_cons.mpr ho)
      rw [hstand o ho]
      exact p.reader_sampled_ne w y hne

theorem getD_map_finRange {α : Type} {n : Nat} (f : Fin n → α) (d : α) (i : Fin n) :
    ((List.finRange n).map f).getD i.val d = f i := by
  simp [List.getD_eq_getElem?_getD]

/-- Settles O29. -/
theorem samplePeriodOutputsAndAdvances : Obligations.SamplePeriodOutputsAndAdvances := by
  intro s hq hcalm sample
  have hexec : exec .samplePeriod s = .next (s.onPart Part.sampleTick) := rfl
  obtain ⟨w, v, hperiods, hadv, _⟩ := Part.samplePeriods_calm (List.finRange 14) (List.nodup_finRange 14)
    s.part fun r _ => hcalm r
  have hsample : ∀ r : ReaderId, ((List.finRange 14).map s.part.sampleNow).getD r.val 0 = sample r := fun r =>
    getD_map_finRange _ _ r
  have htick : s.part.sampleTick = { s.part.sampled w v with
      bank := { (s.part.sampled w v).bank with
        frame := if s.part.bank.busOn then
          some ((s.part.sampled w v).busFrame ((List.finRange 14).map s.part.sampleNow)) else none } } := by
    unfold Part.sampleTick
    rw [hperiods]
    rfl
  rw [s.onPart_eq _ _ htick hq] at hexec
  refine ⟨_, hexec, rfl, rfl, fun r c hc hrun => (hadv r (List.mem_finRange r)).1 c hc hrun,
    fun r hr => (hadv r (List.mem_finRange r)).2 hr, ?_, rfl⟩
  refine if_congr Iff.rfl (congrArg some ?_) rfl
  have hslots : ∀ l : Lang, ((List.finRange 14).map s.part.sampleNow).getD l.val 0 = sample (chan l) :=
    fun l => hsample (chan l)
  unfold Part.busFrame
  simp only [hslots]
  rw [show ((List.finRange 14).map s.part.sampleNow).getD 13 0 = sample 13 from hsample 13,
    show ((List.finRange 14).map s.part.sampleNow).getD 12 0 = sample 12 from hsample 12]
  rfl

end Sys2Proof.Machine
end

section
/-! Cues that wait in the play lists of their languages (R67, R68). -/

namespace Sys2Proof.Machine

/-- R68: the play list of a stream with one more entry at its end. -/
def appended (waiting : List Entry) (e : Entry) : List Entry :=
  if 3 ≤ waiting.length then waiting.drop 1 ++ [e] else waiting ++ [e]

/-- The part with one language's record written and notices raised. -/
def Part.languageWritten (p : Part) (l : Lang) (x : Language) (k : Link) : Part :=
  { p.setLanguage l x with link := k }

theorem Part.appendEntry_spec (l : Lang) (e : Entry) (p : Part) :
    ∃ k, p.appendEntry l e =
      p.languageWritten l { p.language l with waiting := appended (p.language l).waiting e } k ∧
        p.link.Noted k := by
  unfold Part.appendEntry appended
  by_cases h : 3 ≤ (p.language l).waiting.length
  · simp only [if_pos h, Part.streamNotice, Part.raise_only_link]
    exact ⟨_, rfl, Link.noted_noted _ _ _⟩
  · simp only [if_neg h]
    exact ⟨_, rfl, .refl _⟩

/-- R68: the play list of an affected stream that does not go on with the entry. -/
def Language.cued (x : Language) (e : Entry) : List Entry :=
  if x.stream = .parked then [e]
  else if ∃ w ∈ x.waiting, w.cue = e.cue then x.waiting
  else appended x.waiting e

/-- R68: an entry placed in a PARKED stream, or without the jump flag in a PLAYING or SUSPENDED one. -/
theorem Part.placeEntry_waits (n : Byte) (l : Lang) (p : Part) (r : ReelEntry)
    (hr : tfind (p.language l).reel n.toNat = some r)
    (hs : (p.language l).stream = .parked ∨
      (((p.language l).stream = .playing ∨ (p.language l).stream = .suspended) ∧ r.jump = false)) :
    ∃ k, p.placeEntry n l = p.languageWritten l { p.language l with
      waiting := (p.language l).cued ⟨n, r.clip, r.jump, none, false⟩ } k ∧ p.link.Noted k := by
  unfold Part.placeEntry
  simp only [hr]
  by_cases hparked : (p.language l).stream = .parked
  · rw [if_pos hparked]
    refine ⟨p.link, ?_, .refl _⟩
    rw [Language.cued, if_pos hparked]
    rfl
  · obtain ⟨hplays, hjump⟩ := hs.resolve_left hparked
    have hidle : (p.language l).stream ≠ .idle := by
      rcases hplays with h | h <;> simp [h]
    rw [if_neg hparked, if_neg (by simp [hjump]), if_neg hidle]
    by_cases hany : ∃ w ∈ (p.language l).waiting, w.cue = n
    · rw [if_pos (by simpa using hany)]
      refine ⟨p.link, ?_, .refl _⟩
      rw [Language.cued, if_neg hparked, if_pos hany]
      change p = p.setLanguage l (p.language l)
      unfold Part.setLanguage Part.language
      rw [vset_vget]
    · rw [if_neg (by simpa using hany), Language.cued, if_neg hparked, if_neg hany]
      exact p.appendEntry_spec l _

theorem Part.languageWritten_langs (p : Part) (l : Lang) (x : Language) (k : Link) :
    p.languageWritten l x k = { p with
      lang := { p.lang with langs := vset p.lang.langs l x }, link := k } := rfl

theorem Part.language_languageWritten (p : Part) (l m : Lang) (x : Language) (k : Link) :
    (p.languageWritten l x k).language m = if m = l then x else p.language m := by
  by_cases h : m = l
  · rw [if_pos h, h]
    exact Part.language_setLanguage _ _ _
  · rw [if_neg h]
    exact Part.language_setLanguage_ne _ _ h

/-- R67, R68: a cue placed in the languages of a list, each of which waits for it. -/
theorem Part.placeEntries_wait (n : Byte) (ls : List Lang) (hnd : ls.Nodup) (p : Part)
    (h : ∀ l ∈ ls, ∃ r, tfind (p.language l).reel n.toNat = some r ∧
      ((p.language l).stream = .parked ∨
        (((p.language l).stream = .playing ∨ (p.language l).stream = .suspended) ∧ r.jump = false))) :
    ∃ langs k, ls.foldl (fun q l => q.placeEntry n l) p =
        { p with lang := { p.lang with langs := langs }, link := k } ∧ p.link.Noted k ∧
      (∀ l, l ∉ ls → vget langs l = p.language l) ∧
      ∀ l ∈ ls, ∀ r, tfind (p.language l).reel n.toNat = some r → vget langs l = { p.language l with
        waiting := (p.language l).cued ⟨n, r.clip, r.jump, none, false⟩ } := by
  induction ls generalizing p with
  | nil => exact ⟨p.lang.langs, p.link, rfl, .refl _, fun _ _ => rfl, fun l hl => absurd hl (by simp)⟩
  | cons l ls ih =>
    obtain ⟨hl, hnd⟩ := List.nodup_cons.1 hnd
    obtain ⟨r, hr, hs⟩ := h l (by simp)
    obtain ⟨k, hplace, hk⟩ := p.placeEntry_waits n l r hr hs
    have hother : ∀ m, m ≠ l → (p.placeEntry n l).language m = p.language m := fun m hm => by
      rw [hplace, Part.language_languageWritten, if_neg hm]
    have hown : (p.placeEntry n l).language l = { p.language l with
        waiting := (p.language l).cued ⟨n, r.clip, r.jump, none, false⟩ } := by
      rw [hplace, Part.language_languageWritten, if_pos rfl]
    have hne : ∀ m ∈ ls, m ≠ l := fun m hm he => hl (he ▸ hm)
    obtain ⟨langs, k', hfold, hk', hstand, hplaced⟩ := ih hnd (p.placeEntry n l) fun m hm => by
      rw [hother m (hne m hm)]
      exact h m (List.mem_cons_of_mem l hm)
    refine ⟨langs, k', ?_, ?_, fun m hm => ?_, fun m hm r' hr' => ?_⟩
    · rw [List.foldl_cons, hfold, hplace]
      rfl
    · rw [hplace] at hk'
      exact hk.trans hk'
    · obtain ⟨hml, hms⟩ := not_or.1 (mt List.mem_cons.2 hm)
      rw [hstand m hms, hother m hml]
    · rcases List.mem_cons.1 hm with rfl | hms
      · rw [hstand m hl, hown, Option.some.inj (hr.symm.trans hr')]
      · have := hplaced m hms r'
        rw [hother m (hne m hms)] at this
        exact this hr'

/-- Settles O33. -/
theorem cueWaitsInTheAffectedPlayLists : Obligations.CueWaitsInTheAffectedPlayLists := by
  intro s tag n hq hcan hwaits affected reply
  have hexec : exec (.cue tag [n]) s =
    .next (s.onPart (Part.request .cue tag [n] (Part.takeCue tag [n]))) := rfl
  set p : Part := { s.part with link := s.part.takenLink .cue tag [n] } with hp
  have hmem : ∀ l, l ∈ affected ↔ (s.part.language l).enabled = true ∧
      (tfind (s.part.language l).reel n.toNat).isSome = true := fun l => by
    simp [affected]
  obtain ⟨langs, k, hfold, hk, hstand, hplaced⟩ := Part.placeEntries_wait n affected
    ((List.nodup_finRange 12).filter _) p fun l hl => by
      obtain ⟨henabled, hsome⟩ := (hmem l).1 hl
      obtain ⟨r, hr⟩ := Option.isSome_iff_exists.1 hsome
      exact ⟨r, hr, hwaits l r henabled hr⟩
  have htaken : p.takeCue tag [n] =
      { p with lang := { p.lang with langs := langs }, link := k.answer .cue tag reply } := by
    change (affected.foldl (fun q l => q.placeEntry n l) p).answer .cue tag .ok _ = _
    rw [hfold]
    rfl
  rw [s.onPart_request _ _ _ (Part.takeCue tag [n]) _ hcan htaken hq] at hexec
  refine ⟨_, hexec, rfl, rfl, hstand, fun l r hl hr => hplaced l hl r hr, rfl, ?_⟩
  refine Link.pump_keeps (k.answer .cue tag reply) ⟨Kind.byte .cue, tag, reply, true⟩ ?_
  rw [hk.rest]
  simp [Link.answer]

end Sys2Proof.Machine
end

section
/-! ANNOUNCE while an announcement plays: the queue it joins, and what it displaces (R82, R83). -/

namespace Sys2Proof.Machine

/-! ### The Announcement Queue's operations -/

theorem behindSafety_eq (e : QEntry) (q : List QEntry) :
    let group := q.takeWhile fun x => x.cls = .safety
    behindSafety e q = group ++ e :: q.drop group.length := by
  intro group
  have h : q.drop group.length = q.dropWhile fun x => x.cls = .safety := by
    conv_lhs => rw [← List.takeWhile_append_dropWhile (p := fun x : QEntry => x.cls = .safety) (l := q)]
    exact List.drop_left
  rw [h]
  rfl

/-- R82: an entry of a class other than SAFETY joins the tail. -/
theorem placeArrival_other (e : QEntry) (q : List QEntry) (h : e.cls ≠ .safety) :
    placeArrival e q = q ++ [e] := by
  unfold placeArrival
  cases hc : e.cls with
  | safety => exact absurd hc h
  | stop => rfl
  | service => rfl

theorem placeArrival_safety (e : QEntry) (q : List QEntry) (h : e.cls = .safety) :
    placeArrival e q = behindSafety e q := by
  unfold placeArrival
  rw [h]

theorem mem_placeArrival (e x : QEntry) (q : List QEntry) : x ∈ placeArrival e q ↔ x = e ∨ x ∈ q := by
  by_cases h : e.cls = .safety
  · rw [placeArrival_safety e q h, behindSafety, List.mem_append, List.mem_cons]
    rw [or_left_comm, ← List.mem_append, List.takeWhile_append_dropWhile]
  · rw [placeArrival_other e q h, List.mem_append, List.mem_singleton, or_comm]

/-- R83: the newest entry that satisfies a test. -/
theorem dropNewest_last (test : QEntry → Bool) (a b : List QEntry) (x : QEntry) (hx : test x = true)
    (hb : ∀ y ∈ b, test y = false) : dropNewest test (a ++ x :: b) = some (x, a ++ b) := by
  have hnone : dropNewest test b = none := by
    induction b with
    | nil => rfl
    | cons y b ih =>
      simp only [dropNewest, ih fun z hz => hb z (List.mem_cons_of_mem y hz), hb y (by simp)]
      rfl
  induction a with
  | nil => simp only [List.nil_append, dropNewest, hnone, hx, if_true]
  | cons y a ih => simp only [List.cons_append, dropNewest, ih]

theorem dropNewest_none (test : QEntry → Bool) (q : List QEntry) (h : ∀ y ∈ q, test y = false) :
    dropNewest test q = none := by
  induction q with
  | nil => rfl
  | cons y q ih =>
    simp only [dropNewest, ih fun z hz => h z (List.mem_cons_of_mem y hz), h y (by simp)]
    rfl

/-- R83: no entry makes room for an arriving one. -/
theorem makeRoom_none (cls : SetClass) (q : List QEntry)
    (h : cls = .service ∨ (cls = .stop ∧ ∀ x ∈ q, x.cls ≠ .service) ∨
      (cls = .safety ∧ ∀ x ∈ q, x.cls = .safety)) : makeRoom cls q = none := by
  rcases h with rfl | ⟨rfl, h⟩ | ⟨rfl, h⟩
  · rfl
  · exact dropNewest_none _ _ fun y hy => by simp [h y hy]
  · exact dropNewest_none _ _ fun y hy => by simp [h y hy]

/-- R191: the queue position of a set that only one entry has. -/
theorem queuePlace_of (i : SetId) (a b : List QEntry) (e : QEntry) (he : e.set = i)
    (ha : ∀ x ∈ a, x.set ≠ i) : queuePlace i (a ++ e :: b) = some a.length := by
  unfold queuePlace
  rw [List.findIdx?_append, List.findIdx?_eq_none_iff.2 fun x hx => by simpa using ha x hx,
    List.findIdx?_cons]
  simp [he]

theorem Announcer.place_of (a : Announcer) (i : SetId) (h : a.plays i = false) (b c : List QEntry)
    (e : QEntry) (hq : a.queue = b ++ e :: c) (he : e.set = i) (hb : ∀ x ∈ b, x.set ≠ i) :
    [a.place i] = e8 b.length := by
  simp only [Announcer.place, h, hq, queuePlace_of i b c e he hb]
  rfl

/-! ### ANNOUNCE (R82, R83) -/

theorem readSetId_of {body : Bytes} {i : SetId} (hl : body.length = 1) (hb : b8 body 0 = i.val) :
    readSetId body = .ok i := by
  simp only [readSetId, readByte_one hl, ident_eq i hb]

/-- An announcement plays that an arriving entry of a class neither cuts nor follows. -/
def Part.AnnounceBusy (p : Part) (cls : SetClass) : Prop :=
  ∃ r, p.ann.playing = some r ∧ (cls ≠ .safety ∨ (r.entry.cls = .safety ∧ r.phase ≠ .tail)) ∧
    (r.phase = .tail → ∀ x ∈ p.ann.queue, x.cls ≠ .safety)

/-- R82 step 4, R93: such an entry only waits. -/
theorem Part.offerPlaced_waits (e : QEntry) (p : Part) (h : p.AnnounceBusy e.cls) :
    p.offerPlaced e = p := by
  obtain ⟨r, hr, hcls, htail⟩ := h
  have hcut : r.cutBy e.cls = false := by
    rcases hcls with hcls | ⟨hcls, _⟩ <;> simp [Playing.cutBy, hcls]
  have hoffer : p.offerStart = p := by
    unfold Part.offerStart
    split
    · rfl
    · rename_i x rest hx
      split
      · simp only [hr]
        exact if_neg fun ⟨ht, hs⟩ => htail ht x (by simp [hx]) hs
      · rfl
  unfold Part.offerPlaced
  simp only [hr, hcut]
  exact hoffer

/-- R82: a set neither queued nor playing, with room for its entry. -/
theorem Part.takeAnnounce_placed {tag : Byte} {body : Bytes} {p q : Part} {i : SetId}
    {displaced : Option SetId} (hl : body.length = 1) (hb : b8 body 0 = i.val)
    (hdefined : (p.annSet i).defined = true) (hqueued : p.ann.queued i = false)
    (hplays : p.ann.plays i = false) (hplace : p.placeAnnouncement (p.newEntry i tag) = some (q, displaced)) :
    p.takeAnnounce tag body = (q.offerPlaced (p.newEntry i tag)).answer .announce tag .ok
      (e8 i.val ++ [(q.offerPlaced (p.newEntry i tag)).ann.place i] ++ o8 (displaced.map Fin.val)) := by
  have hnamed : o8 (named8 body) = e8 i.val := by
    rw [named8_long (by omega), hb]
    rfl
  unfold Part.takeAnnounce
  simp only [readSetId_of hl hb, hdefined, hqueued, hplays, hplace, hnamed]
  rfl

theorem Part.placeAnnouncement_room (e : QEntry) (p : Part) (h : p.ann.queue.length < 8) :
    p.placeAnnouncement e = some (p.setQueue (placeArrival e p.ann.queue), none) := if_pos h

theorem Part.placeAnnouncement_full (e : QEntry) (p : Part) (h : p.ann.queue.length = 8)
    (hroom : makeRoom e.cls p.ann.queue = none) : p.placeAnnouncement e = none := by
  unfold Part.placeAnnouncement
  rw [if_neg (by omega), hroom]

theorem Part.placeAnnouncement_displaced (e x : QEntry) (rest : List QEntry) (p : Part)
    (h : p.ann.queue.length = 8) (hroom : makeRoom e.cls p.ann.queue = some (x, rest)) :
    p.placeAnnouncement e =
      some ((p.annNotice x.set .dropped (some .displaced)).setQueue (placeArrival e rest), some x.set) := by
  unfold Part.placeAnnouncement
  rw [if_neg (by omega), hroom]

/-- R99: what the notice of a dropped set leaves. -/
theorem Part.annNotice_dropped (p : Part) (i : SetId) (reason : Option AnnReason) :
    p.annNotice i .dropped reason = { p with
      ann := { p.ann with last := some ⟨i, .dropped, reason, p.time⟩ }
      link := p.link.noted (.announce i .dropped reason) p.time } := by
  unfold Part.annNotice
  simp only
  rw [Part.raise_only_link]

/-- R82: where an arriving entry is placed in the queue. -/
theorem placeArrival_split (e : QEntry) (q : List QEntry) : ∃ b c, placeArrival e q = b ++ e :: c ∧
    (∀ x ∈ b, x ∈ q) ∧ (e.cls ≠ .safety → b = q ∧ c = []) ∧
    (e.cls = .safety → b = q.takeWhile (fun x => x.cls = .safety) ∧ c = q.drop b.length) := by
  by_cases h : e.cls = .safety
  · refine ⟨_, _, (placeArrival_safety e q h).trans (behindSafety_eq e q), fun x hx => ?_,
      fun hn => absurd h hn, fun _ => ⟨rfl, rfl⟩⟩
    exact (List.takeWhile_subset _) hx
  · exact ⟨q, [], placeArrival_other e q h, fun _ hx => hx, fun _ => ⟨rfl, rfl⟩, fun hs => absurd hs h⟩

/-- Settles O36. -/
theorem announceMergesQueuesOrDisplaces : Obligations.AnnounceMergesQueuesOrDisplaces := by
  intro s tag body i hq hcan hl hb hdefined q cls e busy with_
  set p : Part := { s.part with link := s.part.takenLink .announce tag body } with hp
  have hnamed : o8 (named8 body) = e8 i.val := by
    rw [named8_long (by omega), hb]
    rfl
  have hothers : s.part.ann.queued i = false → ∀ x ∈ q, x.set ≠ i := by
    intro h x hx he
    rw [Announcer.queued_eq, decide_eq_false_iff_not] at h
    exact h ⟨x, hx, he⟩
  have hjoins : ∀ (old : List QEntry) (r : Part) (x : Option SetId), s.part.ann.queued i = false →
      s.part.ann.plays i = false → busy → (∀ y ∈ old, y ∈ q) →
      p.placeAnnouncement (p.newEntry i tag) = some (r, x) → r.ann.queue = placeArrival e old →
      r.ann.playing = s.part.ann.playing → ∀ b c, placeArrival e old = b ++ e :: c → (∀ y ∈ b, y ∈ old) →
      p.takeAnnounce tag body =
        r.answer .announce tag .ok (e8 i.val ++ e8 b.length ++ o8 (x.map Fin.val)) := by
    intro old r x hqueued hplays hbusy hold hplace hqueue hplaying b c hsplit hbold
    obtain ⟨y, hy, hcls, htail⟩ := hbusy
    have hwaits : r.offerPlaced e = r := by
      refine r.offerPlaced_waits e ⟨y, hplaying.trans hy, hcls, fun ht z hz => ?_⟩
      rw [hqueue, mem_placeArrival] at hz
      rcases hz with rfl | hz
      · exact hcls.resolve_right fun h => h.2 ht
      · exact htail ht z (hold z hz)
    have hrplays : r.ann.plays i = false := by
      rw [Announcer.plays_eq, hplaying, ← Announcer.plays_eq, hplays]
    have := Part.takeAnnounce_placed hl hb (p := p) hdefined hqueued hplays hplace
    rw [show p.newEntry i tag = e from rfl, hwaits, r.ann.place_of i hrplays b c e (hqueue.trans hsplit) rfl
      fun y hy => hothers hqueued y (hold y (hbold y hy))] at this
    exact this
  refine ⟨fun hin => ?_, fun hqueued hplays hbusy hroom => ?_, fun hqueued hplays hfull hnone => ?_,
    fun a b x hqueued hplays hbusy hfull hsplit => ?_⟩
  · have htaken : p.takeAnnounce tag body =
        p.answer .announce tag .merged (e8 i.val ++ [p.ann.place i] ++ [0xFF]) := by
      unfold Part.takeAnnounce
      have hany : (p.ann.queued i || p.ann.plays i) = true := by simpa using hin
      simp only [readSetId_of hl hb, show (p.annSet i).defined = true from hdefined, hany, hnamed]
      rfl
    rw [List.append_assoc] at htaken
    exact congrArg _ (s.onPart_request _ _ _ (Part.takeAnnounce tag body) _ hcan htaken hq)
  · obtain ⟨b, c, hsplit, hbold, hother, hsafety⟩ := placeArrival_split e q
    have htaken := hjoins q _ none hqueued hplays hbusy (fun _ h => h)
      (p.placeAnnouncement_room _ hroom) rfl rfl b c hsplit hbold
    have hexec := s.onPart_request _ _ _ (Part.takeAnnounce tag body) _ hcan htaken hq
    have hwith : with_ (b ++ e :: c) (e8 i.val ++ e8 b.length ++ [0xFF]) := by
      refine congrArg Host.Outcome.next (hexec.trans ?_)
      rw [← hsplit]
      rfl
    refine ⟨fun hc => ?_, fun hc => ?_⟩
    · obtain ⟨rfl, rfl⟩ := hother hc
      exact hwith
    · obtain ⟨rfl, rfl⟩ := hsafety hc
      exact hwith
  · have htaken : p.takeAnnounce tag body = p.answer .announce tag .full (e8 i.val ++ [0xFF] ++ [0xFF]) := by
      unfold Part.takeAnnounce
      simp only [readSetId_of hl hb, show (p.annSet i).defined = true from hdefined,
        show p.ann.queued i = false from hqueued, show p.ann.plays i = false from hplays,
        p.placeAnnouncement_full (p.newEntry i tag) hfull (makeRoom_none cls q hnone), hnamed]
      rfl
    rw [List.append_assoc] at htaken
    exact congrArg _ (s.onPart_request _ _ _ (Part.takeAnnounce tag body) _ hcan htaken hq)
  · intro displaced
    obtain ⟨d, c, harrive, hdold, hother, hsafety⟩ := placeArrival_split e (a ++ b)
    have hold : ∀ y ∈ a ++ b, y ∈ q := fun y hy => by
      rw [hsplit]
      rcases List.mem_append.1 hy with h | h
      · exact List.mem_append_left _ h
      · exact List.mem_append_right _ (List.mem_cons_of_mem x h)
    have hdisplaced : makeRoom cls q = some (x, a ++ b) → displaced (d ++ e :: c) d.length := by
      intro hroom
      have hplace := p.placeAnnouncement_displaced (p.newEntry i tag) x (a ++ b) hfull hroom
      rw [Part.annNotice_dropped] at hplace
      have htaken := hjoins (a ++ b) _ _ hqueued hplays hbusy hold hplace rfl rfl d c harrive hdold
      have hexec := s.onPart_request _ _ _ (Part.takeAnnounce tag body) _ hcan htaken hq
      refine congrArg Host.Outcome.next (hexec.trans ?_)
      rw [← harrive]
      rfl
    refine ⟨fun hc hx hrest => ?_, fun hc hx hrest => ?_⟩
    · obtain ⟨rfl, rfl⟩ := hother (by rw [show e.cls = cls from rfl, hc]; simp)
      have hlen : (a ++ b).length = 7 := by
        rw [hsplit] at hfull
        simp only [List.length_append, List.length_cons] at hfull ⊢
        omega
      rw [← hlen]
      refine hdisplaced ?_
      rw [hc, hsplit]
      exact dropNewest_last _ _ _ _ (by simp [hx]) fun y hy => by simp [hrest y hy]
    · obtain ⟨rfl, rfl⟩ := hsafety hc
      refine hdisplaced ?_
      rw [hc, hsplit]
      exact dropNewest_last _ _ _ _ (by simp [hx]) fun y hy => by simp [hrest y hy]

end Sys2Proof.Machine
end

section
/-! The streams of the languages: what starting, parking, joining and leaving make of them (R60 to R62, R70, R72). -/

namespace Sys2Proof.Machine

/-! ### What an operation makes of a language's record -/

/-- R70, R72: a stream that has gone on with its oldest WAITING entry, started when the scheduler owns the
reader. -/
def Language.next (owns : Bool) (x : Language) : Language :=
  match x.waiting with
  | [] => { x with stream := .idle, current := none }
  | e :: rest =>
    { x with
      stream := .playing, waiting := rest
      current := some (if owns then { e with started := true } else e) }

/-- R61: a stream that has been parked. -/
def Language.parked (x : Language) : Language :=
  { x with
    stream := .parked, current := none, resume := none
    waiting := x.waiting.drop (x.waiting.length - 1) }

/-- R62: a stream that has left PARKED. -/
def Language.unparked (hold owns : Bool) (x : Language) : Language :=
  match x.waiting with
  | [] => { x with stream := .idle }
  | _ :: _ => if hold then { x with stream := .suspended } else x.next owns

/-- R60: a language that a listener has joined. -/
def Language.joined (hold owns : Bool) (x : Language) : Language :=
  if x.audience = 0 ∧ x.stream = .parked then
    ({ x with audience := x.audience + 1 } : Language).unparked hold owns
  else { x with audience := x.audience + 1 }

/-- R60: a language that a listener has left. -/
def Language.left (x : Language) : Language :=
  if x.audience ≤ 1 ∧ (x.stream = .idle ∨ x.stream = .playing ∨ x.stream = .suspended) then
    ({ x with audience := x.audience - 1 } : Language).parked
  else { x with audience := x.audience - 1 }

/-- The Language Table with one language's record written. -/
def LangTable.written (t : LangTable) (l : Lang) (x : Language) : LangTable :=
  { t with langs := vset t.langs l x }

theorem LangTable.written_written (t : LangTable) (l : Lang) (x y : Language) :
    (t.written l x).written l y = t.written l y := by
  unfold LangTable.written
  rw [vset_vset]

theorem LangTable.written_same (p : Part) (l : Lang) : p.lang.written l (p.language l) = p.lang := by
  unfold LangTable.written Part.language
  rw [vset_vget]

theorem Part.setLanguage_lang (p : Part) (l : Lang) (x : Language) :
    (p.setLanguage l x).lang = p.lang.written l x := rfl

/-- A language's record in a part whose table has one language's record written. -/
theorem Part.language_written {p q : Part} {l : Lang} {x : Language} (h : q.lang = p.lang.written l x) (m : Lang) :
    q.language m = if m = l then x else p.language m := by
  unfold Part.language
  rw [h]
  unfold LangTable.written
  by_cases hm : m = l
  · rw [if_pos hm, hm, vget_vset_same]
  · rw [if_neg hm, vget_vset_ne _ _ hm]

/-! ### The operations -/

theorem Part.stopChannel_lang (l : Lang) (p : Part) : (p.stopChannel l).lang = p.lang := by
  unfold Part.stopChannel
  split
  · exact (p.readersOnly_stopRelease _).lang
  · rfl

theorem Part.dropResume_lang (l : Lang) (p : Part) :
    (p.dropResume l).lang = p.lang.written l { p.language l with resume := none } := by
  unfold Part.dropResume
  split
  · rename_i h
    rw [← h, LangTable.written_same]
  · exact (Part.readersOnly_releaseHold _ _).lang

theorem Part.streamNotice_lang (l : Lang) (r : StreamReason) (p : Part) :
    (p.streamNotice l r).lang = p.lang := by
  unfold Part.streamNotice
  rw [Part.raise_only_link]

theorem Part.startEntry_lang (l : Lang) (p : Part) (e : Entry) (h : (p.language l).current = some e) :
    (p.startEntry l).lang = p.lang.written l { p.language l with
      current := some (if p.ownsReader l then { e with started := true } else e) } := by
  unfold Part.startEntry
  simp only [h]
  cases p.ownsReader l with
  | true => exact (Part.readersOnly_startReader _ _ _ _ _).lang
  | false =>
    change p.lang = p.lang.written l { p.language l with current := some e }
    rw [← h, LangTable.written_same]

theorem Part.playNext_nil (l : Lang) (p : Part) (h : (p.language l).waiting = []) :
    p.playNext l = p.setLanguage l { p.language l with stream := .idle, current := none } := by
  simp only [Part.playNext, h]

theorem Part.playNext_cons (l : Lang) (p : Part) {e : Entry} {rest : List Entry}
    (h : (p.language l).waiting = e :: rest) :
    p.playNext l = (p.setLanguage l { p.language l with
      stream := .playing, current := some e, waiting := rest }).startEntry l := by
  simp only [Part.playNext, h]

theorem Language.next_cons (owns : Bool) (x : Language) {e : Entry} {rest : List Entry}
    (h : x.waiting = e :: rest) :
    x.next owns = { x with
      stream := .playing, waiting := rest
      current := some (if owns then { e with started := true } else e) } := by
  simp only [Language.next, h]

theorem Part.playNext_lang (l : Lang) (p : Part) :
    (p.playNext l).lang = p.lang.written l ((p.language l).next (p.ownsReader l)) := by
  cases h : (p.language l).waiting with
  | nil =>
    rw [p.playNext_nil l h, Part.setLanguage_lang]
    simp only [Language.next, h]
  | cons e rest =>
    have hset := p.language_setLanguage l { p.language l with
      stream := .playing, current := some e, waiting := rest }
    rw [p.playNext_cons l h, Part.startEntry_lang l _ e (by rw [hset]), hset, Part.setLanguage_lang,
      LangTable.written_written, Language.next_cons _ _ h]
    rfl

theorem Part.park_lang (l : Lang) (p : Part) : (p.park l).lang = p.lang.written l (p.language l).parked := by
  have hdrop : ((p.stopChannel l).dropResume l).lang =
      p.lang.written l { p.language l with resume := none } := by
    rw [Part.dropResume_lang, Part.stopChannel_lang, Part.language, Part.stopChannel_lang]
    rfl
  have hlang := Part.language_written hdrop l
  rw [if_pos rfl] at hlang
  unfold Part.park
  dsimp only
  rw [Part.streamNotice_lang, Part.setLanguage_lang, hlang, hdrop, LangTable.written_written]
  rfl

theorem Part.unpark_nil (l : Lang) (p : Part) (h : (p.language l).waiting = []) :
    p.unpark l = (p.setLanguage l { p.language l with stream := .idle }).streamNotice l .resumed := by
  simp only [Part.unpark, h]

theorem Part.unpark_cons (l : Lang) (p : Part) {e : Entry} {rest : List Entry}
    (h : (p.language l).waiting = e :: rest) :
    p.unpark l =
      if p.lang.hold then (p.setLanguage l { p.language l with stream := .suspended }).streamNotice l .resumed
      else (p.playNext l).streamNotice l .resumed := by
  simp only [Part.unpark, h]

theorem Language.unparked_cons (hold owns : Bool) (x : Language) {e : Entry} {rest : List Entry}
    (h : x.waiting = e :: rest) :
    x.unparked hold owns = if hold then { x with stream := .suspended } else x.next owns := by
  simp only [Language.unparked, h]

theorem Part.unpark_lang (l : Lang) (p : Part) :
    (p.unpark l).lang = p.lang.written l ((p.language l).unparked p.lang.hold (p.ownsReader l)) := by
  cases h : (p.language l).waiting with
  | nil =>
    rw [p.unpark_nil l h, Part.streamNotice_lang, Part.setLanguage_lang]
    simp only [Language.unparked, h]
  | cons e rest =>
    rw [p.unpark_cons l h]
    simp only [Language.unparked, h]
    cases p.lang.hold with
    | true => exact Part.streamNotice_lang _ _ _
    | false => exact (Part.streamNotice_lang _ _ _).trans (p.playNext_lang l)

theorem Part.join_lang (l : Lang) (p : Part) :
    (p.join l).lang = p.lang.written l ((p.language l).joined p.lang.hold (p.ownsReader l)) := by
  unfold Part.join Language.joined
  by_cases h : (p.language l).audience = 0 ∧ (p.language l).stream = .parked
  · simp only [if_pos h]
    rw [Part.unpark_lang, Part.language_setLanguage, Part.setLanguage_lang, LangTable.written_written]
    rfl
  · simp only [if_neg h]
    rfl

theorem Part.leave_lang (l : Lang) (p : Part) : (p.leave l).lang = p.lang.written l (p.language l).left := by
  unfold Part.leave Language.left
  by_cases h : (p.language l).audience ≤ 1 ∧ ((p.language l).stream = .idle ∨
      (p.language l).stream = .playing ∨ (p.language l).stream = .suspended)
  · simp only [if_pos h]
    rw [Part.park_lang, Part.language_setLanguage, Part.setLanguage_lang, LangTable.written_written]
  · simp only [if_neg h]
    rfl

/-- What a listener's coming and going do to the languages is seen from the table and the readers' owners alone. -/
theorem Part.join_lang_congr {p q : Part} (l : Lang) (hl : q.lang = p.lang) (hb : q.bank = p.bank) :
    (q.join l).lang = (p.join l).lang := by
  rw [Part.join_lang, Part.join_lang]
  unfold Part.language Part.ownsReader Part.reader
  rw [hl, hb]

theorem Part.leave_lang_congr {p q : Part} (l : Lang) (hl : q.lang = p.lang) :
    (q.leave l).lang = (p.leave l).lang := by
  rw [Part.leave_lang, Part.leave_lang]
  unfold Part.language
  rw [hl]

/-! ### The readers of a stream that is parked (R61) -/

theorem Part.dropResume_bank (l : Lang) (p : Part) : (p.dropResume l).bank = p.bank := by
  unfold Part.dropResume
  split
  · rfl
  · exact Part.releaseHold_bank _ _

theorem Part.streamNotice_bank (l : Lang) (r : StreamReason) (p : Part) : (p.streamNotice l r).bank = p.bank :=
  Part.raise_bank _ _

theorem Part.park_bank (l : Lang) (p : Part) : (p.park l).bank = (p.stopChannel l).bank := by
  unfold Part.park
  dsimp only
  rw [Part.streamNotice_bank]
  exact Part.dropResume_bank _ _

/-- R61: the channel reader of a stream that is parked is stopped when the scheduler owns it. -/
theorem Part.park_reader (l : Lang) (p : Part) :
    (p.park l).reader (chan l) =
        (if (p.reader (chan l)).owner = .commentary ∧ (p.reader (chan l)).clip ≠ none then
          Reader.idle .commentary else p.reader (chan l)) ∧
      ∀ r, r ≠ chan l → (p.park l).reader r = p.reader r := by
  have hbank : ∀ r, (p.park l).reader r = (p.stopChannel l).reader r := fun r => by
    unfold Part.reader
    rw [Part.park_bank]
  rw [hbank]
  obtain ⟨hothers, hstop, hnone⟩ := p.stopRelease_reader (chan l)
  by_cases howns : (p.reader (chan l)).owner = .commentary
  · have hs : p.stopChannel l = p.stopRelease (chan l) := if_pos (by simpa [Part.ownsReader] using howns)
    rw [hs]
    refine ⟨?_, fun r hr => (hbank r).trans (by rw [hs]; exact hothers r hr)⟩
    rcases Option.eq_none_or_eq_some (p.reader (chan l)).clip with hc | ⟨c, hc⟩
    · rw [hnone hc, if_neg fun h => h.2 hc]
    · rw [(hstop c hc).1, howns, if_pos ⟨rfl, by simp [hc]⟩]
  · have hs : p.stopChannel l = p := if_neg (by simpa [Part.ownsReader] using howns)
    rw [hs, if_neg fun h => howns h.1]
    exact ⟨rfl, fun r _ => (hbank r).trans (by rw [hs])⟩

/-! ### A socket's sample (R122, R123, R125 to R127) -/

theorem Part.socketFault_attached (k : SeatId) (r : FaultReason) (n a : Nat) (p : Part)
    (h : (p.seat k).socket.state = .attached) :
    ((p.socketFault k r n a).seat k).pending = .mute ∧
      (p.socketFault k r n a).lang = (p.leave (p.seat k).language).lang := by
  unfold Part.socketFault
  extract_lets s q history locked src t
  have hq : q = (p.leave s.language).setSeat k { s with pending := .mute } := if_pos h
  have ht : (t.seat k).pending = (q.seat k).pending :=
    (congrArg Seat.pending (q.seat_setSocket k _)).trans rfl
  have hraise : (t.seatNotice k).seat k = t.seat k := Part.seat_raise _ _ _
  refine ⟨?_, ?_⟩
  · rw [hraise, ht, hq, Part.seat_setSeat]
  · unfold Part.seatNotice
    rw [Part.raise_only_link]
    change q.lang = _
    rw [hq]
    rfl

theorem Part.seatNotice_lang (k : SeatId) (p : Part) : (p.seatNotice k).lang = p.lang := by
  unfold Part.seatNotice
  rw [Part.raise_only_link]

theorem Part.setSocket_setSocket (k : SeatId) (y z : Socket) (p : Part) :
    (p.setSocket k y).setSocket k z = p.setSocket k z := by
  change (p.setSocket k y).setSeat k { (p.setSocket k y).seat k with socket := z } = _
  rw [Part.seat_setSocket]
  unfold Part.setSocket Part.setSeat
  rw [vset_vset]

/-- R122: a socket that has taken a sample into its measurement. -/
def Socket.sampled (n : Nat) (x : Socket) : Socket :=
  { x with lastSample := n, average := some (Machine.average x.average n 4), peak := max x.peak n }

/-- R122, R123, R125: the sample of a socket that takes it. -/
theorem Part.takeSample_eq (k : SeatId) (n : Nat) (p : Part) (ht : (p.seat k).socket.takes = true) :
    let y := (p.seat k).socket.sampled n
    let a := Machine.average (p.seat k).socket.average n 4
    let run := nextRun (p.seat k).socket.run (indicationOf a)
    p.takeSample k n =
      if 8000 ≤ n then (p.setSocket k y).socketFault k .overcurrent n a
      else if (p.seat k).socket.classifying then
        if run.2 = 2 then (p.setSocket k { y with run := some run }).decideSocket k (indicationOf a) n
        else p.setSocket k { y with run := some run }
      else p.setSocket k y := by
  intro y a run
  unfold Part.takeSample
  exact if_pos ht

/-- R127: what a fault makes of a socket and its listener. -/
theorem Part.socketFault_spec (k : SeatId) (r : FaultReason) (n a : Nat) (p : Part) (y : Socket) :
    let q := (p.setSocket k y).socketFault k r n a
    (q.seat k).socket = y.faultedBy p.time r n a ∧ (q.seat k).language = (p.seat k).language ∧
      (q.seat k).volume = (p.seat k).volume ∧ (q.seat k).node = (p.seat k).node ∧
      (y.state = .attached → (q.seat k).pending = .mute ∧
        q.lang = (p.leave (p.seat k).language).lang) := by
  intro q
  have hset : (p.setSocket k y).seat k = { p.seat k with socket := y } := p.seat_setSocket k y
  have hseat : q.seat k = _ := (p.setSocket k y).socketFault_seat k r n a
  rw [hset] at hseat
  refine ⟨?_, ?_, ?_, ?_, fun hy => ?_⟩
  · rw [hseat]
    rfl
  · rw [hseat]
  · rw [hseat]
  · rw [hseat]
  · obtain ⟨hpending, hlang⟩ := (p.setSocket k y).socketFault_attached k r n a (by rw [hset]; exact hy)
    rw [hset] at hlang
    exact ⟨hpending, hlang.trans (Part.leave_lang_congr _ rfl)⟩

/-- R126, R60: a socket found to hold a headset is ATTACHED, and its listener joins the seat's language. -/
theorem Part.decideSocket_headset (k : SeatId) (n : Nat) (p : Part) (y : Socket) (hy : y.state ≠ .attached) :
    let q := (p.setSocket k y).decideSocket k .headset n
    q.seat k = { p.seat k with
      socket := { y with state := .attached, run := none }
      pending := seatCode p.level (p.seat k).volume (p.language (p.seat k).language).trim } ∧
      q.lang = (p.join (p.seat k).language).lang := by
  intro q
  have hset : (p.setSocket k y).seat k = { p.seat k with socket := y } := p.seat_setSocket k y
  let z := p.setSocket k { y with state := .attached, run := none }
  let j := z.join (p.seat k).language
  have hq : q = (j.recomputeSeat k).seatNotice k := by
    change Part.decideSocket k .headset n (p.setSocket k y) = _
    unfold Part.decideSocket
    simp only [hset, if_neg hy, Part.setSocket_setSocket]
    rfl
  have hjoin := z.streamsOnly_join (p.seat k).language
  have hseat : j.seat k = { p.seat k with socket := { y with state := .attached, run := none } } :=
    (hjoin.seat k).trans (p.seat_setSocket k _)
  have htrim : ∀ m, (j.language m).trim = (p.language m).trim := fun m => by
    have h := hjoin.langs m
    unfold Language.Configured at h
    rw [h]
    rfl
  refine ⟨?_, ?_⟩
  · have hraise : q.seat k = (j.recomputeSeat k).seat k := by
      rw [hq]
      exact Part.seat_raise _ _ _
    rw [hraise]
    unfold Part.recomputeSeat
    rw [Part.seat_setSeat, hseat]
    unfold Seat.recompute
    rw [htrim, hjoin.level]
    rfl
  · rw [hq, Part.seatNotice_lang]
    exact Part.join_lang_congr _ rfl rfl

/-- R126, R60: a socket found empty is EMPTY, and a listener that it had leaves the seat's language. -/
theorem Part.decideSocket_empty (k : SeatId) (n : Nat) (p : Part) (y : Socket) (hy : y.state ≠ .empty) :
    let q := (p.setSocket k y).decideSocket k .empty n
    (q.seat k).socket = { y with state := .empty, run := none } ∧
      (y.state = .attached → (q.seat k).pending = .mute ∧ q.lang = (p.leave (p.seat k).language).lang) ∧
      (y.state ≠ .attached → q.lang = p.lang) := by
  intro q
  have hset : (p.setSocket k y).seat k = { p.seat k with socket := y } := p.seat_setSocket k y
  let z := p.setSocket k { y with state := .empty, run := none }
  let j := if y.state = .attached then (z.leave (p.seat k).language).recomputeSeat k else z
  have hq : q = j.seatNotice k := by
    change Part.decideSocket k .empty n (p.setSocket k y) = _
    unfold Part.decideSocket
    simp only [hset, if_neg hy, Part.setSocket_setSocket]
    rfl
  have hleave := z.streamsOnly_leave (p.seat k).language
  have hz : z.seat k = { p.seat k with socket := { y with state := .empty, run := none } } :=
    p.seat_setSocket k _
  have hraise : q.seat k = j.seat k := by
    rw [hq]
    exact Part.seat_raise _ _ _
  have hlang : q.lang = j.lang := by
    rw [hq, Part.seatNotice_lang]
  refine ⟨?_, fun ha => ?_, fun ha => ?_⟩
  · have := (p.setSocket k y).decideSocket_seat k .empty n
    rw [hset] at this
    rw [show q.seat k = _ from this]
    exact if_neg hy
  · have hj : j = (z.leave (p.seat k).language).recomputeSeat k := if_pos ha
    refine ⟨?_, ?_⟩
    · rw [hraise, hj]
      unfold Part.recomputeSeat
      rw [Part.seat_setSeat, hleave.seat, hz]
      rfl
    · rw [hlang, hj]
      exact Part.leave_lang_congr _ rfl
  · rw [hlang, show j = z from if_neg ha]
    rfl

theorem Part.decideSocket_stands (k : SeatId) (x : Indication) (n : Nat) (p : Part)
    (h : (x = .headset ∧ (p.seat k).socket.state = .attached) ∨
      (x = .empty ∧ (p.seat k).socket.state = .empty)) : p.decideSocket k x n = p := by
  unfold Part.decideSocket
  rcases h with ⟨rfl, hs⟩ | ⟨rfl, hs⟩
  · exact if_pos hs
  · exact if_pos hs

theorem average_four (old : Option Nat) (n : Nat) : Machine.average old n 4 = match old with
    | none => n
    | some o => ((o : Int) + ((n : Int) - o) / 4).toNat := by
  cases old <;> rfl

theorem lockoutDue_iff (l : List PartTime) (now : PartTime) :
    lockoutDue (faultHistory l now) = true ↔ (faultHistory l now).length = 3 ∧
      ∃ h, (faultHistory l now).head? = some h ∧ (now - h).toNat ≤ 600000 := by
  unfold faultHistory
  by_cases hl : 3 ≤ l.length
  · rw [if_pos hl]
    obtain ⟨a, b, hab⟩ : ∃ a b, l.drop (l.length - 2) = [a, b] := by
      have hlen : (l.drop (l.length - 2)).length = 2 := by
        rw [List.length_drop]
        omega
      exact List.length_eq_two.1 hlen
    rw [hab]
    simp [lockoutDue]
  · rw [if_neg hl]
    match l, hl with
    | [], _ => simp [lockoutDue]
    | [a], _ => simp [lockoutDue]
    | [a, b], _ => simp [lockoutDue]
    | _ :: _ :: _ :: _, h => exact absurd h (by simp)

theorem faultHistory_eq (l : List PartTime) (now : PartTime) : faultHistory l now =
    if l.length < 3 then l ++ [now] else l.drop (l.length - 2) ++ [now] := by
  unfold faultHistory
  by_cases h : l.length < 3
  · rw [if_pos h, if_neg (by omega)]
  · rw [if_neg h, if_pos (by omega)]

theorem nextRun_same (run : Option (Indication × Nat)) (x : Indication) (n : Nat) (h : run = some (x, n)) :
    nextRun run x = (x, 2) := by
  rw [h]
  exact if_pos rfl

theorem nextRun_other (run : Option (Indication × Nat)) (x : Indication) (h : ∀ n, run ≠ some (x, n)) :
    nextRun run x = (x, 1) := by
  cases run with
  | none => rfl
  | some y =>
    obtain ⟨y, n⟩ := y
    exact if_neg fun he => h n (by rw [he])

/-! ### A listener's coming and going (R60 to R62) -/

theorem Part.join_listened (p : Part) (l : Lang)
    (h : (p.language l).audience ≠ 0 ∨ (p.language l).stream ≠ .parked) :
    p.join l = p.setLanguage l { p.language l with audience := (p.language l).audience + 1 } :=
  if_neg fun ⟨h0, hs⟩ => h.elim (fun hn => hn h0) fun hn => hn hs

theorem Part.streamNotice_eq (l : Lang) (r : StreamReason) (p : Part) :
    p.streamNotice l r = { p with link := p.link.noted (.stream l (p.language l).stream r) p.time } :=
  Part.raise_only_link _ _

/-- R62: a first listener of a PARKED stream that starts no entry. -/
theorem Part.join_waits (p : Part) (l : Lang) (h0 : (p.language l).audience = 0)
    (hs : (p.language l).stream = .parked) (hw : (p.language l).waiting = [] ∨ p.lang.hold = true) :
    let stream := if (p.language l).waiting = [] then StreamState.idle else .suspended
    p.join l = { p.setLanguage l { p.language l with audience := 1, stream := stream } with
      link := p.link.noted (.stream l stream .resumed) p.time } := by
  intro stream
  have hjoin : p.join l =
      (p.setLanguage l { p.language l with audience := (p.language l).audience + 1 }).unpark l :=
    if_pos ⟨h0, hs⟩
  have hset := p.language_setLanguage l { p.language l with audience := (p.language l).audience + 1 }
  have hunpark : p.join l = (p.setLanguage l { p.language l with
      audience := 1, stream := stream }).streamNotice l .resumed := by
    rw [hjoin]
    cases hw' : (p.language l).waiting with
    | nil =>
      rw [Part.unpark_nil l _ (by rw [hset]; exact hw'), hset, Part.setLanguage_setLanguage, h0]
      rw [show stream = .idle from if_pos hw']
    | cons e rest =>
      have hhold : p.lang.hold = true := hw.resolve_left (by simp [hw'])
      rw [Part.unpark_cons l _ (by rw [hset]; exact hw'), hset, Part.setLanguage_setLanguage, h0]
      rw [show stream = .suspended from if_neg (by simp [hw'])]
      exact if_pos hhold
  rw [hunpark, Part.streamNotice_eq, Part.language_setLanguage]
  rfl

theorem Part.leave_listened (p : Part) (l : Lang)
    (h : 2 ≤ (p.language l).audience ∨ (p.language l).stream = .off ∨ (p.language l).stream = .parked) :
    p.leave l = p.setLanguage l { p.language l with audience := (p.language l).audience - 1 } := by
  refine if_neg fun ⟨h1, hs⟩ => ?_
  rcases h with h | h | h
  · omega
  · simp [h] at hs
  · simp [h] at hs

/-- Settles O46. -/
theorem overcurrentFaultsTheSocket : Obligations.OvercurrentFaultsTheSocket := by
  refine ⟨?_, ?_⟩
  · intro p k sample s z q a history locked taken faulted x htakes
    have ha : Machine.average z.average sample 4 = a := average_four _ _
    have hhistory : faultHistory z.history p.time = history := faultHistory_eq _ _
    have hlocked : lockoutDue history = true ↔ locked := by
      have := lockoutDue_iff z.history p.time
      rw [hhistory] at this
      exact this
    have hx : indicationOf a = x := rfl
    have hseat : (p.seat k).socket.takes = true := by
      change z.takes = true
      unfold Socket.takes
      rcases htakes with h | h | ⟨h, hon⟩ <;> simp only [h]
      exact hon
    have htaken : z.sampled sample = taken := by
      unfold Socket.sampled
      rw [ha]
    have hq : q = _ := p.takeSample_eq k sample hseat
    simp only [show (p.seat k).socket = z from rfl, htaken, ha, hx] at hq
    have hfault : ∀ (reason : FaultReason) (y : Socket), y = { taken with run := y.run } →
        q = (p.setSocket k y).socketFault k reason sample a → faulted reason := by
      intro reason y hy hqy
      obtain ⟨hsocket, hlang, hvolume, hnode, hleaves⟩ := p.socketFault_spec k reason sample a y
      have hstate : y.state = z.state := by rw [hy]
      rw [← hqy] at hsocket hlang hvolume hnode hleaves
      refine ⟨?_, hlang, hvolume, hnode, fun hz => hleaves (hstate.trans hz)⟩
      rw [hsocket, hy]
      unfold Socket.faultedBy
      simp only [show taken.history = z.history from rfl, hhistory]
      by_cases hl : locked
      · simp only [if_pos hl, if_pos (hlocked.2 hl)]
      · simp only [if_neg hl, if_neg (mt hlocked.1 hl)]
        rfl
    have hothers : ∀ j, j ≠ k → q.seat j = p.seat j := (p.seatEvent_takeSample k sample).others
    refine ⟨hothers, fun hover => hfault .overcurrent taken rfl (hq.trans (if_pos hover)),
      fun hunder hclass => ?_, fun hunder hclass => ⟨fun hrun => ?_, fun n hrun => ?_⟩⟩
    · exact hq.trans ((if_neg (by omega)).trans (if_neg (by simp [hclass])))
    · have hnext := nextRun_other z.run x hrun
      have hone : q = p.setSocket k { taken with run := some (nextRun z.run x) } :=
        hq.trans ((if_neg (by omega)).trans ((if_pos hclass).trans (if_neg (by simp [hnext]))))
      rw [hnext] at hone
      exact hone
    · have hnext := nextRun_same z.run x n hrun
      have htwo : q = (p.setSocket k { taken with run := some (nextRun z.run x) }).decideSocket k x sample :=
        hq.trans ((if_neg (by omega)).trans ((if_pos hclass).trans (if_pos (by simp [hnext]))))
      rw [hnext] at htwo
      have hset := p.seat_setSocket k { taken with run := some (x, 2) }
      refine ⟨fun hstands => ?_, fun hleak => ?_, fun hhead hne => ?_, fun hempty hne => ?_⟩
      · refine htwo.trans (Part.decideSocket_stands k x sample _ ?_)
        rw [hset]
        exact hstands
      · refine hfault .leak { taken with run := some (x, 2) } rfl (htwo.trans ?_)
        rw [hleak]
        unfold Part.decideSocket
        simp only [p.seat_setSocket k]
        rfl
      · rw [hhead] at htwo
        rw [htwo]
        exact p.decideSocket_headset k sample _ hne
      · rw [hempty] at htwo
        rw [htwo]
        obtain ⟨hsocket, hleaves, hstays⟩ := p.decideSocket_empty k sample { taken with run := some (.empty, 2) } hne
        exact ⟨hsocket, hleaves, fun hz => hstays (by simp [taken, hz])⟩
  · intro p l y stays
    refine ⟨fun m hm => ⟨?_, ?_⟩, p.join_listened l, p.join_waits l, fun e rest h0 hs hw hhold howner => ?_,
      p.leave_listened l, fun h1 hstays => ?_⟩
    · rw [Part.language_written (p.join_lang l), if_neg hm]
    · rw [Part.language_written (p.leave_lang l), if_neg hm]
    · have howns : p.ownsReader l = true := by simpa [Part.ownsReader] using howner
      rw [Part.language_written (p.join_lang l), if_pos rfl, hhold, howns]
      rw [Language.joined, if_pos ⟨h0, hs⟩]
      have hw' : ({ y with audience := y.audience + 1 } : Language).waiting = e :: rest := hw
      rw [show p.language l = y from rfl]
      rw [Language.unparked_cons _ _ _ hw', Language.next_cons _ _ hw', h0]
      rfl
    · have hplays : y.stream = .idle ∨ y.stream = .playing ∨ y.stream = .suspended := by
        cases hstream : y.stream <;> simp_all [stays]
      have hleave : p.leave l =
          (p.setLanguage l { y with audience := y.audience - 1 }).park l :=
        if_pos ⟨show y.audience ≤ 1 by omega, hplays⟩
      have hpark := (p.setLanguage l { y with audience := y.audience - 1 }).park_reader l
      rw [← hleave] at hpark
      refine ⟨?_, hpark⟩
      rw [Part.language_written (p.leave_lang l), if_pos rfl, Language.left,
        if_pos ⟨show y.audience ≤ 1 by omega, hplays⟩, show p.language l = y from rfl, h1]
      rfl

end Sys2Proof.Machine
end

section
/-! The reports that the Commentary Scheduler takes at a command's end, and the seat requests (R71, R132 to R134). -/

namespace Sys2Proof.Machine

/-! ### Reports of one reader -/

/-- Reports have been made by one reader alone, to the owner that it has. -/
def Part.ReportsOf (r : ReaderId) (p q : Part) : Prop :=
  ∃ l, q.bank.reports = p.bank.reports ++ l ∧ ∀ x ∈ l, x.reader = r ∧ x.owner = (p.reader r).owner

theorem Part.ReportsOf.same {r : ReaderId} {p q : Part} (h : q.bank.reports = p.bank.reports) :
    p.ReportsOf r q := ⟨[], by simp [h], fun x hx => absurd hx (by simp)⟩

theorem Part.reportsOf_report (r : ReaderId) (k : ReportKind) (p q : Part)
    (h : q.bank.reports = p.bank.reports) (ho : (q.reader r).owner = (p.reader r).owner) :
    p.ReportsOf r (q.report r k) := by
  refine ⟨[⟨r, (q.reader r).owner, k⟩], by rw [← h]; rfl, fun x hx => ?_⟩
  rw [List.mem_singleton.1 hx]
  exact ⟨rfl, ho⟩

theorem Part.fetch_reports (r : ReaderId) (p : Part) : (p.fetch r).bank.reports = p.bank.reports := by
  obtain ⟨w, page, out, h, _⟩ := p.fetch_only r
  rw [h]

/-- R39: the reports that a START's beginning may make. -/
theorem Part.beginReader_reports (r : ReaderId) (c : ClipId) (n : Nat) (p : Part) :
    p.ReportsOf r (p.beginReader r c n) := by
  unfold Part.beginReader
  extract_lets x next src q
  have howner : (q.reader r).owner = (p.reader r).owner :=
    (congrArg Reader.owner (p.reader_setReader r _)).trans rfl
  split
  · refine Part.reportsOf_report r .completed p _ (Part.stopRelease_reports _ _) ?_
    rw [(q.readersOnly_stopRelease r).owners r, howner]
  · split
    · exact .same rfl
    · exact .same (Part.fetch_reports _ _)

/-- R38, R39: a START reports only to its reader's owner. -/
theorem Part.startReader_reports (r : ReaderId) (c : ClipId) (n : Nat) (h : HoldKind) (p : Part) :
    p.ReportsOf r (p.startReader r c n h) := by
  have hstop := p.stopRelease_reports r
  have howner : ((p.stopRelease r).reader r).owner = (p.reader r).owner :=
    (p.readersOnly_stopRelease r).owners r
  unfold Part.startReader
  split
  · exact .same rfl
  · extract_lets q
    split
    · cases h with
      | take => exact Part.reportsOf_report r _ p q hstop howner
      | transfer =>
        refine Part.reportsOf_report r _ p (q.releaseHold c) ?_ ?_
        · rw [Part.releaseHold_bank]
          exact hstop
        · exact ((q.readersOnly_releaseHold c).owners r).trans howner
    · have hbegin : ∀ t : Part, t.bank = q.bank → p.ReportsOf r (t.beginReader r c n) := by
        intro t ht
        obtain ⟨l, hl, hx⟩ := Part.beginReader_reports r c n t
        have hto : (t.reader r).owner = (p.reader r).owner := by
          rw [← howner]
          unfold Part.reader
          rw [ht]
        exact ⟨l, by rw [hl, ht, hstop], fun x hm => ⟨(hx x hm).1, (hx x hm).2.trans hto⟩⟩
      cases h with
      | take => exact hbegin _ rfl
      | transfer => exact hbegin _ rfl

/-! ### Reports to the Commentary Scheduler -/

/-- Every waiting report is one to the Commentary Scheduler. -/
def Part.ToCommentary (p : Part) : Prop := ∀ x ∈ p.bank.reports, x.owner = .commentary

theorem Part.ToCommentary.same {p q : Part} (h : p.ToCommentary) (hr : q.bank.reports = p.bank.reports) :
    q.ToCommentary := by
  unfold Part.ToCommentary
  rw [hr]
  exact h

theorem Part.ReportsOf.toCommentary {r : ReaderId} {p q : Part} (h : p.ReportsOf r q)
    (ho : (p.reader r).owner = .commentary) (hp : p.ToCommentary) : q.ToCommentary := by
  obtain ⟨l, hl, hx⟩ := h
  intro x hm
  rw [hl] at hm
  rcases List.mem_append.1 hm with hm | hm
  · exact hp x hm
  · exact (hx x hm).2.trans ho

theorem Part.toCommentary_startEntry (l : Lang) (p : Part) (h : p.ToCommentary) :
    (p.startEntry l).ToCommentary := by
  unfold Part.startEntry
  split
  · exact h
  · split
    · rename_i howns
      have ho : (p.reader (chan l)).owner = .commentary := by simpa [Part.ownsReader] using howns
      exact (Part.startReader_reports _ _ _ _ _).toCommentary ho h
    · exact h

theorem Part.toCommentary_playNext (l : Lang) (p : Part) (h : p.ToCommentary) :
    (p.playNext l).ToCommentary := by
  cases hw : (p.language l).waiting with
  | nil =>
    rw [p.playNext_nil l hw]
    exact h
  | cons e rest =>
    rw [p.playNext_cons l hw]
    exact Part.toCommentary_startEntry l _ h

theorem Part.toCommentary_streamNotice (l : Lang) (r : StreamReason) (p : Part) (h : p.ToCommentary) :
    (p.streamNotice l r).ToCommentary := h.same (by rw [Part.streamNotice_bank])

theorem Part.toCommentary_join (l : Lang) (p : Part) (h : p.ToCommentary) : (p.join l).ToCommentary := by
  unfold Part.join
  extract_lets x q
  have hq : q.ToCommentary := h
  split
  · cases hw : (q.language l).waiting with
    | nil =>
      rw [q.unpark_nil l hw]
      exact Part.toCommentary_streamNotice l _ _ hq
    | cons e rest =>
      rw [q.unpark_cons l hw]
      split
      · exact Part.toCommentary_streamNotice l _ _ hq
      · exact Part.toCommentary_streamNotice l _ _ (Part.toCommentary_playNext l q hq)
  · exact hq

theorem Part.toCommentary_move (l m : Lang) (p : Part) (h : p.ToCommentary) : (p.move l m).ToCommentary := by
  unfold Part.move
  split
  · exact h
  · exact Part.toCommentary_join m _ (h.same (p.leave_reports l))

/-- R71: the notice of an entry that its reader's report has removed. -/
def Part.skipTold (l : Lang) (k : ReportKind) (p : Part) : Part :=
  match k with
  | .completed | .cut | .abandoned => p
  | .refused .clipRetiring => p.streamNotice l .skippedRetiring
  | .refused .clipFree | .refused .holdLimit => p.streamNotice l .skippedAbsent

theorem Part.commentaryReport_discarded (l : Lang) (k : ReportKind) (p : Part)
    (h : ∀ e, (p.language l).current = some e → e.started = false) : p.commentaryReport l k = p := by
  unfold Part.commentaryReport
  rcases Option.eq_none_or_eq_some (p.language l).current with hc | ⟨e, hc⟩
  · simp only [hc]
  · simp only [hc, h e hc]
    rfl

theorem Part.commentaryReport_removes (l : Lang) (k : ReportKind) (p : Part) {e : Entry}
    (hc : (p.language l).current = some e) (hs : e.started = true) :
    let q := (p.setLanguage l { p.language l with current := none }).skipTold l k
    p.commentaryReport l k = if (p.language l).stream = .playing then q.playNext l else q := by
  unfold Part.commentaryReport Part.skipTold
  simp only [hc, hs, if_true] <;> rcases k with _ | _ | _ | _ | _ | _ <;> rfl

theorem Part.skipTold_only (l : Lang) (k : ReportKind) (p : Part) :
    ∃ link, p.skipTold l k = { p with link := link } := by
  unfold Part.skipTold
  split
  · exact ⟨p.link, rfl⟩
  · exact ⟨p.link, rfl⟩
  · exact ⟨p.link, rfl⟩
  · exact ⟨_, p.streamNotice_eq l _⟩
  · exact ⟨_, p.streamNotice_eq l _⟩
  · exact ⟨_, p.streamNotice_eq l _⟩

theorem Part.skipTold_bank (l : Lang) (k : ReportKind) (p : Part) : (p.skipTold l k).bank = p.bank := by
  obtain ⟨link, h⟩ := p.skipTold_only l k
  rw [h]

theorem Part.skipTold_lang (l : Lang) (k : ReportKind) (p : Part) : (p.skipTold l k).lang = p.lang := by
  obtain ⟨link, h⟩ := p.skipTold_only l k
  rw [h]

/-- R71: a report is discarded, or removes a started entry. -/
theorem Part.commentaryReport_cases (l : Lang) (p : Part) :
    (∃ e, (p.language l).current = some e ∧ e.started = true) ∨
      ∀ e, (p.language l).current = some e → e.started = false := by
  rcases Option.eq_none_or_eq_some (p.language l).current with hc | ⟨e, hc⟩
  · exact .inr fun e he => absurd (hc.symm.trans he) (by simp)
  · cases hs : e.started with
    | true => exact .inl ⟨e, hc, hs⟩
    | false => exact .inr fun e' he => by rw [← Option.some.inj (hc.symm.trans he), hs]

theorem Part.toCommentary_commentaryReport (l : Lang) (k : ReportKind) (p : Part) (h : p.ToCommentary) :
    (p.commentaryReport l k).ToCommentary := by
  rcases p.commentaryReport_cases l with ⟨e, hc, hs⟩ | hd
  · rw [p.commentaryReport_removes l k hc hs]
    have ht : ((p.setLanguage l { p.language l with current := none }).skipTold l k).ToCommentary :=
      h.same (by rw [Part.skipTold_bank]; rfl)
    split
    · exact Part.toCommentary_playNext l _ ht
    · exact ht
  · rw [p.commentaryReport_discarded l k hd]
    exact h

/-! ### What the taking of such reports makes of the part -/

/-- R71: a stream to which a report of its reader has come. -/
def Language.reported (owns : Bool) (x : Language) : Language :=
  match x.current with
  | none => x
  | some e =>
    if e.started then
      if x.stream = .playing then ({ x with current := none } : Language).next owns
      else { x with current := none }
    else x

theorem Language.next_audience (owns : Bool) (x : Language) : (x.next owns).audience = x.audience := by
  unfold Language.next
  split <;> rfl

theorem Language.reported_audience (owns : Bool) (x : Language) : (x.reported owns).audience = x.audience := by
  unfold Language.reported
  split
  · rfl
  · split
    · split
      · exact Language.next_audience _ _
      · rfl
    · rfl

theorem Part.commentaryReport_lang (l : Lang) (k : ReportKind) (p : Part) :
    (p.commentaryReport l k).lang = p.lang.written l ((p.language l).reported (p.ownsReader l)) := by
  rcases p.commentaryReport_cases l with ⟨e, hc, hs⟩ | hd
  · rw [p.commentaryReport_removes l k hc hs]
    have hlang : ((p.setLanguage l { p.language l with current := none }).skipTold l k).lang =
        p.lang.written l { p.language l with current := none } := Part.skipTold_lang _ _ _
    have hbank : ((p.setLanguage l { p.language l with current := none }).skipTold l k).bank = p.bank :=
      Part.skipTold_bank _ _ _
    generalize (p.setLanguage l { p.language l with current := none }).skipTold l k = t at hlang hbank
    have howns : t.ownsReader l = p.ownsReader l := by
      unfold Part.ownsReader Part.reader
      rw [hbank]
    simp only [Language.reported, hc, hs, if_true]
    split
    · rw [Part.playNext_lang, Part.language_written hlang, if_pos rfl, howns, hlang, LangTable.written_written]
    · exact hlang
  · rw [p.commentaryReport_discarded l k hd]
    have : (p.language l).reported (p.ownsReader l) = p.language l := by
      rcases Option.eq_none_or_eq_some (p.language l).current with hc | ⟨e, hc⟩
      · simp only [Language.reported, hc]
      · simp only [Language.reported, hc, hd e hc]
        rfl
    rw [this, LangTable.written_same]

theorem Part.audience_written {p q : Part} {l : Lang} {x : Language} (h : q.lang = p.lang.written l x)
    (hx : x.audience = (p.language l).audience) (m : Lang) :
    (q.language m).audience = (p.language m).audience := by
  rw [Part.language_written h]
  by_cases hm : m = l
  · rw [if_pos hm, hx, hm]
  · rw [if_neg hm]

theorem Part.streamsOnly_setReports (p : Part) (l : List Report) :
    p.StreamsOnly { p with bank := { p.bank with reports := l } } :=
  ⟨rfl, rfl, rfl, rfl, rfl, rfl, rfl, rfl, rfl, rfl, fun _ => .refl _, rfl, rfl, fun _ => .refl _, .refl _⟩

/-- The taking of reports to the Commentary Scheduler alone changes the streams alone, and no audience. -/
theorem Part.drain_toCommentary (n : Nat) (p : Part) (h : p.ToCommentary) :
    p.StreamsOnly (p.drain n) ∧ ∀ m, ((p.drain n).language m).audience = (p.language m).audience := by
  induction n generalizing p with
  | zero => exact ⟨p.streamsOnly_setReports [], fun _ => rfl⟩
  | succ n ih =>
    unfold Part.drain
    cases hr : p.bank.reports with
    | nil => exact ⟨.refl p, fun _ => rfl⟩
    | cons x rest =>
      simp only
      have hx : x.owner = .commentary := h x (by simp [hr])
      have hq : Part.ToCommentary { p with bank := { p.bank with reports := rest } } := fun y hy =>
        h y (by rw [hr]; exact List.mem_cons_of_mem x hy)
      have hs := p.streamsOnly_setReports rest
      have ha : ∀ m, (Part.language { p with bank := { p.bank with reports := rest } } m).audience =
        (p.language m).audience := fun _ => rfl
      generalize ({ p with bank := { p.bank with reports := rest } } : Part) = q at hq hs ha
      have htake : q.StreamsOnly (q.takeReport x) ∧ (q.takeReport x).ToCommentary ∧
          ∀ m, ((q.takeReport x).language m).audience = (q.language m).audience := by
        unfold Part.takeReport
        simp only [hx]
        split
        · exact ⟨q.streamsOnly_commentaryReport _ _, Part.toCommentary_commentaryReport _ _ q hq,
            Part.audience_written (q.commentaryReport_lang _ _) (Language.reported_audience _ _)⟩
        · exact ⟨.refl q, hq, fun _ => rfl⟩
      obtain ⟨htaken, hto, hta⟩ := htake
      obtain ⟨hrest, hra⟩ := ih _ hto
      exact ⟨hs.trans (htaken.trans hrest), fun m => (hra m).trans ((hta m).trans (ha m))⟩

/-- The end of a command whose reports are all to the Commentary Scheduler. -/
theorem State.onPart_streams (s : State) (f : Part → Part) (h : (f s.part).ToCommentary) :
    ∃ q, (f s.part).StreamsOnly q ∧ (∀ m, (q.language m).audience = ((f s.part).language m).audience) ∧
      q.bank.reports = [] ∧ s.onPart f = { s with part := q.served } := by
  obtain ⟨hs, ha⟩ := Part.drain_toCommentary 1024 _ h
  exact ⟨_, hs, ha, (f s.part).drain_reports 1024, rfl⟩

/-! ### SEAT-SET (R132) -/

theorem Language.left_audience (x : Language) : x.left.audience = x.audience - 1 := by
  unfold Language.left Language.parked
  split <;> rfl

theorem Language.joined_audience (hold owns : Bool) (x : Language) :
    (x.joined hold owns).audience = x.audience + 1 := by
  unfold Language.joined Language.unparked
  split
  · split
    · rfl
    · split
      · rfl
      · rw [Language.next_audience]
  · rfl

/-- R60: what a move does to the audiences. -/
theorem Part.move_audience (l m : Lang) (p : Part) (h : l ≠ m) (o : Lang) :
    ((p.move l m).language o).audience =
      if o = m then (p.language o).audience + 1
      else if o = l then (p.language o).audience - 1 else (p.language o).audience := by
  have hmove : p.move l m = (p.leave l).join m := if_neg h
  have hleft := Part.language_written (p.leave_lang l)
  rw [hmove, Part.language_written ((p.leave l).join_lang m)]
  by_cases hom : o = m
  · rw [if_pos hom, if_pos hom, Language.joined_audience, hleft, if_neg (fun e => h e.symm), hom]
  · rw [if_neg hom, if_neg hom, hleft]
    by_cases hol : o = l
    · rw [if_pos hol, if_pos hol, Language.left_audience, hol]
    · rw [if_neg hol, if_neg hol]

theorem Part.recomputeSeat_eq (k : SeatId) (p : Part) : p.recomputeSeat k =
    p.setSeat k ((p.seat k).recompute p.level (p.language (p.seat k).language).trim) := rfl

/-- The SEAT notice of a seat's record. -/
def Seat.notice (k : SeatId) (s : Seat) : Notice :=
  .seat k s.socket.state s.language s.volume s.socket.noticeReason

theorem Part.seatNotice_eq (k : SeatId) (p : Part) :
    p.seatNotice k = { p with link := p.link.noted ((p.seat k).notice k) p.time } := Part.raise_only_link _ _

/-- R114, R132: what a change of a seat's language leaves of the part, but for the listener's move. -/
theorem Part.changeLanguage_eq (k : SeatId) (l : Lang) (p : Part) (h : (p.seat k).language ≠ l) :
    let s := p.seat k
    let t := if s.socket.state = .attached then (p.setSeat k { s with language := l }).move s.language l
      else p.setSeat k { s with language := l }
    p.changeLanguage k l = (t.recomputeSeat k).seatNotice k := if_neg h

/-- R60: a seat whose language becomes another has its listener moved. -/
theorem Part.changeLanguage_audience (k : SeatId) (l : Lang) (p : Part) (o : Lang) :
    ((p.changeLanguage k l).language o).audience =
      if (p.seat k).language ≠ l ∧ (p.seat k).socket.state = .attached then
        if o = l then (p.language o).audience + 1
        else if o = (p.seat k).language then (p.language o).audience - 1 else (p.language o).audience
      else (p.language o).audience := by
  by_cases hl : (p.seat k).language = l
  · rw [if_neg fun h => h.1 hl]
    unfold Part.changeLanguage
    simp only [if_pos hl]
  · have heq := p.changeLanguage_eq k l hl
    by_cases ha : (p.seat k).socket.state = .attached
    · rw [if_pos ⟨hl, ha⟩]
      simp only [if_pos ha] at heq
      have hlang : ∀ q : Part, ((q.recomputeSeat k).seatNotice k).language o = q.language o := fun q => by
        rw [Part.seatNotice_eq]
        rfl
      rw [heq, hlang, Part.move_audience _ _ _ hl]
      rfl
    · rw [if_neg fun h => ha h.2]
      simp only [if_neg ha] at heq
      rw [heq, Part.seatNotice_eq]
      rfl

theorem Part.changeLanguage_toCommentary (k : SeatId) (l : Lang) (p : Part) (h : p.ToCommentary) :
    (p.changeLanguage k l).ToCommentary := by
  by_cases hl : (p.seat k).language = l
  · unfold Part.changeLanguage
    simp only [if_pos hl]
    exact h
  · rw [p.changeLanguage_eq k l hl, Part.seatNotice_eq]
    split
    · exact Part.toCommentary_move _ _ (p.setSeat k { p.seat k with language := l }) h
    · exact h

/-- R132: the record of a seat whose language and volume are set. -/
def Seat.chosen (u : LevelUnit) (trim : Int) (l : Lang) (v : Nat) (s : Seat) : Seat :=
  if s.language = l ∧ s.volume = v then s
  else { s with
    language := l, volume := v
    pending := if s.socket.state = .attached then seatCode u v trim else .mute }

theorem Part.trim_of {p q : Part} {l : Lang} (h : (p.language l).Configured (q.language l)) :
    (q.language l).trim = (p.language l).trim := by
  unfold Language.Configured at h
  rw [h]

theorem Part.changeLanguage_seat_eq (k : SeatId) (l : Lang) (p : Part) (h : (p.seat k).language ≠ l) :
    (p.changeLanguage k l).seat k =
      ({ p.seat k with language := l } : Seat).recompute p.level (p.language l).trim := by
  rw [p.changeLanguage_eq k l h, Part.seatNotice_eq, Part.recomputeSeat_eq]
  have hset : (p.setSeat k { p.seat k with language := l }).seat k = { p.seat k with language := l } :=
    Part.seat_setSeat _ _ _
  have ht : ∀ t : Part, (p.setSeat k { p.seat k with language := l }).StreamsOnly t →
      (t.setSeat k ((t.seat k).recompute t.level (t.language (t.seat k).language).trim)).seat k =
        ({ p.seat k with language := l } : Seat).recompute p.level (p.language l).trim := fun t h => by
    rw [Part.seat_setSeat, h.seat, hset, h.level, Part.trim_of (h.langs _)]
    rfl
  split
  · exact ht _ (Part.streamsOnly_move _ _ _)
  · exact ht _ (.refl _)

theorem Part.changeVolume_eq (k : SeatId) (v : Nat) (p : Part) (h : (p.seat k).volume ≠ v) :
    let s := ({ p.seat k with volume := v } : Seat).recompute p.level (p.language (p.seat k).language).trim
    p.changeVolume k v = { p.setSeat k s with link := p.link.noted (s.notice k) p.time } := by
  have hset : (p.setSeat k { p.seat k with volume := v }).seat k = { p.seat k with volume := v } :=
    Part.seat_setSeat _ _ _
  have hchange : p.changeVolume k v =
      ((p.setSeat k { p.seat k with volume := v }).recomputeSeat k).seatNotice k := if_neg h
  intro s
  rw [hchange, Part.seatNotice_eq, Part.recomputeSeat_eq, hset, Part.seat_setSeat]
  simp only [Part.setSeat, vset_vset]
  rfl

theorem Seat.chosen_same (u : LevelUnit) (trim : Int) (l : Lang) (v : Nat) (s : Seat) (hl : s.language = l)
    (hv : s.volume = v) : s.chosen u trim l v = s := if_pos ⟨hl, hv⟩

theorem Seat.chosen_changed (u : LevelUnit) (trim : Int) (l : Lang) (v : Nat) (s : Seat)
    (h : s.language ≠ l ∨ s.volume ≠ v) :
    s.chosen u trim l v = ({ s with language := l, volume := v } : Seat).recompute u trim :=
  if_neg fun ⟨hl, hv⟩ => h.elim (fun hn => hn hl) fun hn => hn hv

theorem Part.changeLanguage_same (k : SeatId) (l : Lang) (p : Part) (h : (p.seat k).language = l) :
    p.changeLanguage k l = p := if_pos h

theorem Part.changeVolume_same (k : SeatId) (v : Nat) (p : Part) (h : (p.seat k).volume = v) :
    p.changeVolume k v = p := if_pos h

theorem Part.setChoice_seat (l : Lang) (v : Nat) (k : SeatId) (p : Part) :
    (p.setChoice l v k).seat k = (p.seat k).chosen p.level (p.language l).trim l v := by
  have hvolume : ∀ q : Part, (q.seat k).language = l → (q.seat k).volume ≠ v →
      (q.changeVolume k v).seat k =
        ({ q.seat k with volume := v } : Seat).recompute q.level (q.language l).trim := fun q hq hv => by
    rw [q.changeVolume_eq k v hv, hq]
    exact Part.seat_setSeat _ _ _
  change ((p.changeLanguage k l).changeVolume k v).seat k = _
  by_cases hl : (p.seat k).language = l
  · rw [p.changeLanguage_same k l hl]
    by_cases hv : (p.seat k).volume = v
    · rw [p.changeVolume_same k v hv, Seat.chosen_same _ _ _ _ _ hl hv]
    · rw [hvolume p hl hv, Seat.chosen_changed _ _ _ _ _ (.inr hv), ← hl]
  · have hseat := p.changeLanguage_seat_eq k l hl
    have hevent := p.seatEvent_changeLanguage k l
    rw [Seat.chosen_changed _ _ _ _ _ (.inl hl)]
    by_cases hv : (p.seat k).volume = v
    · rw [Part.changeVolume_same k v _ (by rw [hseat]; exact hv), hseat, ← hv]
    · rw [hvolume _ (by rw [hseat]; rfl) (by rw [hseat]; exact hv), hseat, hevent.level,
        Part.trim_of (hevent.langs l)]
      rfl

theorem Part.changeVolume_language (k : SeatId) (v : Nat) (p : Part) (o : Lang) :
    (p.changeVolume k v).language o = p.language o := by
  by_cases hv : (p.seat k).volume = v
  · rw [p.changeVolume_same k v hv]
  · rw [p.changeVolume_eq k v hv]
    rfl

theorem Part.setChoice_audience (l : Lang) (v : Nat) (k : SeatId) (p : Part) (o : Lang) :
    ((p.setChoice l v k).language o).audience =
      if (p.seat k).language ≠ l ∧ (p.seat k).socket.state = .attached then
        if o = l then (p.language o).audience + 1
        else if o = (p.seat k).language then (p.language o).audience - 1 else (p.language o).audience
      else (p.language o).audience := by
  change (((p.changeLanguage k l).changeVolume k v).language o).audience = _
  rw [Part.changeVolume_language, Part.changeLanguage_audience]

theorem Part.setChoice_toCommentary (l : Lang) (v : Nat) (k : SeatId) (p : Part) (h : p.ToCommentary) :
    (p.setChoice l v k).ToCommentary := by
  have hl := p.changeLanguage_toCommentary k l h
  change ((p.changeLanguage k l).changeVolume k v).ToCommentary
  by_cases hv : ((p.changeLanguage k l).seat k).volume = v
  · rw [Part.changeVolume_same k v _ hv]
    exact hl
  · rw [Part.changeVolume_eq k v _ hv]
    exact hl

/-- R131, R132: the notices of a seat whose language and volume are set. -/
def Seat.choiceNotices (k : SeatId) (l : Lang) (v : Nat) (s : Seat) : List Notice :=
  (if s.language = l then [] else [.seat k s.socket.state l s.volume s.socket.noticeReason]) ++
    if s.volume = v then [] else [.seat k s.socket.state l v s.socket.noticeReason]

/-- R132: a seat set without a move of a listener. -/
theorem Part.setChoice_unmoved (l : Lang) (v : Nat) (k : SeatId) (p : Part)
    (h : (p.seat k).language ≠ l → (p.seat k).socket.state ≠ .attached) :
    p.setChoice l v k = { p.setSeat k ((p.seat k).chosen p.level (p.language l).trim l v) with
      link := ((p.seat k).choiceNotices k l v).foldl (fun m n => m.noted n p.time) p.link } := by
  have hseats : ∃ seats link, p.setChoice l v k = { p with seats := seats, link := link } ∧
      (∀ j, j ≠ k → vget seats j = p.seat j) ∧
      link = ((p.seat k).choiceNotices k l v).foldl (fun m n => m.noted n p.time) p.link := by
    change ∃ seats link, (p.changeLanguage k l).changeVolume k v = _ ∧ _
    unfold Seat.choiceNotices
    by_cases hl : (p.seat k).language = l
    · rw [p.changeLanguage_same k l hl, if_pos hl]
      by_cases hv : (p.seat k).volume = v
      · rw [p.changeVolume_same k v hv, if_pos hv]
        exact ⟨p.seats, p.link, rfl, fun _ _ => rfl, rfl⟩
      · rw [p.changeVolume_eq k v hv, if_neg hv]
        refine ⟨_, _, rfl, fun j hj => vget_vset_ne _ _ hj, ?_⟩
        rw [← hl]
        rfl
    · have hseat := p.changeLanguage_seat_eq k l hl
      have hlang := p.changeLanguage_eq k l hl
      simp only [if_neg (h hl)] at hlang
      rw [Part.seatNotice_eq, Part.recomputeSeat_eq] at hlang
      generalize p.changeLanguage k l = q at hseat hlang
      simp only [Part.setSeat, vset_vset, Part.seat, vget_vset_same] at hlang
      have hq : (q.seat k).volume = (p.seat k).volume := by rw [hseat]; rfl
      rw [if_neg hl]
      by_cases hv : (p.seat k).volume = v
      · rw [Part.changeVolume_same k v q (hq.trans hv), if_pos hv, hlang]
        exact ⟨_, _, rfl, fun j hj => vget_vset_ne _ _ hj, rfl⟩
      · rw [Part.changeVolume_eq k v q (fun e => hv (hq.symm.trans e)), if_neg hv, hseat, hlang]
        exact ⟨_, _, rfl, fun j hj => (vget_vset_ne _ _ hj).trans (vget_vset_ne _ _ hj), rfl⟩
  obtain ⟨seats, link, hq, hothers, hlink⟩ := hseats
  have hown : vget seats k = (p.seat k).chosen p.level (p.language l).trim l v := by
    rw [← p.setChoice_seat l v k, hq]
    rfl
  have hvec : seats = vset p.seats k ((p.seat k).chosen p.level (p.language l).trim l v) :=
    vector_ext fun j => by
      by_cases hj : j = k
      · rw [hj, hown, vget_vset_same]
      · rw [hothers j hj, vget_vset_ne _ _ hj]
        rfl
  rw [hq, hvec, hlink]
  rfl

/-- R132: a seat whose listener moves when its language becomes another. -/
def Seat.moves (l : Lang) (s : Seat) : Bool := decide (s.language ≠ l ∧ s.socket.state = .attached)

theorem Seat.moves_iff (l : Lang) (s : Seat) :
    s.moves l = true ↔ s.language ≠ l ∧ s.socket.state = .attached := decide_eq_true_iff

theorem Part.setChoice_event (l : Lang) (v : Nat) (k : SeatId) (p : Part) : p.SeatEvent k (p.setChoice l v k) :=
  (p.seatEvent_changeLanguage k l).trans (Part.seatEvent_changeVolume k v _)

/-- R132: what the seats of a SEAT-SET become, each treated once, and what else the request changes. -/
structure Part.Chosen (l : Lang) (v : Nat) (ks : List SeatId) (p q : Part) : Prop where
  time : q.time = p.time
  strings : q.strings = p.strings
  level : q.level = p.level
  supply : q.supply = p.supply
  light : q.light = p.light
  treated : ∀ j ∈ ks, q.seat j = (p.seat j).chosen p.level (p.language l).trim l v
  others : ∀ j, j ∉ ks → q.seat j = p.seat j
  audience : ∀ m, (q.language m).audience =
    if m = l then (p.language m).audience + (ks.filter fun j => (p.seat j).moves l).length
    else (p.language m).audience -
      (ks.filter fun j => (p.seat j).moves l && decide ((p.seat j).language = m)).length
  reports : p.ToCommentary → q.ToCommentary
  link : p.link.Noted q.link
  unmoved : (∀ j ∈ ks, (p.seat j).moves l = false) → q = { p with
    seats := q.seats
    link := (ks.flatMap fun j => (p.seat j).choiceNotices j l v).foldl (fun m n => m.noted n p.time) p.link }

theorem Part.setChoices_chosen (l : Lang) (v : Nat) (ks : List SeatId) (hnd : ks.Nodup) (p : Part) :
    p.Chosen l v ks (ks.foldl (fun q k => q.setChoice l v k) p) := by
  induction ks generalizing p with
  | nil =>
    refine ⟨rfl, rfl, rfl, rfl, rfl, fun j hj => absurd hj (by simp), fun _ _ => rfl, fun m => ?_, id, .refl _,
      fun _ => rfl⟩
    split <;> rfl
  | cons k ks ih =>
    obtain ⟨hk, hnd⟩ := List.nodup_cons.1 hnd
    have hevent := p.setChoice_event l v k
    have hseat := p.setChoice_seat l v k
    have haud := p.setChoice_audience l v k
    have hrep := p.setChoice_toCommentary l v k
    have hquiet := p.setChoice_unmoved l v k
    rw [List.foldl_cons]
    have h := ih hnd (p.setChoice l v k)
    generalize p.setChoice l v k = r at hevent hseat haud hrep hquiet h
    have hother : ∀ j ∈ ks, r.seat j = p.seat j := fun j hj => hevent.others j fun e => hk (e ▸ hj)
    have hfilter : ∀ f : Seat → Bool, (ks.filter fun j => f (r.seat j)) = ks.filter fun j => f (p.seat j) :=
      fun f => List.filter_congr fun j hj => by rw [hother j hj]
    have htrim := Part.trim_of (hevent.langs l)
    refine ⟨h.time.trans hevent.time, h.strings.trans hevent.strings, h.level.trans hevent.level,
      h.supply.trans hevent.supply, h.light.trans hevent.light, fun j hj => ?_, fun j hj => ?_, fun m => ?_,
      fun hp => h.reports (hrep hp), hevent.link.trans h.link, fun hall => ?_⟩
    · rcases List.mem_cons.1 hj with rfl | hjs
      · rw [h.others j hk, hseat]
      · rw [h.treated j hjs, hother j hjs, hevent.level, htrim]
    · obtain ⟨hjk, hjs⟩ := not_or.1 (mt List.mem_cons.2 hj)
      rw [h.others j hjs, hevent.others j hjk]
    · rw [h.audience m, haud m, hfilter (fun s => s.moves l),
        hfilter (fun s => s.moves l && decide (s.language = m))]
      by_cases hmoves : (p.seat k).language ≠ l ∧ (p.seat k).socket.state = .attached
      · have hb := (Seat.moves_iff l _).2 hmoves
        rw [if_pos hmoves]
        by_cases hm : m = l
        · simp only [if_pos hm, List.filter_cons, hb, if_true, List.length_cons]
          omega
        · simp only [if_neg hm, List.filter_cons, hb, Bool.true_and, decide_eq_true_eq]
          by_cases hmk : m = (p.seat k).language
          · rw [if_pos hmk, if_pos hmk.symm, List.length_cons]
            omega
          · rw [if_neg hmk, if_neg (Ne.symm hmk)]
      · have hb : (p.seat k).moves l = false := by
          rw [← Bool.not_eq_true, Seat.moves_iff]
          exact hmoves
        rw [if_neg hmoves]
        simp only [List.filter_cons, hb, Bool.false_and]
        rfl
    · have hq := hquiet fun hn ha => by
        have hf := hall k (by simp)
        rw [(Seat.moves_iff l _).2 ⟨hn, ha⟩] at hf
        exact absurd hf (by simp)
      have hrest := h.unmoved fun j hj => by
        rw [hother j hj]
        exact hall j (List.mem_cons_of_mem k hj)
      have hnotices : (ks.flatMap fun j => (r.seat j).choiceNotices j l v) =
          ks.flatMap fun j => (p.seat j).choiceNotices j l v := by
        simp only [List.flatMap_def]
        exact congrArg List.flatten (List.map_congr_left fun j hj => by rw [hother j hj])
      have hlink : r.link = _ := congrArg Part.link hq
      rw [hnotices, hevent.time, hlink] at hrest
      rw [List.flatMap_cons, List.foldl_append]
      generalize ks.foldl (fun q k => q.setChoice l v k) r = q at hrest
      rw [hrest, hq]
      rfl

end Sys2Proof.Machine
end

section
/-! The seat requests (R132 to R134). -/

namespace Sys2Proof.Machine

/-! ### Requests that are refused (R132 to R134) -/

theorem readExact_none {n : Nat} {body : Bytes} (h : body.length ≠ n) : readExact n body = none := if_neg h

theorem oneOfTwo_none {x : Nat} (h : 2 ≤ x) : oneOfTwo x = none := by
  match x, h with
  | n + 2, _ => rfl

theorem treatedSeats_none {x : Nat} (h : 96 ≤ x) (hne : x ≠ 255) : treatedSeats x = none := by
  unfold treatedSeats
  rw [if_neg hne, ident_none h]
  rfl

theorem Part.takeSeatSet_length (tag : Byte) (body : Bytes) (p : Part) (h : body.length ≠ 3) :
    ∃ f, p.takeSeatSet tag body = p.answer .seatSet tag .badLength f := by
  unfold Part.takeSeatSet
  simp only [readExact_none h]
  exact ⟨_, rfl⟩

/-- R132: a SEAT-SET of a seat or language out of range, or of a disabled language. -/
theorem Part.takeSeatSet_value (tag : Byte) (body : Bytes) (p : Part) (hl : body.length = 3)
    (h : (96 ≤ b8 body 0 ∧ b8 body 0 ≠ 255) ∨ 12 ≤ b8 body 1 ∨
      ∃ l : Lang, b8 body 1 = l.val ∧ (p.language l).enabled = false) :
    ∃ f, p.takeSeatSet tag body = p.answer .seatSet tag .badValue f := by
  unfold Part.takeSeatSet
  simp only [readExact_eq hl]
  rcases h with ⟨h1, h2⟩ | h | ⟨l, hl, hd⟩
  · simp only [treatedSeats_none h1 h2]
    exact ⟨_, rfl⟩
  · simp only [ident_none h]
    cases treatedSeats (b8 body 0) <;> exact ⟨_, rfl⟩
  · simp only [ident_eq l hl]
    cases treatedSeats (b8 body 0) with
    | none => exact ⟨_, rfl⟩
    | some seats =>
      simp only [hd]
      exact ⟨_, rfl⟩

theorem Part.takeSeatQuery_refused (tag : Byte) (body : Bytes) (p : Part) :
    (body.length ≠ 2 → ∃ f, p.takeSeatQuery tag body = p.answer .seatQuery tag .badLength f) ∧
    (body.length = 2 → 96 ≤ b8 body 0 ∨ 2 ≤ b8 body 1 →
      ∃ f, p.takeSeatQuery tag body = p.answer .seatQuery tag .badValue f) := by
  unfold Part.takeSeatQuery
  refine ⟨fun h => ?_, fun hl h => ?_⟩
  · simp only [readExact_none h]
    exact ⟨_, rfl⟩
  · simp only [readExact_eq hl]
    rcases h with h | h
    · simp only [ident_none h]
      exact ⟨_, rfl⟩
    · simp only [oneOfTwo_none h]
      cases ident 96 (b8 body 0) <;> exact ⟨_, rfl⟩

theorem Part.takeSeatRelease_refused (tag : Byte) (body : Bytes) (p : Part) :
    (body.length ≠ 1 → ∃ f, p.takeSeatRelease tag body = p.answer .seatRelease tag .badLength f) ∧
    (body.length = 1 → 96 ≤ b8 body 0 →
      ∃ f, p.takeSeatRelease tag body = p.answer .seatRelease tag .badValue f) := by
  unfold Part.takeSeatRelease
  refine ⟨fun h => ?_, fun hl h => ?_⟩
  · have hread : readByte body = none := if_neg h
    simp only [hread]
    exact ⟨_, rfl⟩
  · simp only [readByte_one hl, ident_none h]
    exact ⟨_, rfl⟩

/-! ### SEAT-SET -/

theorem Seat.differs_iff (s : Seat) (l : Lang) (v : Nat) :
    s.differs l v = decide (s.language ≠ l ∨ s.volume ≠ v) := by
  simp [Seat.differs, Bool.decide_or]

theorem Part.takeSeatSet_takes (tag : Byte) (body : Bytes) (p : Part) (l : Lang) (seats : List SeatId)
    (hl : body.length = 3) (hlang : b8 body 1 = l.val) (hon : (p.language l).enabled = true)
    (hseats : treatedSeats (b8 body 0) = some seats) :
    p.takeSeatSet tag body =
      Part.answer .seatSet tag (clampStatus (decide (15 < b8 body 2)))
        (o8 (named8 body) ++ e8 (seats.filter fun j =>
          (p.seat j).language ≠ l ∨ (p.seat j).volume ≠ min 15 (b8 body 2)).length)
        (seats.foldl (fun q k => q.setChoice l (min 15 (b8 body 2)) k) p) := by
  unfold Part.takeSeatSet
  simp only [readExact_eq hl, hseats, ident_eq l hlang, hon, if_true, Seat.differs_iff]

theorem Socket.noticeReason_eq (k : Socket) : k.noticeReason =
    if k.state = .faulted ∨ k.state = .lockedOut then k.fault.map FaultRecord.reason else none := by
  unfold Socket.noticeReason
  cases h : k.state <;> simp

/-- The reports of a record's fields in a SEAT-SET's notices, one seat after the other. -/
theorem Seat.choiceNotices_eq (p : Part) (seats : List SeatId) (l : Lang) (v : Nat) :
    (seats.flatMap fun j => (p.seat j).choiceNotices j l v) = seats.flatMap fun j =>
      (if (p.seat j).language = l then []
        else [Notice.seat j (p.seat j).socket.state l (p.seat j).volume
          (if (p.seat j).socket.state = .faulted ∨ (p.seat j).socket.state = .lockedOut
            then (p.seat j).socket.fault.map FaultRecord.reason else none)]) ++
      (if (p.seat j).volume = v then []
        else [Notice.seat j (p.seat j).socket.state l v
          (if (p.seat j).socket.state = .faulted ∨ (p.seat j).socket.state = .lockedOut
            then (p.seat j).socket.fault.map FaultRecord.reason else none)]) := by
  simp only [Seat.choiceNotices, Socket.noticeReason_eq]

/-- R132: a taken SEAT-SET, up to the end of its command. -/
theorem exec_seatSet (s : State) (tag : Byte) (body : Bytes) (l : Lang) (seats : List SeatId) (hq : s.quiet)
    (hcan : s.part.canTake .seatSet tag body) (hl : body.length = 3) (hlang : b8 body 1 = l.val)
    (hon : (s.part.language l).enabled = true) (hnd : seats.Nodup)
    (hseats : treatedSeats (b8 body 0) = some seats) :
    let p : Part := { s.part with link := s.part.takenLink .seatSet tag body }
    let v := min 15 (b8 body 2)
    let reply : Bytes := (if 15 < b8 body 2 then 1 else 0) :: (e8 (b8 body 0) ++ e8 (seats.filter fun j =>
      (p.seat j).language ≠ l ∨ (p.seat j).volume ≠ v).length)
    ∃ q r, p.Chosen l v seats q ∧
      Part.StreamsOnly { q with link := q.link.answer .seatSet tag reply } r ∧
      (∀ m, (r.language m).audience = (q.language m).audience) ∧
      ((∀ j ∈ seats, (p.seat j).moves l = false) → r = { q with link := q.link.answer .seatSet tag reply }) ∧
      exec (.seatSet tag body) s = .next { s with part := r.served } := by
  intro p v reply
  have hexec : exec (.seatSet tag body) s =
    .next (s.onPart (Part.request .seatSet tag body (Part.takeSeatSet tag body))) := rfl
  have hc := p.setChoices_chosen l v seats hnd
  have htake := p.takeSeatSet_takes tag body l seats hl hlang hon hseats
  have hnamed : o8 (named8 body) = e8 (b8 body 0) := by
    rw [named8_long (by omega)]
    rfl
  have hstatus : (clampStatus (decide (15 < b8 body 2))).byte = if 15 < b8 body 2 then 1 else 0 := by
    unfold clampStatus
    by_cases h : 15 < b8 body 2
    · simp only [h, decide_true, if_true]
      rfl
    · simp only [h, decide_false, if_false]
      rfl
  have hrequest : (Part.request .seatSet tag body (Part.takeSeatSet tag body) s.part) =
      { seats.foldl (fun q k => q.setChoice l v k) p with
        link := (seats.foldl (fun q k => q.setChoice l v k) p).link.answer .seatSet tag reply } := by
    rw [Part.request_taken _ _ _ _ _ hcan]
    refine htake.trans ?_
    unfold Part.answer
    rw [hstatus, hnamed]
  generalize seats.foldl (fun q k => q.setChoice l v k) p = q at hc hrequest
  have hto : q.ToCommentary := hc.reports fun x hx => by
    have hnil : p.bank.reports = [] := hq
    rw [hnil] at hx
    exact absurd hx (by simp)
  by_cases hun : ∀ j ∈ seats, (p.seat j).moves l = false
  · have hreports : q.bank.reports = [] := by
      rw [hc.unmoved hun]
      exact hq
    rw [s.onPart_eq _ _ hrequest hreports] at hexec
    exact ⟨q, _, hc, .refl _, fun _ => rfl, fun _ => rfl, hexec⟩
  · obtain ⟨r, hr, haud, -, hon⟩ := s.onPart_streams
      (Part.request .seatSet tag body (Part.takeSeatSet tag body)) (by rw [hrequest]; exact hto)
    rw [hrequest] at hr haud
    exact ⟨q, r, hc, hr, haud, fun h => absurd h hun, hexec.trans (congrArg _ hon)⟩

/-! ### SEAT-QUERY and SEAT-RELEASE -/

theorem namedSeat_of {body : Bytes} {k : SeatId} (h : 1 ≤ body.length) (hk : b8 body 0 = k.val) :
    namedSeat body = some k := by
  simp only [namedSeat, named8_long h, Option.bind_some, ident_eq k hk]

theorem Part.setSeat_same (p : Part) (k : SeatId) : p.setSeat k (p.seat k) = p := by
  unfold Part.setSeat Part.seat
  rw [vset_vget]

/-- R133: a taken SEAT-QUERY of a seat. -/
theorem Part.takeSeatQuery_takes (tag : Byte) (body : Bytes) (p : Part) (k : SeatId) (hl : body.length = 2)
    (hk : b8 body 0 = k.val) (hkeep : b8 body 1 ≤ 1) :
    p.takeSeatQuery tag body = Part.answer .seatQuery tag .ok (p.seatFields k) (p.setSeat k { p.seat k with
      socket := { (p.seat k).socket with
        peak := if b8 body 1 = 0 then 0 else (p.seat k).socket.peak } }) := by
  unfold Part.takeSeatQuery
  simp only [readExact_eq hl, ident_eq k hk, oneOfTwo_eq hkeep, namedSeat_of (by omega : 1 ≤ body.length) hk]
  by_cases h : b8 body 1 = 0
  · rw [if_neg (by simp [h]), if_pos h]
    rfl
  · rw [if_pos (by simpa using (by omega : b8 body 1 = 1)), if_neg h]
    exact congrArg (Part.answer .seatQuery tag .ok (p.seatFields k)) (p.setSeat_same k).symm

theorem Led.code_match (z : Seat) : z.ledMode.code = if z.node = .online then
    (match z.socket.state with
      | .attached => if z.volume = 0 then 0 else 1
      | .faulted => 2
      | .lockedOut => 3
      | .unpowered | .settling | .empty => 0)
    else 0 := by
  rw [Seat.ledMode_match]
  by_cases h : z.node = .online
  · rw [if_pos h, if_pos h]
    cases z.socket.state with
    | attached =>
      by_cases hv : z.volume = 0
      · simp only [if_pos hv]
        rfl
      · simp only [if_neg hv]
        rfl
    | unpowered => rfl
    | settling => rfl
    | empty => rfl
    | faulted => rfl
    | lockedOut => rfl
  · rw [if_neg h, if_neg h]
    rfl

theorem powerCode_eq (b : Bool) : e8 (powerCode b) = [if b = true then 0 else 1] := by
  cases b <;> rfl

theorem Seat.powerCommand_iff (z : Seat) (shed : Shed) : z.powerCommand shed = true ↔
    z.node = .online ∧ (z.socket.state = .settling ∨ z.socket.state = .empty ∨
      z.socket.state = .attached ∨ (z.socket.state = .unpowered ∧ shed ≠ .critical)) := by
  rw [Seat.powerCommand_eq]
  simp only [Bool.and_eq_true, Bool.or_eq_true, decide_eq_true_eq]
  tauto

/-- R133: the reported fields, each as the rule gives it. -/
theorem Part.seatFields_eq (k : SeatId) (p : Part) :
    let z := p.seat k
    let left := fun d : Option PartTime =>
      o16 (d.map fun d => if atOrAfter p.time d then 0 else (d - p.time).toNat)
    let led := if z.node = .online then
        (match z.socket.state with
          | .attached => if z.volume = 0 then 0 else 1
          | .faulted => 2
          | .lockedOut => 3
          | .unpowered | .settling | .empty => 0)
      else 0
    let on := z.node = .online ∧ (z.socket.state = .settling ∨ z.socket.state = .empty ∨
      z.socket.state = .attached ∨ (z.socket.state = .unpowered ∧ p.supply.shed ≠ .critical))
    p.seatFields k = e8 (k.val / 24) ++ e8 (k.val % 24) ++ e8 z.node.code ++ e8 z.missCount ++
      e8 z.language.val ++ e8 z.volume ++ [z.pending.byte, z.acknowledged.byte] ++
      e8 led ++ e8 z.socket.state.code ++
      [if on then 0 else 1, if z.socket.ackOn = true then 0 else 1] ++
      left z.socket.settleEnd ++ left z.socket.coolEnd ++ o16 z.socket.average ++
      e16 z.socket.peak ++ e16 z.socket.lastSample ++ runFields z.socket.run ++
      faultFields z.socket.fault ++
      e8 z.socket.history.length ++ z.socket.history.flatMap eTime := by
  intro z left led on
  have hled : z.ledMode.code = led := Led.code_match z
  have hon : e8 (powerCode (z.powerCommand p.supply.shed)) = [if on then 0 else 1] := by
    rw [powerCode_eq]
    exact congrArg (fun b => [b]) (if_congr (z.powerCommand_iff p.supply.shed) rfl rfl)
  have hboth : ∀ a : Bytes, a ++ e8 (powerCode (z.powerCommand p.supply.shed)) ++ e8 (powerCode z.socket.ackOn) =
      a ++ [if on then 0 else 1, if z.socket.ackOn = true then 0 else 1] := fun a => by
    rw [hon, powerCode_eq, List.append_assoc]
    rfl
  unfold Part.seatFields
  simp only
  rw [show p.seat k = z from rfl, hboth, hled]
  rfl

theorem runFields_eq (r : Option (Indication × Nat)) : runFields r = match r with
    | none => eAbsent 2
    | some (x, n) => e8 x.code ++ e8 n := by
  cases r <;> rfl

theorem faultFields_eq (f : Option FaultRecord) : faultFields f = match f with
    | none => eAbsent 1 ++ oTime none ++ eAbsent 4
    | some f => e8 f.reason.code ++ oTime (some f.time) ++ e16 f.sample ++ e16 f.average := by
  cases f <;> rfl

/-- R134: a locked-out socket that is released. -/
theorem Part.releaseSocket_eq (k : SeatId) (p : Part) : p.releaseSocket k =
    { p.setSeat k { p.seat k with
        socket := { (p.seat k).socket with state := .unpowered, history := [] } } with
      link := p.link.noted (.seat k .unpowered (p.seat k).language (p.seat k).volume none) p.time } := by
  unfold Part.releaseSocket
  rw [Part.seatNotice_eq, Part.seat_setSocket]
  rfl

theorem Part.takeSeatRelease_takes (tag : Byte) (body : Bytes) (p : Part) (k : SeatId) (hl : body.length = 1)
    (hk : b8 body 0 = k.val) :
    p.takeSeatRelease tag body =
      if (p.seat k).socket.state = .lockedOut then
        Part.answer .seatRelease tag .ok (e8 k.val ++ e8 0) (p.releaseSocket k)
      else p.answer .seatRelease tag .wrongState (e8 k.val ++ e8 (p.seat k).socket.state.code) := by
  have hfields : ∀ q : Part, q.releaseFields body = e8 k.val ++ e8 (q.seat k).socket.state.code := fun q => by
    unfold Part.releaseFields
    rw [namedSeat_of (by omega) hk, named8_long (by omega), hk]
    rfl
  have hreleased : ((p.releaseSocket k).seat k).socket.state = .unpowered := by
    rw [Part.releaseSocket_eq]
    exact congrArg (fun s : Seat => s.socket.state) (Part.seat_setSeat _ _ _)
  unfold Part.takeSeatRelease
  simp only [readByte_one hl, ident_eq k hk, hfields, hreleased]
  rfl

/-- Settles O45. -/
theorem seatRequestsActOnTheirSeat : Obligations.SeatRequestsActOnTheirSeat := by
  intro s tag body hq p answered refused
  have hrefused : ∀ (i : Instr) (k : Kind) (take : Part → Part) (st : Status),
      exec i s = .next (s.onPart (Part.request k tag body take)) →
      (∃ f, take { s.part with link := s.part.takenLink k tag body } =
        Part.answer k tag st f { s.part with link := s.part.takenLink k tag body }) → refused i k st :=
    fun i k take st hi h => State.exec_refused hq hi h
  refine ⟨fun h => hrefused _ _ _ _ rfl (Part.takeSeatSet_length tag body _ h),
    fun hl h => hrefused _ _ _ _ rfl (Part.takeSeatSet_value tag body _ hl h),
    fun h => hrefused _ _ _ _ rfl ((Part.takeSeatQuery_refused tag body _).1 h),
    fun hl h => hrefused _ _ _ _ rfl ((Part.takeSeatQuery_refused tag body _).2 hl h),
    fun h => hrefused _ _ _ _ rfl ((Part.takeSeatRelease_refused tag body _).1 h),
    fun hl h => hrefused _ _ _ _ rfl ((Part.takeSeatRelease_refused tag body _).2 hl h), ?_, ?_⟩
  · intro l seats hcan hl hlang hon hwhich v changed reason moved reply
    have hnd : seats.Nodup := by
      rcases hwhich with ⟨_, rfl⟩ | ⟨k, _, rfl⟩
      · exact List.nodup_finRange 96
      · exact List.nodup_singleton k
    have htreated : treatedSeats (b8 body 0) = some seats := by
      rcases hwhich with ⟨h, rfl⟩ | ⟨k, h, rfl⟩
      · exact if_pos h
      · unfold treatedSeats
        rw [if_neg (by omega), ident_eq k h]
        rfl
    obtain ⟨q, r, hc, hr, haud, hun, hexec⟩ :=
      exec_seatSet s tag body l seats hq hcan hl hlang hon hnd htreated
    have hseats : ∀ j, r.seat j = q.seat j := hr.seat
    have hchanged : ∀ j, j ∈ changed ↔ j ∈ seats ∧ ((p.seat j).language ≠ l ∨ (p.seat j).volume ≠ v) :=
      fun j => by simp [changed]
    have hmoves : ∀ j, (p.seat j).moves l =
        decide ((p.seat j).language ≠ l ∧ (p.seat j).socket.state = .attached) := fun _ => rfl
    refine ⟨_, hexec, rfl, rfl, fun j hj => ?_, fun j hj => ?_, fun m => ?_, ?_, fun hnone => ?_,
      hr.strings.trans hc.strings, hr.supply.trans hc.supply, hr.light.trans hc.light,
      hr.level.trans hc.level, hr.time.trans hc.time⟩
    · obtain ⟨hin, hdiffers⟩ := (hchanged j).1 hj
      exact ((hseats j).trans (hc.treated j hin)).trans (if_neg fun ⟨h1, h2⟩ =>
        hdiffers.elim (fun h => h h1) fun h => h h2)
    · refine (hseats j).trans ?_
      by_cases hin : j ∈ seats
      · refine (hc.treated j hin).trans (if_pos ?_)
        by_contra hn
        exact hj ((hchanged j).2 ⟨hin, by tauto⟩)
      · exact hc.others j hin
    · refine (haud m).trans ((hc.audience m).trans ?_)
      have hfilter : (seats.filter fun j => (p.seat j).moves l && decide ((p.seat j).language = m)) =
          moved.filter fun j => (p.seat j).language = m := by
        rw [List.filter_filter]
        exact List.filter_congr fun j _ => by rw [hmoves, Bool.and_comm]
      exact if_congr Iff.rfl rfl (congrArg (fun x => (p.language m).audience - List.length x) hfilter)
    · refine Link.pump_keeps r.link ⟨Kind.byte .seatSet, tag, reply, true⟩ ?_
      rw [hr.link.rest]
      simp only [Link.answer, List.mem_append, List.mem_singleton]
      exact .inr rfl
    · have hstill : ∀ j ∈ seats, (p.seat j).moves l = false := fun j hj => by
        rw [hmoves, decide_eq_false_iff_not]
        intro hm
        have : j ∈ moved := List.mem_filter.2 ⟨hj, by simpa using hm⟩
        rw [hnone] at this
        exact absurd this (by simp)
      have hq' := hc.unmoved hstill
      have hr' := hun hstill
      rw [Seat.choiceNotices_eq] at hq'
      rw [hr']
      have hlink := congrArg Part.link hq'
      change Part.served { q with link := q.link.answer .seatSet tag reply } = _
      rw [hlink]
      generalize hv : q.seats = seats' at hq'
      rw [hq']
      rfl
  · intro k hk z left led on
    refine ⟨fun hcan hl hkeep => ?_, fun hcan hl => ⟨fun hlocked => ?_, fun hother => ?_⟩⟩
    · have htake := Part.takeSeatQuery_takes tag body
        { p with link := p.takenLink .seatQuery tag body } k hl hk hkeep
      rw [Part.seatFields_eq, runFields_eq, faultFields_eq] at htake
      exact congrArg _ (s.onPart_request _ _ _ (Part.takeSeatQuery tag body) _ hcan htake hq)
    · have htake := (Part.takeSeatRelease_takes tag body
        { p with link := p.takenLink .seatRelease tag body } k hl hk).trans (if_pos hlocked)
      rw [Part.releaseSocket_eq] at htake
      exact congrArg _ (s.onPart_request _ _ _ (Part.takeSeatRelease tag body) _ hcan htake hq)
    · have htake := (Part.takeSeatRelease_takes tag body
        { p with link := p.takenLink .seatRelease tag body } k hl hk).trans (if_neg hother)
      exact congrArg _ (s.onPart_request _ _ _ (Part.takeSeatRelease tag body) _ hcan htake hq)

end Sys2Proof.Machine
end

section
/-! What the operations of announcements touch, and the languages that they leave silent (R49, R50, R59, R73, R75, R90). -/

namespace Sys2Proof.Machine

/-! ### One operation at a time -/

theorem Part.recomputeSeats_only (p : Part) : ∃ seats, p.recomputeSeats = { p with seats := seats } := ⟨_, rfl⟩

/-- R140: the Level Unit writes its own record and the seats' codes. -/
theorem Part.tellLevel_only (c : Option SetClass) (f : Option Phase) (n : Nat) (p : Part) :
    ∃ code seats, p.tellLevel c f n = { p with
      level := { p.level with cls := c, phase := f, lift := n, paCode := code }, seats := seats } := by
  unfold Part.tellLevel
  extract_lets old q r
  have hr : ∃ seats, r = { q with seats := seats } := by
    unfold r
    split
    · exact q.recomputeSeats_only
    · exact ⟨q.seats, rfl⟩
  obtain ⟨seats, hr⟩ := hr
  rw [hr]
  split
  · exact ⟨_, seats, rfl⟩
  · exact ⟨p.level.paCode, seats, rfl⟩

theorem Part.tellPlaying_none (p : Part) (h : p.ann.playing = none) : ∃ code seats,
    p.tellPlaying = { p with
      level := { p.level with cls := none, phase := none, lift := 0, paCode := code }, seats := seats } := by
  simp only [Part.tellPlaying, h]
  exact p.tellLevel_only none none 0

theorem Part.tellPlaying_some (p : Part) (r : Playing) (h : p.ann.playing = some r) : ∃ code seats,
    p.tellPlaying = { p with
      level := { p.level with
        cls := some r.entry.cls, phase := some r.phase
        lift := liftIn (p.annSet r.entry.set) r.phase, paCode := code }
      seats := seats } := by
  simp only [Part.tellPlaying, h]
  exact p.tellLevel_only _ _ _

theorem Part.tellPlaying_only (p : Part) : ∃ level seats, p.tellPlaying = { p with level := level, seats := seats } := by
  rcases Option.eq_none_or_eq_some p.ann.playing with h | ⟨r, h⟩
  · obtain ⟨code, seats, hp⟩ := p.tellPlaying_none h
    exact ⟨_, _, hp⟩
  · obtain ⟨code, seats, hp⟩ := p.tellPlaying_some r h
    exact ⟨_, _, hp⟩

theorem Part.setOwner_eq (r : ReaderId) (o : Owner) (p : Part) : p.setOwner r o =
    { p with bank := { p.bank with
      readers := vset p.bank.readers r { p.reader r with owner := o } } } := rfl

/-- R99: a STARTED notice is no ending. -/
theorem Part.annNotice_started (i : SetId) (reason : Option AnnReason) (p : Part) :
    p.annNotice i .started reason = { p with
      link := p.link.noted (.announce i .started reason) p.time } := Part.raise_only_link _ _

/-- R99: an ending is told, and kept. -/
theorem Part.annNotice_ends (i : SetId) (event : AnnEvent) (reason : Option AnnReason) (p : Part)
    (h : event ≠ .started) : p.annNotice i event reason = { p with
      ann := { p.ann with last := some ⟨i, event, reason, p.time⟩ }
      link := p.link.noted (.announce i event reason) p.time } := by
  unfold Part.annNotice
  dsimp only
  rw [Part.raise_only_link]
  cases event with
  | started => exact absurd rfl h
  | done => rfl
  | cut => rfl
  | dropped => rfl

/-- R50: the PA and chime readers have no owner. -/
def unowned (readers : Vector Reader 14) : Vector Reader 14 :=
  let v := vset readers 12 { vget readers 12 with owner := .none }
  vset v 13 { vget v 13 with owner := .none }

theorem Part.dropPaOwners_eq (p : Part) :
    p.dropPaOwners = { p with bank := { p.bank with readers := unowned p.bank.readers } } := rfl

/-- R91, R92: the end of the announcement in TAIL. -/
theorem Part.closeTail_only (r : Playing) (p : Part) : ∃ light, p.closeTail r = { p with
    light := light
    bank := { p.bank with readers := unowned p.bank.readers }
    ann := { p.ann with last := some ⟨r.entry.set, .done, none, p.time⟩, playing := none }
    link := p.link.noted (.announce r.entry.set .done none) p.time } := by
  unfold Part.closeTail Part.endCue
  rw [Part.dropPaOwners_eq, Part.annNotice_ends _ _ _ _ (by simp)]
  exact ⟨_, rfl⟩

/-! ### Functions of each language in turn -/

/-- What the other languages' turns do before and after a language's own. -/
theorem Part.eachLanguage_split (f : Lang → Part → Part) (p : Part) (l : Lang) :
    ∃ a b : List Lang, l ∉ a ∧ l ∉ b ∧ p.eachLanguage f =
      b.foldl (fun q m => f m q) (f l (a.foldl (fun q m => f m q) p)) := by
  obtain ⟨a, b, h⟩ := List.append_of_mem (List.mem_finRange l)
  have hnd := List.nodup_finRange 12
  rw [h, List.nodup_append] at hnd
  obtain ⟨_, hb, hab⟩ := hnd
  refine ⟨a, b, fun ha => hab l ha l (by simp) rfl, (List.nodup_cons.1 hb).1, ?_⟩
  unfold Part.eachLanguage
  rw [h, List.foldl_append, List.foldl_cons]

/-- What each turn keeps is kept by all. -/
theorem foldl_keeps {α β : Type} {I : α → Prop} (f : β → α → α) (l : List β) (p : α)
    (h : ∀ m ∈ l, ∀ q, I q → I (f m q)) (hp : I p) : I (l.foldl (fun q m => f m q) p) := by
  induction l generalizing p with
  | nil => exact hp
  | cons m l ih =>
    exact ih (f m p) (fun k hk => h k (List.mem_cons_of_mem m hk)) (h m (by simp) p hp)

theorem Part.eachLanguage_keeps {I : Part → Prop} (f : Lang → Part → Part) (p : Part)
    (h : ∀ m q, I q → I (f m q)) (hp : I p) : I (p.eachLanguage f) :=
  foldl_keeps f _ p (fun m _ q => h m q) hp

/-! ### The Language Table under the operations of announcements -/

/-- R49: the language of a channel reader that is handed over. -/
def Part.handedOver (p : Part) (l : Lang) : Language :=
  match (p.reader (chan l)).clip with
  | none => p.language l
  | some c =>
    { p.language l with
      resume := some ⟨c, markAtOrBelow (p.clip c).marks (p.reader (chan l)).position⟩ }

theorem Part.handOver_lang (l : Lang) (p : Part) :
    (p.handOver l).lang = p.lang.written l (p.handedOver l) := by
  unfold Part.handOver Part.handedOver
  rcases Option.eq_none_or_eq_some (p.reader (chan l)).clip with h | ⟨c, h⟩
  · simp only [h]
    exact (LangTable.written_same p l).symm
  · simp only [h]
    rfl

/-- R73: a stream that the suspend signal has reached. -/
def Language.suspended (x : Language) : Language :=
  if x.stream = .playing then
    match x.resume, x.current with
    | none, some e =>
      if e.started then { x with stream := .suspended }
      else { x with stream := .suspended, current := none, waiting := (e :: x.waiting).take 3 }
    | _, _ => { x with stream := .suspended }
  else x

theorem Part.suspendStream_only (l : Lang) (p : Part) : ∃ link, p.suspendStream l =
    { p.setLanguage l (p.language l).suspended with link := link } := by
  have hsame : ∀ x : Language, ∃ link, p.setLanguage l x = { p.setLanguage l x with link := link } :=
    fun x => ⟨p.link, rfl⟩
  unfold Part.suspendStream Language.suspended
  by_cases hs : (p.language l).stream = .playing
  · simp only [if_pos hs]
    rcases Option.eq_none_or_eq_some (p.language l).resume with hr | ⟨d, hr⟩
    · rcases Option.eq_none_or_eq_some (p.language l).current with hc | ⟨e, hc⟩
      · simp only [hr, hc]
        exact ⟨p.link, rfl⟩
      · simp only [hr, hc]
        split
        · exact ⟨p.link, rfl⟩
        · split
          · rw [Part.streamNotice_eq]
            exact ⟨_, rfl⟩
          · exact ⟨p.link, rfl⟩
    · simp only [hr]
      exact ⟨p.link, rfl⟩
  · simp only [if_neg hs]
    exact ⟨p.link, by rw [show p.setLanguage l (p.language l) = p from by
      unfold Part.setLanguage Part.language; rw [vset_vget]]⟩

theorem Part.suspendStream_lang (l : Lang) (p : Part) :
    (p.suspendStream l).lang = p.lang.written l (p.language l).suspended := by
  obtain ⟨link, h⟩ := p.suspendStream_only l
  rw [h]
  rfl

/-- R75: a stream that has been taken up. -/
def Language.takenUp (owns : Bool) (x : Language) : Language :=
  if x.stream = .suspended then
    match x.resume with
    | some _ =>
      { x with
        stream := .playing, current := x.current.map fun e => { e with started := true }, resume := none }
    | none => x.next owns
  else x

theorem Part.setStop_lang (r : ReaderId) (n : Nat) (p : Part) : (p.setStop r n).lang = p.lang :=
  (p.readersOnly_setStop r n).lang

theorem Part.takeUp_lang (l : Lang) (p : Part) :
    (p.takeUp l).lang = p.lang.written l ((p.language l).takenUp (p.ownsReader l)) := by
  unfold Part.takeUp Language.takenUp
  by_cases hs : (p.language l).stream = .suspended
  · simp only [if_pos hs]
    rcases Option.eq_none_or_eq_some (p.language l).resume with hr | ⟨d, hr⟩
    · simp only [hr]
      rw [Part.streamNotice_lang, Part.playNext_lang]
    · simp only [hr]
      rw [Part.streamNotice_lang]
      split
      · rw [Part.setStop_lang, (Part.readersOnly_startReader _ _ _ _ _).lang]
        rfl
      · rw [(Part.readersOnly_startReader _ _ _ _ _).lang]
        rfl
  · simp only [if_neg hs]
    exact (LangTable.written_same p l).symm

theorem Part.handBack_lang (p : Part) : p.handBack.lang = p.lang :=
  Part.eachLanguage_keeps (I := fun q => q.lang = p.lang)
    (fun l q => (q.stopRelease (chan l)).setOwner (chan l) .commentary) p
    (fun _ q h => ((q.readersOnly_stopRelease _).lang).trans h) rfl

theorem Part.startRepetition_lang (p : Part) : p.startRepetition.lang = p.lang := by
  unfold Part.startRepetition
  split
  · rfl
  · extract_lets s on q t
    have ht : t.lang = p.lang := foldl_keeps (I := fun q : Part => q.lang = p.lang)
      (fun l q => q.startReader (chan l) (s.chooseClip (p.language l).fallback l) 0 .take) on q
      (fun _ _ q h => ((q.readersOnly_startReader _ _ _ _).lang).trans h) rfl
    exact ((t.readersOnly_startReader _ _ _ _).lang).trans ht

end Sys2Proof.Machine
end

section
/-! Languages that are enabled, written and disabled (R57 to R59). -/

namespace Sys2Proof.Machine

/-! ### A silent language stays silent (R59) -/

/-- R59: a language without a stream or entries, as a disabled one is. -/
def Language.Silent (x : Language) : Prop := x.stream = .off ∧ x.current = none ∧ x.waiting = []

/-- Silent languages stay silent. -/
def Part.SilentKept (p q : Part) : Prop := ∀ l, (p.language l).Silent → (q.language l).Silent

theorem Part.SilentKept.trans {p q r : Part} (h : p.SilentKept q) (g : q.SilentKept r) : p.SilentKept r :=
  fun l hl => g l (h l hl)

theorem Part.SilentKept.of_lang {p q : Part} (h : q.lang = p.lang) : p.SilentKept q := fun l hl => by
  unfold Part.language
  rw [h]
  exact hl

theorem Part.SilentKept.after {p p' q : Part} (h : p'.SilentKept q) (hl : p'.lang = p.lang) : p.SilentKept q :=
  (SilentKept.of_lang hl).trans h

theorem Part.SilentKept.of_written {p q : Part} {l : Lang} {x : Language} (h : q.lang = p.lang.written l x)
    (hx : (p.language l).Silent → x.Silent) : p.SilentKept q := fun m hm => by
  rw [Part.language_written h]
  by_cases hml : m = l
  · rw [if_pos hml]
    exact hx (hml ▸ hm)
  · rw [if_neg hml]
    exact hm

theorem Part.SilentKept.foldl {α : Type} (f : α → Part → Part) (h : ∀ m q, Part.SilentKept q (f m q))
    (l : List α) (p : Part) : p.SilentKept (l.foldl (fun q m => f m q) p) :=
  foldl_keeps (I := fun q => p.SilentKept q) f l p (fun m _ q hq => hq.trans (h m q)) (.of_lang rfl)

theorem Part.silentKept_handOver (l : Lang) (p : Part) : p.SilentKept (p.handOver l) :=
  .of_written (p.handOver_lang l) fun h => by
    unfold Part.handedOver
    split
    · exact h
    · exact h

theorem Part.silentKept_suspendStream (l : Lang) (p : Part) : p.SilentKept (p.suspendStream l) :=
  .of_written (p.suspendStream_lang l) fun h => by
    unfold Language.suspended
    rw [if_neg (by simp [h.1])]
    exact h

theorem Part.silentKept_takeUp (l : Lang) (p : Part) : p.SilentKept (p.takeUp l) :=
  .of_written (p.takeUp_lang l) fun h => by
    unfold Language.takenUp
    rw [if_neg (by simp [h.1])]
    exact h

theorem Part.silentKept_takeReaders (p : Part) : p.SilentKept p.takeReaders := by
  unfold Part.takeReaders
  split
  · exact .of_lang rfl
  · extract_lets q t src u
    have hq : p.SilentKept q :=
      .foldl (fun l q => q.handOver l) (fun l q => q.silentKept_handOver l) (List.finRange 12) p
    clear_value q
    have hu : t.SilentKept u := fun _ h => h
    exact hq.trans ((SilentKept.of_lang rfl).trans (hu.trans
      (.foldl (fun l q => q.suspendStream l) (fun l q => q.silentKept_suspendStream l) (List.finRange 12) u)))

theorem Part.silentKept_resumeSignal (p : Part) : p.SilentKept p.resumeSignal :=
  .trans (q := { p with lang := { p.lang with hold := false } }) (fun _ h => h)
    (.foldl (fun l q => q.takeUp l) (fun l q => q.silentKept_takeUp l) _ _)

theorem Part.closeTail_lang (r : Playing) (p : Part) : (p.closeTail r).lang = p.lang := by
  obtain ⟨light, h⟩ := p.closeTail_only r
  rw [h]

theorem Part.tellPlaying_lang (p : Part) : p.tellPlaying.lang = p.lang := by
  obtain ⟨level, seats, h⟩ := p.tellPlaying_only
  rw [h]

/-- R86: the parts of the start of the head entry that change the Language Table. -/
theorem Part.silentKept_startHead (e : QEntry) (rest : List QEntry) (p : Part) :
    p.SilentKept (p.startHead e rest) := by
  unfold Part.startHead
  extract_lets s a phase b c d f g
  have ha : p.SilentKept a := by
    unfold a
    split
    · exact .of_lang (p.closeTail_lang _)
    · exact .of_lang rfl
  have hb : a.SilentKept c := by
    have hc : c = Part.takeReaders { b with
        link := b.link.noted (.announce e.set .started none) b.time } :=
      congrArg Part.takeReaders (Part.annNotice_started _ _ b)
    rw [hc]
    exact (Part.silentKept_takeReaders _).after rfl
  have hd : c.SilentKept d := by
    unfold d
    split
    · exact .of_lang ((c.setRouting true).readersOnly_startReader _ _ _ _).lang
    · exact .of_lang c.startRepetition_lang
  have hf : d.SilentKept f := .of_lang d.tellPlaying_lang
  have hg : f.SilentKept g := by
    unfold g
    split <;> exact .of_lang rfl
  exact ha.trans (hb.trans (hd.trans (hf.trans (hg.trans (.of_lang rfl)))))

theorem Part.silentKept_offerStart (p : Part) : p.SilentKept p.offerStart := by
  unfold Part.offerStart
  split
  · exact .of_lang rfl
  · split
    · split
      · exact p.silentKept_startHead _ _
      · split
        · exact p.silentKept_startHead _ _
        · exact .of_lang rfl
    · exact .of_lang rfl

theorem Part.silentKept_endTail (r : Playing) (p : Part) : p.SilentKept (p.endTail r) := by
  unfold Part.endTail
  refine .trans ((Part.silentKept_offerStart _).after ?_) (.of_lang rfl)
  rw [Part.tellPlaying_lang, Part.closeTail_lang]

theorem Part.silentKept_beginTail (r : Playing) (p : Part) : p.SilentKept (p.beginTail r) := by
  unfold Part.beginTail
  extract_lets tail r' q t
  have hq : p.SilentKept q :=
    ((Part.silentKept_resumeSignal p.handBack).after p.handBack_lang).trans
      (.of_lang (p.handBack.resumeSignal.setPlaying_lang _))
  clear_value q
  have ht : q.SilentKept t := (SilentKept.of_lang q.tellPlaying_lang).trans (.of_lang q.tellPlaying.judgeAlert_lang)
  split
  · exact hq.trans (ht.trans (Part.silentKept_endTail _ _))
  · exact hq.trans (ht.trans (Part.silentKept_offerStart _))

theorem Part.silentKept_endRepetition (p : Part) : p.SilentKept p.endRepetition := by
  unfold Part.endRepetition
  split
  · exact .of_lang rfl
  · split
    · split
      · exact .of_lang (Part.startRepetition_lang _)
      · exact p.silentKept_beginTail _
    · exact .of_lang rfl

theorem Part.silentKept_languageDisabled (l : Lang) (p : Part) : p.SilentKept (p.languageDisabled l) := by
  unfold Part.languageDisabled
  split
  · exact .of_lang rfl
  · split
    · exact (Part.silentKept_endRepetition _).after (p.readersOnly_stopRelease _).lang
    · exact .of_lang rfl

theorem Part.silentKept_announcementReport (r : ReaderId) (p : Part) :
    p.SilentKept (p.announcementReport r) := by
  unfold Part.announcementReport
  split
  · exact .of_lang rfl
  · split
    · split
      · refine .of_lang ?_
        rw [Part.startRepetition_lang, Part.tellPlaying_lang]
        rfl
      · exact .of_lang rfl
    · split
      · exact (Part.silentKept_endRepetition _).after rfl
      · exact (Part.silentKept_endRepetition _).after rfl
    · exact .of_lang rfl

theorem Part.silentKept_commentaryReport (l : Lang) (k : ReportKind) (p : Part) :
    p.SilentKept (p.commentaryReport l k) :=
  .of_written (p.commentaryReport_lang l k) fun h => by
    unfold Language.reported
    simp only [h.2.1]
    exact h

theorem Part.silentKept_takeReport (x : Report) (p : Part) : p.SilentKept (p.takeReport x) := by
  unfold Part.takeReport
  split
  · split
    · exact p.silentKept_commentaryReport _ _
    · exact .of_lang rfl
  · exact p.silentKept_announcementReport _
  · exact .of_lang rfl

theorem Part.silentKept_drain (n : Nat) (p : Part) : p.SilentKept (p.drain n) := by
  induction n generalizing p with
  | zero => exact .of_lang rfl
  | succ n ih =>
    unfold Part.drain
    split
    · exact .of_lang rfl
    · exact ((Part.silentKept_takeReport _ _).trans (ih _)).after rfl

theorem Part.silentKept_move (l m : Lang) (p : Part) : p.SilentKept (p.move l m) := by
  unfold Part.move
  split
  · exact .of_lang rfl
  · refine .trans (.of_written (p.leave_lang l) fun h => ?_) (.of_written (Part.join_lang m _) fun h => ?_)
    · unfold Language.left
      rw [if_neg (by simp [h.1])]
      exact h
    · unfold Language.joined
      rw [if_neg (by simp [h.1])]
      exact h

theorem Part.silentKept_changeLanguage (k : SeatId) (l : Lang) (p : Part) :
    p.SilentKept (p.changeLanguage k l) := by
  by_cases hl : (p.seat k).language = l
  · rw [p.changeLanguage_same k l hl]
    exact .of_lang rfl
  · rw [p.changeLanguage_eq k l hl, Part.seatNotice_eq]
    split
    · exact fun m hm => Part.silentKept_move _ _ (p.setSeat k { p.seat k with language := l }) m hm
    · exact .of_lang rfl

end Sys2Proof.Machine
end

section
/-! LANG-SET (R57 to R59). -/

namespace Sys2Proof.Machine

/-! ### The request (R57) -/

theorem readFallback_of (l : Lang) (fallback : Option Lang) (h : fallback ≠ some l) :
    readFallback l ((fallback.map Fin.val).getD 255) = some fallback := by
  unfold readFallback identOrNone
  cases fallback with
  | none => rfl
  | some m =>
    have hm : m.val ≠ 255 := by omega
    have hml : m ≠ l := fun he => h (by rw [he])
    simp only [Option.map_some, Option.getD_some, if_neg hm, ident_val, if_neg hml]

/-- R57: a request in order is taken. -/
theorem Part.langStatus_ok {body : Bytes} {p : Part} {q : LangReq} {l : Lang} {fallback : Option Lang}
    (hread : readLang body = some q) (hl : q.lang = l.val)
    (htag : ∀ b ∈ q.tag, 0x20 ≤ b.toNat ∧ b.toNat ≤ 0x7E)
    (hf : q.fallback = (fallback.map Fin.val).getD 255) (hfl : fallback ≠ some l)
    (he : q.enable ≤ 1) (hd : q.default ≤ 1) (hpa : q.pa ≤ 2)
    (hdis : q.enable = 1 → l ≠ p.lang.default ∧ q.default = 1 ∧ q.pa ≠ 0) :
    p.langStatus body = .ok ⟨l, decide (q.enable = 1), q.tag, fallback, q.trim, !decide (q.default = 1), q.pa⟩ := by
  have hprint : q.tag.all printable = true := by
    rw [List.all_eq_true]
    intro b hb
    simpa [printable] using htag b hb
  have hdefault : ¬(decide (q.enable = 1) = true ∧ l = p.lang.default) := fun ⟨h1, h2⟩ =>
    (hdis (by simpa using h1)).1 h2
  have hleave : ¬(decide (q.enable = 1) = true ∧ (decide (q.default = 1) = false ∨ q.pa = 0)) := fun ⟨h1, h2⟩ => by
    obtain ⟨_, h3, h4⟩ := hdis (by simpa using h1)
    rcases h2 with h2 | h2
    · simp [h3] at h2
    · exact h4 h2
  have hpa' : ¬2 < q.pa := by omega
  unfold Part.langStatus
  simp only [hread, ident_eq l hl, hprint, hf, readFallback_of l fallback hfl, oneOfTwo_eq he, oneOfTwo_eq hd,
    if_neg hpa', if_neg hdefault, if_neg hleave]
  rfl

/-! ### ENABLE (R57, R58) -/

/-- R58, R141: the codes of the seats of the language whose trim is written. -/
theorem Part.trimmed_only (l : Lang) (x : Language) (p : Part) :
    let q := p.setLanguage l x
    ∃ seats, (if x.trim = (p.language l).trim then q else q.recomputeLanguage l) = { q with seats := seats } ∧
      ∀ i, vget seats i = { p.seat i with
        pending := if (p.seat i).language = l ∧ x.trim ≠ (p.language l).trim then
            (if (p.seat i).socket.state = .attached then seatCode p.level (p.seat i).volume x.trim else .mute)
          else (p.seat i).pending } := by
  intro q
  have hlang : q.language l = x := p.language_setLanguage l x
  by_cases ht : x.trim = (p.language l).trim
  · refine ⟨p.seats, if_pos ht, fun i => ?_⟩
    rw [if_neg fun h => h.2 ht]
    rfl
  · refine ⟨_, if_neg ht, fun i => ?_⟩
    rw [vget_vmap]
    change (if (p.seat i).language = l then (p.seat i).recompute p.level (q.language l).trim else p.seat i) = _
    rw [hlang]
    by_cases hi : (p.seat i).language = l
    · rw [if_pos hi, if_pos ⟨hi, ht⟩]
      rfl
    · rw [if_neg hi, if_neg fun h => hi h.1]

/-- R58: the language with its stream. -/
theorem Part.enableLanguage_eq (l : Lang) (p : Part) : p.enableLanguage l = p.setLanguage l { p.language l with
    enabled := true, stream := if (p.language l).enabled then (p.language l).stream else .parked } := by
  unfold Part.enableLanguage
  cases h : (p.language l).enabled with
  | true =>
    simp only [h, if_true]
    rw [← h]
    unfold Part.setLanguage Part.language
    rw [vset_vget]
  | false =>
    simp only [h]
    rfl

/-- R58: the default and PA settings. -/
theorem Part.applySettings_eq (w : LangWrite) (p : Part) (h : w.pa ≤ 2) : p.applySettings w = { p with
    lang := { p.lang with
      default := if w.makeDefault then w.lang else p.lang.default
      pa := if w.pa = 0 then some w.lang else if w.pa = 1 then none else p.lang.pa } } := by
  unfold Part.applySettings
  obtain ⟨l, d, t, f, trim, m, pa⟩ := w
  have hpa : pa = 0 ∨ pa = 1 ∨ pa = 2 := by
    simp only at h
    omega
  rcases hpa with rfl | rfl | rfl <;> cases m <;> rfl

theorem clampInt_trim (t : Int) : clampInt (-24) 0 t = max (-24) (min 0 t) := rfl

/-- R57, R58: what an ENABLE writes. -/
theorem Part.writeLanguage_enable (w : LangWrite) (p : Part) (hd : w.disable = false) (hpa : w.pa ≤ 2) :
    let x := p.language w.lang
    let trim := max (-24) (min 0 w.trim)
    ∃ seats, p.writeLanguage w = ({ p with
      lang := { p.lang with
        langs := vset p.lang.langs w.lang { x with
          enabled := true, tag := w.tag, fallback := w.fallback, trim := trim
          stream := if x.enabled then x.stream else .parked }
        default := if w.makeDefault then w.lang else p.lang.default
        pa := if w.pa = 0 then some w.lang else if w.pa = 1 then none else p.lang.pa }
      seats := seats }, 0) ∧
      ∀ i, vget seats i = { p.seat i with
        pending := if (p.seat i).language = w.lang ∧ trim ≠ x.trim then
            (if (p.seat i).socket.state = .attached then seatCode p.level (p.seat i).volume trim else .mute)
          else (p.seat i).pending } := by
  intro x trim
  obtain ⟨seats, hq, hseats⟩ := p.trimmed_only w.lang { x with tag := w.tag, fallback := w.fallback, trim := trim }
  refine ⟨seats, ?_, hseats⟩
  have hwrite : p.writeLanguage w = ((Part.enableLanguage w.lang
      (if trim = x.trim then p.setLanguage w.lang { x with tag := w.tag, fallback := w.fallback, trim := trim }
        else (p.setLanguage w.lang
          { x with tag := w.tag, fallback := w.fallback, trim := trim }).recomputeLanguage w.lang)).applySettings w, 0) := by
    unfold Part.writeLanguage
    rw [hd]
    rfl
  rw [hwrite, hq, Part.enableLanguage_eq, Part.applySettings_eq _ _ hpa]
  have hlang : ({ p.setLanguage w.lang { x with tag := w.tag, fallback := w.fallback, trim := trim } with
      seats := seats } : Part).language w.lang = { x with tag := w.tag, fallback := w.fallback, trim := trim } :=
    p.language_setLanguage w.lang _
  rw [hlang]
  simp only [Part.setLanguage, vset_vset]

theorem Part.takeLangSet_ok (tag : Byte) (body : Bytes) (p : Part) (w : LangWrite)
    (h : p.langStatus body = .ok w) : p.takeLangSet tag body =
      Part.answer .langSet tag (if max (-24) (min 0 w.trim) = w.trim then .ok else .clamped)
        ((p.writeLanguage w).1.langFields w.lang (p.writeLanguage w).2) (p.writeLanguage w).1 := by
  unfold Part.takeLangSet
  simp only [h]
  rw [clampStatus_eq, clampInt_trim]
  by_cases ht : max (-24) (min 0 w.trim) = w.trim
  · rw [if_pos ht, if_neg (by simp [ht])]
  · rw [if_neg ht, if_pos (by simp [ht])]

/-! ### DISABLE (R59) -/

theorem Part.changeLanguage_table (k : SeatId) (d : Lang) (p : Part) :
    (p.changeLanguage k d).lang = { p.lang with
      langs := (p.changeLanguage k d).lang.langs, hold := (p.changeLanguage k d).lang.hold } := by
  by_cases hl : (p.seat k).language = d
  · rw [p.changeLanguage_same k d hl]
  · rw [p.changeLanguage_eq k d hl, Part.seatNotice_lang, Part.recomputeSeat_eq, Part.setSeat_lang]
    split
    · exact (Part.streamsOnly_move _ _ _).lang
    · rfl

/-- R59: seats moved to the default language, and what else their moves change. -/
structure Part.Moved (ks : List SeatId) (p q : Part) : Prop where
  time : q.time = p.time
  strings : q.strings = p.strings
  supply : q.supply = p.supply
  ann : q.ann = p.ann
  langs : ∀ l, (p.language l).Configured (q.language l)
  table : q.lang = { p.lang with langs := q.lang.langs, hold := q.lang.hold }
  silent : p.SilentKept q
  seats : ∀ i, (q.seat i).language = (if i ∈ ks then p.lang.default else (p.seat i).language) ∧
    (q.seat i).volume = (p.seat i).volume ∧ (q.seat i).node = (p.seat i).node ∧
    (q.seat i).socket = (p.seat i).socket

theorem Part.moveSeats_moved (ks : List SeatId) (p : Part) :
    p.Moved ks (ks.foldl (fun q i => q.changeLanguage i q.lang.default) p) := by
  induction ks generalizing p with
  | nil => exact ⟨rfl, rfl, rfl, rfl, fun _ => .refl _, rfl, .of_lang rfl, fun i => ⟨by simp, rfl, rfl, rfl⟩⟩
  | cons k ks ih =>
    have hevent := p.seatEvent_changeLanguage k p.lang.default
    have hseat := p.changeLanguage_seat k p.lang.default
    have htable := p.changeLanguage_table k p.lang.default
    have hsilent := p.silentKept_changeLanguage k p.lang.default
    rw [List.foldl_cons]
    generalize p.changeLanguage k p.lang.default = r at hevent hseat htable hsilent
    have h := ih r
    have hdefault : r.lang.default = p.lang.default := by rw [htable]
    refine ⟨h.time.trans hevent.time, h.strings.trans hevent.strings, h.supply.trans hevent.supply,
      h.ann.trans hevent.ann, fun l => (hevent.langs l).trans (h.langs l), ?_, hsilent.trans h.silent, fun i => ?_⟩
    · rw [h.table, htable]
    · obtain ⟨hlang, hvolume, hnode, hsocket⟩ := h.seats i
      rw [hlang, hvolume, hnode, hsocket, hdefault]
      by_cases hik : i = k
      · rw [hik, hseat]
        refine ⟨?_, rfl, rfl, rfl⟩
        rw [if_pos (List.mem_cons_self), ite_self]
      · rw [hevent.others i hik]
        refine ⟨?_, rfl, rfl, rfl⟩
        simp only [List.mem_cons, hik, false_or]

/-- R59: an enabled language that is disabled, when the other blocks have been told. -/
structure Part.Disabled (l : Lang) (pa : Option Lang) (p q : Part) : Prop where
  time : q.time = p.time
  strings : q.strings = p.strings
  supply : q.supply = p.supply
  sets : q.ann.sets = p.ann.sets
  language : (q.language l).enabled = false ∧ (q.language l).Silent ∧
    (q.language l).tag = (p.language l).tag ∧ (q.language l).fallback = (p.language l).fallback ∧
    (q.language l).trim = (p.language l).trim
  others : ∀ m, m ≠ l → (p.language m).Configured (q.language m)
  default : q.lang.default = p.lang.default
  pa : q.lang.pa = pa
  seats : ∀ i, (q.seat i).language =
      (if (p.seat i).language = l then p.lang.default else (p.seat i).language) ∧
    (q.seat i).volume = (p.seat i).volume ∧ (q.seat i).node = (p.seat i).node ∧
    (q.seat i).socket = (p.seat i).socket

theorem Language.Configured.kept {x y : Language} (h : x.Configured y) :
    y.enabled = x.enabled ∧ y.tag = x.tag ∧ y.fallback = x.fallback ∧ y.trim = x.trim ∧ y.reel = x.reel := by
  unfold Language.Configured at h
  rw [h]
  exact ⟨rfl, rfl, rfl, rfl, rfl⟩

theorem Part.Disabled.finish {l : Lang} {pa : Option Lang} {p q r : Part} (h : p.Disabled l pa q)
    (ha : q.AnnouncesOnly r) (hs : q.SilentKept r) : p.Disabled l pa r := by
  obtain ⟨hen, hsil, htag, hfall, htrim⟩ := h.language
  obtain ⟨ken, ktag, kfall, ktrim, _⟩ := (ha.langs l).kept
  refine ⟨ha.time.trans h.time, ha.strings.trans h.strings, ha.supply.trans h.supply, ?_,
    ⟨ken.trans hen, hs l hsil, ktag.trans htag, kfall.trans hfall, ktrim.trans htrim⟩,
    fun m hm => (h.others m hm).trans (ha.langs m), ?_, ?_, fun i => ?_⟩
  · rw [ha.ann]
    exact h.sets
  · rw [ha.lang]
    exact h.default
  · rw [ha.lang]
    exact h.pa
  · obtain ⟨hl, hv, hn, hk⟩ := h.seats i
    rw [ha.seats i]
    exact ⟨hl, hv, hn, hk⟩

/-- R59: the language's own records, before the Announcement Controller is told. -/
def Part.silenced (l : Lang) (p : Part) : Part :=
  let p := if p.lang.pa = some l then { p with lang := { p.lang with pa := none } } else p
  let p := (p.stopChannel l).dropResume l
  p.setLanguage l { p.language l with current := none, waiting := [], enabled := false, stream := .off }

theorem Part.streamsOnly_paCleared (l : Lang) (p : Part) :
    ∃ q : Part, q = (if p.lang.pa = some l then { p with lang := { p.lang with pa := none } } else p) ∧
      q = { p with lang := { p.lang with pa := if p.lang.pa = some l then none else p.lang.pa } } := by
  refine ⟨_, rfl, ?_⟩
  by_cases h : p.lang.pa = some l
  · simp only [if_pos h]
  · simp only [if_neg h]

theorem Part.disabled_silenced (l : Lang) (p : Part) : let q := p.silenced l
    q.time = p.time ∧ q.strings = p.strings ∧ q.supply = p.supply ∧ q.ann = p.ann ∧ q.seats = p.seats ∧
      ((q.language l).enabled = false ∧ (q.language l).Silent ∧ (q.language l).tag = (p.language l).tag ∧
        (q.language l).fallback = (p.language l).fallback ∧ (q.language l).trim = (p.language l).trim) ∧
      (∀ m, m ≠ l → (p.language m).Configured (q.language m)) ∧ q.lang.default = p.lang.default ∧
      q.lang.pa = if p.lang.pa = some l then none else p.lang.pa := by
  obtain ⟨r, hr, hpa⟩ := p.streamsOnly_paCleared l
  have hq : p.silenced l = ((r.stopChannel l).dropResume l).setLanguage l
      { ((r.stopChannel l).dropResume l).language l with
        current := none, waiting := [], enabled := false, stream := .off } := by rw [hr]; rfl
  have hs := (r.streamsOnly_stopChannel l).trans (Part.streamsOnly_dropResume _ l)
  generalize (r.stopChannel l).dropResume l = t at hq hs
  have hrl : ∀ m, r.language m = p.language m := fun m => by rw [hpa]; rfl
  intro q
  have hlang : q.language l = { t.language l with
      current := none, waiting := [], enabled := false, stream := .off } := by
    rw [show q = _ from hq]
    exact Part.language_setLanguage _ _ _
  obtain ⟨_, htag, hfall, htrim, _⟩ := (hs.langs l).kept
  have hdefault : t.lang.default = p.lang.default := by rw [hs.lang, hpa]
  have hpat : t.lang.pa = if p.lang.pa = some l then none else p.lang.pa := by rw [hs.lang, hpa]
  rw [hrl] at htag hfall htrim
  have htime : t.time = p.time := hs.time.trans (by rw [hpa])
  have hstrings : t.strings = p.strings := hs.strings.trans (by rw [hpa])
  have hsupply : t.supply = p.supply := hs.supply.trans (by rw [hpa])
  have hann : t.ann = p.ann := hs.ann.trans (by rw [hpa])
  have hseats : t.seats = p.seats := hs.seats.trans (by rw [hpa])
  rw [show q = _ from hq] at *
  refine ⟨htime, hstrings, hsupply, hann, hseats, ⟨?_, ?_, ?_, ?_, ?_⟩, fun m hm => ?_, hdefault, hpat⟩
  · rw [hlang]
  · rw [hlang]
    exact ⟨rfl, rfl, rfl⟩
  · rw [hlang]
    exact htag
  · rw [hlang]
    exact hfall
  · rw [hlang]
    exact htrim
  · rw [Part.language_setLanguage_ne _ _ hm, ← hrl]
    exact hs.langs m

/-- R59: DISABLE of an enabled language, up to the end of its command. -/
theorem Part.disableLanguage_disabled (l : Lang) (p : Part) (h : (p.language l).enabled = true) :
    p.Disabled l (if p.lang.pa = some l then none else p.lang.pa) (p.disableLanguage l).1 := by
  have hd : (p.disableLanguage l).1 = (((p.silenced l).languageDisabled l).seatsOf l).foldl
      (fun q i => q.changeLanguage i q.lang.default) ((p.silenced l).languageDisabled l) := by
    unfold Part.disableLanguage
    rw [if_pos h]
    rfl
  obtain ⟨htime, hstrings, hsupply, hann, hseats, hlang, hothers, hdefault, hpa⟩ := p.disabled_silenced l
  rw [hd]
  generalize p.silenced l = q at *
  have htold := q.announcesOnly_languageDisabled l
  have hkept := q.silentKept_languageDisabled l
  generalize q.languageDisabled l = r at *
  have hmoved := r.moveSeats_moved (r.seatsOf l)
  have hin : ∀ i, i ∈ r.seatsOf l ↔ (p.seat i).language = l := fun i => by
    unfold Part.seatsOf
    rw [List.mem_filter, decide_eq_true_iff, htold.seats i]
    simp only [List.mem_finRange, true_and]
    unfold Part.seat
    rw [hseats]
  generalize (r.seatsOf l).foldl (fun q i => q.changeLanguage i q.lang.default) r = t at hmoved
  obtain ⟨hen, hsil, htag, hfall, htrim⟩ := hlang
  obtain ⟨ken, ktag, kfall, ktrim, _⟩ := ((htold.langs l).trans (hmoved.langs l)).kept
  have hsets : t.ann.sets = p.ann.sets := by
    rw [hmoved.ann, htold.ann, ← hann]
  have hrdefault : r.lang.default = p.lang.default := by
    rw [htold.lang]
    exact hdefault
  have hrpa : r.lang.pa = if p.lang.pa = some l then none else p.lang.pa := by
    rw [htold.lang]
    exact hpa
  refine ⟨hmoved.time.trans (htold.time.trans htime), hmoved.strings.trans (htold.strings.trans hstrings),
    hmoved.supply.trans (htold.supply.trans hsupply), hsets,
    ⟨ken.trans hen, hmoved.silent l (hkept l hsil), ktag.trans htag, kfall.trans hfall, ktrim.trans htrim⟩,
    fun m hm => (hothers m hm).trans ((htold.langs m).trans (hmoved.langs m)), ?_, ?_, fun i => ?_⟩
  · rw [hmoved.table]
    exact hrdefault
  · rw [hmoved.table]
    exact hrpa
  · obtain ⟨h1, h2, h3, h4⟩ := hmoved.seats i
    have hri := htold.seats i
    have hqi : q.seat i = p.seat i := by
      unfold Part.seat
      rw [hseats]
    rw [hqi] at hri
    rw [h1, h2, h3, h4, hri]
    exact ⟨if_congr (hin i) hrdefault rfl, rfl, rfl, rfl⟩

theorem Part.Disabled.congr {l : Lang} {pa pa' : Option Lang} {p q r : Part} (h : p.Disabled l pa q)
    (ht : r.time = q.time) (hst : r.strings = q.strings) (hsu : r.supply = q.supply) (ha : r.ann = q.ann)
    (hl : r.lang = { q.lang with pa := pa' }) (hse : r.seats = q.seats) : p.Disabled l pa' r := by
  have hlang : ∀ m, r.language m = q.language m := fun m => by
    unfold Part.language
    rw [hl]
  have hseat : ∀ i, r.seat i = q.seat i := fun i => by
    unfold Part.seat
    rw [hse]
  refine ⟨ht.trans h.time, hst.trans h.strings, hsu.trans h.supply, by rw [ha, h.sets], ?_, fun m hm => ?_,
    by rw [hl, h.default], by rw [hl], fun i => ?_⟩
  · rw [hlang]
    exact h.language
  · rw [hlang]
    exact h.others m hm
  · rw [hseat]
    exact h.seats i

/-- R57: a language with its tag, fallback and trim written. -/
def Part.languageSet (l : Lang) (tag : Bytes) (fallback : Option Lang) (trim : Int) (p : Part) : Part :=
  p.setLanguage l { p.language l with tag := tag, fallback := fallback, trim := max (-24) (min 0 trim) }

theorem Part.Disabled.from_seats {l : Lang} {pa : Option Lang} {p p' q : Part} (h : p'.Disabled l pa q)
    {seats : Vector Seat 96} (hp : p' = { p with seats := seats })
    (hs : ∀ i, vget seats i = { p.seat i with pending := (vget seats i).pending }) : p.Disabled l pa q := by
  have hseat : ∀ i, p'.seat i = { p.seat i with pending := (vget seats i).pending } := fun i => by
    rw [hp]
    exact hs i
  have hlang : ∀ m, p'.language m = p.language m := fun m => by rw [hp]; rfl
  refine ⟨h.time.trans (by rw [hp]), h.strings.trans (by rw [hp]), h.supply.trans (by rw [hp]),
    h.sets.trans (by rw [hp]), ?_, fun m hm => ?_, h.default.trans (by rw [hp]), h.pa, fun i => ?_⟩
  · have := h.language
    rw [hlang] at this
    exact this
  · have := h.others m hm
    rw [hlang] at this
    exact this
  · have := h.seats i
    rw [hseat, show p'.lang.default = p.lang.default by rw [hp]] at this
    exact this

/-- R57, R59: what a DISABLE of an enabled language leaves, before its announcements' reports are taken. -/
theorem Part.writeLanguage_disable (w : LangWrite) (p : Part) (hd : w.disable = true)
    (hm : w.makeDefault = false) (hpa : w.pa = 1 ∨ w.pa = 2) (h : (p.language w.lang).enabled = true) :
    (p.languageSet w.lang w.tag w.fallback w.trim).Disabled w.lang
      (if w.pa = 1 ∨ p.lang.pa = some w.lang then none else p.lang.pa) (p.writeLanguage w).1 := by
  let x := p.language w.lang
  let y : Language := { x with tag := w.tag, fallback := w.fallback, trim := max (-24) (min 0 w.trim) }
  obtain ⟨seats, hq, hseats⟩ := p.trimmed_only w.lang y
  have hwrite : (p.writeLanguage w).1 = Part.applySettings w (Part.disableLanguage w.lang
      (if y.trim = x.trim then p.setLanguage w.lang y
        else (p.setLanguage w.lang y).recomputeLanguage w.lang)).1 := by
    unfold Part.writeLanguage
    rw [hd]
    rfl
  have hlang : ({ p.setLanguage w.lang y with seats := seats } : Part).language w.lang = y :=
    p.language_setLanguage w.lang y
  have hdis := ({ p.setLanguage w.lang y with seats := seats } : Part).disableLanguage_disabled w.lang (by
    rw [hlang]
    exact h)
  have hset := hdis.from_seats (p := p.setLanguage w.lang y) rfl fun i => by
    rw [hseats i]
    rfl
  rw [hwrite, hq, Part.applySettings_eq _ _ (by omega), hm]
  generalize (({ p.setLanguage w.lang y with seats := seats } : Part).disableLanguage w.lang).1 = q at hset
  have hpaq : q.lang.pa = if p.lang.pa = some w.lang then none else p.lang.pa := hset.pa
  have hfinal : (if w.pa = 0 then some w.lang else if w.pa = 1 then none else q.lang.pa) =
      if w.pa = 1 ∨ p.lang.pa = some w.lang then none else p.lang.pa := by
    rw [if_neg (by omega), hpaq]
    rcases hpa with hpa | hpa <;> simp [hpa]
  rw [hfinal]
  exact hset.congr rfl rfl rfl rfl rfl rfl

/-- Settles O31. -/
theorem langSetWritesEnablesAndDisables : Obligations.LangSetWritesEnablesAndDisables := by
  refine ⟨?_, ?_⟩
  · intro s tag body q l fallback hq hcan hread hl htag hf hfl he hd hpa x trim
    have hexec : exec (.langSet tag body) s =
      .next (s.onPart (Part.request .langSet tag body (Part.takeLangSet tag body))) := rfl
    set p : Part := { s.part with link := s.part.takenLink .langSet tag body } with hp
    have hstatus := Part.langStatus_ok (p := p) hread hl htag hf hfl (by omega) hd hpa fun h => by omega
    have htake := p.takeLangSet_ok tag body _ hstatus
    obtain ⟨seats, hwrite, hseats⟩ := p.writeLanguage_enable
      ⟨l, decide (q.enable = 1), q.tag, fallback, q.trim, !decide (q.default = 1), q.pa⟩ (by simp [he]) hpa
    rw [hwrite] at htake
    rw [s.onPart_request _ _ _ (Part.takeLangSet tag body) _ hcan htake hq] at hexec
    have hdefault : (if (!decide (q.default = 1)) = true then l else s.part.lang.default) =
        if q.default = 0 then l else s.part.lang.default :=
      if_congr (by simp only [Bool.not_eq_true', decide_eq_false_iff_not]; omega) rfl rfl
    refine ⟨_, hexec, rfl, rfl, vget_vset_same _ _ _, fun m hm => vget_vset_ne _ _ hm, hdefault, rfl, rfl,
      hseats, ?_⟩
    rfl
  · intro s tag body q l fallback hq hcan hread hl htag hf hfl he hd hpa hdef hon
    have hexec : exec (.langSet tag body) s =
      .next (s.onPart (Part.request .langSet tag body (Part.takeLangSet tag body))) := rfl
    set p : Part := { s.part with link := s.part.takenLink .langSet tag body } with hp
    have hstatus := Part.langStatus_ok (p := p) hread hl htag hf hfl (by omega) (by omega) (by omega)
      fun _ => ⟨hdef, hd, by omega⟩
    have htake := p.takeLangSet_ok tag body _ hstatus
    have hdis := p.writeLanguage_disable
      ⟨l, decide (q.enable = 1), q.tag, fallback, q.trim, !decide (q.default = 1), q.pa⟩ (by simp [he])
      (by simp [hd]) hpa hon
    have hrequest := (Part.request_taken .langSet tag body (Part.takeLangSet tag body) s.part hcan).trans htake
    generalize p.writeLanguage _ = w at hdis hrequest
    obtain ⟨r, moved⟩ := w
    have hpa' : r.lang = { r.lang with
        pa := if q.pa = 1 ∨ s.part.lang.pa = some l then none else s.part.lang.pa } := by
      rw [← show r.lang.pa = _ from hdis.pa]
    have hanswered := hdis.congr (r := Part.answer .langSet tag
      (if max (-24) (min 0 q.trim) = q.trim then .ok else .clamped) (r.langFields l moved) r) rfl rfl rfl rfl hpa' rfl
    have hend := hanswered.finish (Part.announcesOnly_drain 1024 _) (Part.silentKept_drain 1024 _)
    rw [← hrequest] at hend
    have hpart : (s.onPart (Part.request .langSet tag body (Part.takeLangSet tag body))).part =
      Part.served (Part.drain 1024 (Part.request .langSet tag body (Part.takeLangSet tag body) s.part)) := rfl
    refine ⟨_, hexec, rfl, rfl, ?_⟩
    rw [hpart]
    generalize Part.drain 1024 _ = t at hend
    obtain ⟨hen, ⟨hoff, hcur, hwait⟩, htag', hfall, htrim⟩ := hend.language
    have hset : (p.languageSet l q.tag fallback q.trim).language l = { p.language l with
      tag := q.tag, fallback := fallback, trim := max (-24) (min 0 q.trim) } := p.language_setLanguage l _
    rw [hset] at htag' hfall htrim
    refine ⟨hen, hoff, hcur, hwait, htag', hfall, htrim, hend.seats, hend.default, hend.pa,
      fun m hm => ?_, hend.time, hend.strings, hend.supply, hend.sets⟩
    have hother := (hend.others m hm).kept
    rw [show (p.languageSet l q.tag fallback q.trim).language m = p.language m from
      p.language_setLanguage_ne _ hm] at hother
    exact ⟨hother.1, hother.2.2.2.2⟩

end Sys2Proof.Machine
end

section
/-! STARTs that are granted and refused, and the cues that start and jump (R39, R68 to R72). -/

namespace Sys2Proof.Machine

/-! ### A START (R32, R38, R39) -/

/-- R39: a reader that has been started on a clip it could not end on at once. -/
def Reader.started (o : Owner) (k : Clip) (c : ClipId) (n : Nat) (page : Option Nat) (out : Bool) : Reader :=
  { Reader.idle o with
    state := .priming, clip := some c, position := n, nextBlock := n / 128, page := page, outstanding := out
    wait := decide (k.state = .loading) && !k.playable }

/-- R39: what the beginning of a START leaves when the sample is not past the clip's end. -/
theorem Part.beginReader_primes (r : ReaderId) (c : ClipId) (n : Nat) (p : Part)
    (h : (p.clip c).pastEnd n = false) : ∃ w page out, p.beginReader r c n = { p with
      mem := { p.mem with waiting := w }
      bank := { p.bank with
        readers := vset p.bank.readers r (.started (p.reader r).owner (p.clip c) c n page out) } } := by
  let src : Reader := { Reader.idle (p.reader r).owner with
    state := .priming, clip := some c, position := n, nextBlock := n / 128
    page := pageAt p.store.pageMap (n / 128 / Config.pageBlocks) (p.clip c).firstPage }
  have hbegin : p.beginReader r c n = if (p.clip c).state = .loading ∧ (p.clip c).playable = false then
      (p.setReader r src).setReader r { (p.setReader r src).reader r with wait := true }
      else (p.setReader r src).fetch r := by
    unfold Part.beginReader
    exact if_neg (by rw [h]; exact Bool.false_ne_true)
  rw [hbegin]
  by_cases hw : (p.clip c).state = .loading ∧ (p.clip c).playable = false
  · rw [if_pos hw, p.reader_setReader r src]
    refine ⟨p.mem.waiting, src.page, false, ?_⟩
    have hwait : (decide ((p.clip c).state = .loading) && !(p.clip c).playable) = true := by
      simpa using hw
    simp only [src, Part.setReader, vset_vset, Reader.started, hwait] <;> rfl
  · rw [if_neg hw]
    obtain ⟨w, page, out, hf⟩ := p.fetch_sampled r src
    have hwait : (decide ((p.clip c).state = .loading) && !(p.clip c).playable) = false := by
      rw [← Bool.not_eq_true]
      simpa using hw
    refine ⟨w, page, out, hf.trans ?_⟩
    simp only [src, Reader.started, hwait] <;> rfl

/-- R32: the clip record of a hold taken. -/
def Clip.held (k : Clip) : Clip := { k with hold := k.hold + 1 }

/-- R32: a take is granted. -/
def Clip.Grants (k : Clip) : Prop := (k.state = .loading ∨ k.state = .ready) ∧ k.hold < 15

theorem Clip.takeRefused_none (k : Clip) (h : k.Grants) : k.takeRefused = none := by
  obtain ⟨hs, hh⟩ := h
  unfold Clip.takeRefused
  rcases hs with hs | hs <;> simp only [hs] <;> exact if_pos hh

theorem Clip.takeRefused_some (k : Clip) (cause : RefuseCause)
    (h : (k.state = .free ∧ cause = .clipFree) ∨ (k.state = .retiring ∧ cause = .clipRetiring) ∨
      ((k.state = .loading ∨ k.state = .ready) ∧ 15 ≤ k.hold ∧ cause = .holdLimit)) :
    k.takeRefused = some cause := by
  unfold Clip.takeRefused
  rcases h with ⟨hs, rfl⟩ | ⟨hs, rfl⟩ | ⟨hs, hh, rfl⟩
  · simp only [hs]
  · simp only [hs]
  · rcases hs with hs | hs <;> simp only [hs] <;> exact if_neg (by omega)

/-- R38, R39: a START with a take on an IDLE reader, granted. -/
theorem Part.startReader_granted (r : ReaderId) (c : ClipId) (n : Nat) (p : Part) (hactive : p.active = true)
    (hnone : (p.reader r).clip = none) (hgrant : (p.clip c).Grants) (hend : (p.clip c).pastEnd n = false) :
    ∃ w page out, p.startReader r c n .take = { p.setClip c (p.clip c).held with
      mem := { p.mem with waiting := w }
      bank := { p.bank with
        readers := vset p.bank.readers r (.started (p.reader r).owner (p.clip c) c n page out) } } := by
  have hstart : p.startReader r c n .take = (p.addHold c).beginReader r c n := by
    unfold Part.startReader
    rw [if_neg (by simp [hactive]), (p.stopRelease_reader r).2.2 hnone]
    simp only [Clip.startRefused, Clip.takeRefused_none _ hgrant]
  have hclip : (p.addHold c).clip c = (p.clip c).held := Part.clip_setClip_same _ _ _
  obtain ⟨w, page, out, hb⟩ := (p.addHold c).beginReader_primes r c n (by
    rw [hclip]
    exact hend)
  refine ⟨w, page, out, hstart.trans (hb.trans ?_)⟩
  rw [hclip]
  rfl

/-- R38, R39: a START with a take on an IDLE reader, refused. -/
theorem Part.startReader_refused (r : ReaderId) (c : ClipId) (n : Nat) (p : Part) (hactive : p.active = true)
    (hnone : (p.reader r).clip = none) (cause : RefuseCause) (h : (p.clip c).takeRefused = some cause) :
    p.startReader r c n .take = p.report r (.refused cause) := by
  unfold Part.startReader
  rw [if_neg (by simp [hactive]), (p.stopRelease_reader r).2.2 hnone]
  simp only [Clip.startRefused, h]

/-! ### A stream that goes on (R70, R72) -/

/-- R32, R39: a language's record written, a hold taken on a clip, and the language's reader started on it. -/
def Part.primed (p : Part) (l : Lang) (x : Language) (c : ClipId) (y : Reader) (w : Vector Bool 16) : Part :=
  { (p.setLanguage l x).setClip c (p.clip c).held with
    mem := { p.mem with waiting := w }
    bank := { p.bank with readers := vset p.bank.readers (chan l) y } }

theorem Part.primed_language (p : Part) (l : Lang) (x : Language) (c : ClipId) (y : Reader) (w : Vector Bool 16) :
    (p.primed l x c y w).language l = x ∧ ∀ m, m ≠ l → (p.primed l x c y w).language m = p.language m :=
  ⟨p.language_setLanguage l x, fun _ h => p.language_setLanguage_ne x h⟩

theorem Part.primed_reader (p : Part) (l : Lang) (x : Language) (c : ClipId) (y : Reader) (w : Vector Bool 16) :
    (p.primed l x c y w).reader (chan l) = y ∧
      ∀ o, o ≠ chan l → (p.primed l x c y w).reader o = p.reader o :=
  ⟨p.reader_setReader (chan l) y, fun _ h => p.reader_setReader_ne y h⟩

theorem Part.primed_clip (p : Part) (l : Lang) (x : Language) (c : ClipId) (y : Reader) (w : Vector Bool 16) :
    (p.primed l x c y w).clip c = (p.clip c).held ∧
      ∀ d, d ≠ c → (p.primed l x c y w).clip d = p.clip d :=
  ⟨p.clip_setClip_same c _, fun d h => (p.clip_setClip c d _).trans (if_neg h)⟩

/-- R72: a stream that goes on with an entry whose hold is granted. -/
theorem Part.playNext_granted (l : Lang) (p : Part) {e : Entry} {rest : List Entry}
    (hw : (p.language l).waiting = e :: rest) (hactive : p.active = true)
    (howner : (p.reader (chan l)).owner = .commentary) (hnone : (p.reader (chan l)).clip = none)
    (hgrant : (p.clip e.clip).Grants) (hend : (p.clip e.clip).pastEnd 0 = false) :
    ∃ w page out, p.playNext l = p.primed l
      { p.language l with stream := .playing, current := some { e with started := true }, waiting := rest }
      e.clip (.started .commentary (p.clip e.clip) e.clip 0 page out) w := by
  let x : Language := { p.language l with stream := .playing, current := some e, waiting := rest }
  have hplay : p.playNext l = (p.setLanguage l { x with current := some { e with started := true } }).startReader
      (chan l) e.clip 0 .take := by
    rw [p.playNext_cons l hw]
    have howns : (p.setLanguage l x).ownsReader l = true := decide_eq_true howner
    simp only [Part.startEntry, Part.language_setLanguage, Part.setLanguage_setLanguage]
    exact if_pos howns
  obtain ⟨w, page, out, h⟩ := Part.startReader_granted (chan l) e.clip 0
    (p.setLanguage l { x with current := some { e with started := true } }) hactive hnone hgrant hend
  refine ⟨w, page, out, hplay.trans (h.trans ?_)⟩
  rw [← howner]
  rfl

/-- R72: a stream that goes on with an entry whose hold is refused. -/
theorem Part.playNext_refused (l : Lang) (p : Part) {e : Entry} {rest : List Entry}
    (hw : (p.language l).waiting = e :: rest) (hactive : p.active = true)
    (howner : (p.reader (chan l)).owner = .commentary) (hnone : (p.reader (chan l)).clip = none)
    (cause : RefuseCause) (h : (p.clip e.clip).takeRefused = some cause) :
    p.playNext l = { p.setLanguage l { p.language l with
        stream := .playing, current := some { e with started := true }, waiting := rest } with
      bank := { p.bank with
        reports := p.bank.reports ++ [⟨chan l, .commentary, .refused cause⟩] } } := by
  let x : Language := { p.language l with stream := .playing, current := some e, waiting := rest }
  have hplay : p.playNext l = (p.setLanguage l { x with current := some { e with started := true } }).startReader
      (chan l) e.clip 0 .take := by
    rw [p.playNext_cons l hw]
    have howns : (p.setLanguage l x).ownsReader l = true := decide_eq_true howner
    simp only [Part.startEntry, Part.language_setLanguage, Part.setLanguage_setLanguage]
    exact if_pos howns
  refine (hplay.trans (Part.startReader_refused (chan l) e.clip 0
    (p.setLanguage l { x with current := some { e with started := true } }) hactive hnone cause h)).trans ?_
  rw [← howner]
  rfl

end Sys2Proof.Machine
end

section
/-! The cues that start and jump, and the reports of channel readers (R68 to R72). -/

namespace Sys2Proof.Machine

/-! ### A cue of one language (R67 to R70) -/

theorem Part.affectedLanguages_one (n : Byte) (p : Part) (l : Lang) (r : ReelEntry)
    (henabled : (p.language l).enabled = true) (hr : tfind (p.language l).reel n.toNat = some r)
    (hothers : ∀ m, m ≠ l → (p.language m).enabled = false ∨ tfind (p.language m).reel n.toNat = none) :
    p.affectedLanguages n = [l] := by
  have haffected : ∀ m ∈ List.finRange 12, (p.language m).affected n = (m == l) := fun m _ => by
    by_cases hm : m = l
    · simp [hm, Language.affected, henabled, hr]
    · rcases hothers m hm with h | h <;> simp [hm, Language.affected, h]
  unfold Part.affectedLanguages
  rw [List.filter_congr haffected, List.filter_beq,
    List.count_eq_one_of_mem (List.nodup_finRange 12) (List.mem_finRange l)]
  rfl

/-- R67: the meaning of a CUE that affects one language. -/
theorem Part.takeCue_one (tag n : Byte) (p : Part) (l : Lang) (h : p.affectedLanguages n = [l]) :
    p.takeCue tag [n] = (p.placeEntry n l).answer .cue tag .ok (e8 1 ++ e8 l.val) := by
  simp only [Part.takeCue, h]
  rfl

theorem Part.dropResume_none (l : Lang) (p : Part) (h : (p.language l).resume = none) : p.dropResume l = p := by
  simp only [Part.dropResume, h]

/-- R68, R69: a cue whose stream is IDLE with an empty play list goes on with its entry. -/
theorem Part.placeEntry_goesOn (n : Byte) (l : Lang) (p : Part) (r : ReelEntry)
    (hr : tfind (p.language l).reel n.toNat = some r) (hidle : (p.language l).stream = .idle)
    (hcurrent : (p.language l).current = none) (hwaiting : (p.language l).waiting = [])
    (hresume : (p.language l).resume = none) (hhold : p.lang.hold = false) :
    p.placeEntry n l =
      (p.setLanguage l { p.language l with waiting := [⟨n, r.clip, r.jump, none, false⟩] }).playNext l := by
  have hgo : ∀ x, (p.setLanguage l x).goOn l = (p.setLanguage l x).playNext l := fun x =>
    if_neg (by rw [show (p.setLanguage l x).lang.hold = false from hhold]; exact Bool.false_ne_true)
  have hparked : (p.language l).stream ≠ .parked := by simp [hidle]
  unfold Part.placeEntry
  simp only [hr, if_neg hparked]
  cases hjump : r.jump with
  | true =>
    rw [if_pos rfl]
    unfold Part.placeJump
    rw [Part.dropResume_none l _ (by rw [Part.language_setLanguage]; exact hresume)]
    simp only [Part.endCurrent, Part.language_setLanguage, hcurrent, Part.setLanguage_setLanguage, hidle]
    exact hgo _
  | false =>
    rw [if_neg Bool.false_ne_true, if_pos hidle]
    simp only [hwaiting, List.any_nil, Bool.false_eq_true, if_false, Part.appendEntry, List.length_nil,
      List.nil_append]
    exact hgo _

/-- R69: the first mark at or after a position, in rising marks. -/
theorem markAtOrAfter_of {marks : List Nat} {position m : Nat} (hm : m ∈ marks) (hpos : position ≤ m)
    (hsorted : marks.Pairwise (· < ·)) (hfirst : ∀ k ∈ marks, k < m → k < position) :
    markAtOrAfter marks position = some m := by
  obtain ⟨a, b, rfl⟩ := List.append_of_mem hm
  have hbelow : ∀ k ∈ a, k < m := fun k hk =>
    (List.pairwise_append.1 hsorted).2.2 k hk m List.mem_cons_self
  have hnone : a.find? (fun k => decide (position ≤ k)) = none := by
    refine List.find?_eq_none.2 fun k hk => ?_
    have := hfirst k (List.mem_append_left _ hk) (hbelow k hk)
    simpa using this
  unfold markAtOrAfter
  rw [List.find?_append, hnone, List.find?_cons_of_pos (by simpa using hpos)]
  rfl

/-- R69: the CURRENT entry of a PLAYING stream is cut at a phrase mark ahead. -/
theorem Part.endCurrent_cuts (l : Lang) (p : Part) (e : Entry) (m : Nat)
    (hplaying : (p.language l).stream = .playing) (hcurrent : (p.language l).current = some e)
    (hcut : e.cut = none) (howner : (p.reader (chan l)).owner = .commentary)
    (hrun : (p.reader (chan l)).state = .running)
    (hmark : markAtOrAfter (p.clip e.clip).marks (p.reader (chan l)).position = some m) :
    ∃ k, p.endCurrent l = ({ (p.setReader (chan l) { p.reader (chan l) with stopPoint := some m }).setLanguage l
      { p.language l with current := some { e with cut := some m } } with link := k }, false) := by
  have hstop : p.setStop (chan l) m = p.setReader (chan l) { p.reader (chan l) with stopPoint := some m } :=
    if_neg (by simp [hrun])
  unfold Part.endCurrent
  simp only [hcurrent, hplaying, hrun, howner, hcut, hmark, hstop, Part.streamNotice_eq]
  exact ⟨_, rfl⟩

/-- R69: a jump whose CURRENT entry plays on to its cut waits alone. -/
theorem Part.placeJump_waits (l : Lang) (e : Entry) (p q : Part) (hresume : (p.language l).resume = none)
    (hend : (p.setLanguage l { p.language l with waiting := [] }).endCurrent l = (q, false))
    (hplaying : (q.language l).stream = .playing) :
    p.placeJump l e = q.setLanguage l { q.language l with waiting := [e] } := by
  unfold Part.placeJump
  rw [Part.dropResume_none l _ (by rw [Part.language_setLanguage]; exact hresume)]
  simp only [hend, Part.language_setLanguage, hplaying]
  rfl

/-- R69: a jump into a PLAYING stream with a phrase mark ahead. -/
theorem Part.placeEntry_jumps (n : Byte) (l : Lang) (p : Part) (r : ReelEntry) (e : Entry) (m : Nat)
    (hr : tfind (p.language l).reel n.toNat = some r) (hjump : r.jump = true)
    (hplaying : (p.language l).stream = .playing) (hcurrent : (p.language l).current = some e)
    (hcut : e.cut = none) (hresume : (p.language l).resume = none)
    (howner : (p.reader (chan l)).owner = .commentary) (hrun : (p.reader (chan l)).state = .running)
    (hmark : markAtOrAfter (p.clip e.clip).marks (p.reader (chan l)).position = some m) :
    ∃ k, p.placeEntry n l = { (p.setReader (chan l) { p.reader (chan l) with stopPoint := some m }).setLanguage l
      { p.language l with
        current := some { e with cut := some m }, waiting := [⟨n, r.clip, true, none, false⟩] } with link := k } := by
  have hparked : (p.language l).stream ≠ .parked := by simp [hplaying]
  let q := p.setLanguage l { p.language l with waiting := [] }
  have hq : q.language l = { p.language l with waiting := [] } := p.language_setLanguage l _
  obtain ⟨k, hend⟩ := Part.endCurrent_cuts l q e m (by rw [hq]; exact hplaying) (by rw [hq]; exact hcurrent)
    hcut howner hrun hmark
  have hplace : p.placeEntry n l = p.placeJump l ⟨n, r.clip, true, none, false⟩ := by
    unfold Part.placeEntry
    simp only [hr, if_neg hparked, hjump, if_true]
  refine ⟨k, (hplace.trans (Part.placeJump_waits l _ p _ hresume hend ?_)).trans ?_⟩
  · exact (congrArg Language.stream (Part.language_setLanguage _ l _)).trans
      ((congrArg Language.stream hq).trans hplaying)
  · rw [hq]
    refine (congrArg (fun x : Language => Part.setLanguage _ l { x with waiting := [_] })
      (Part.language_setLanguage _ l _)).trans ?_
    refine (Part.setLanguage_setLanguage { q.setReader (chan l) { q.reader (chan l) with
      stopPoint := some m } with link := k } l _ _).trans ?_
    exact congrArg (fun x : Part => { x with link := k }) (Part.setLanguage_setLanguage (p.setReader (chan l)
      { p.reader (chan l) with stopPoint := some m }) l _ _)

/-! ### Reports of channel readers (R71, R72) -/

/-- R71: the link after the notice of an entry that a report has removed. -/
def Part.skipLink (p : Part) (l : Lang) (s : StreamState) (k : ReportKind) : Link :=
  match k with
  | .completed | .cut | .abandoned => p.link
  | .refused .clipRetiring => p.link.noted (.stream l s .skippedRetiring) p.time
  | .refused .clipFree | .refused .holdLimit => p.link.noted (.stream l s .skippedAbsent) p.time

theorem Part.skipTold_setLanguage (l : Lang) (k : ReportKind) (p : Part) (x : Language) :
    (p.setLanguage l x).skipTold l k = { p.setLanguage l x with link := p.skipLink l x.stream k } := by
  have hnotice : ∀ r, (p.setLanguage l x).streamNotice l r =
      { p.setLanguage l x with link := p.link.noted (.stream l x.stream r) p.time } := fun r => by
    rw [Part.streamNotice_eq, Part.language_setLanguage]
    rfl
  unfold Part.skipTold Part.skipLink
  cases k with
  | completed => rfl
  | cut => rfl
  | abandoned => rfl
  | refused cause =>
    cases cause with
    | clipRetiring => exact hnotice _
    | clipFree => exact hnotice _
    | holdLimit => exact hnotice _

theorem Part.takeReport_channel (l : Lang) (k : ReportKind) (p : Part) :
    p.takeReport ⟨chan l, .commentary, k⟩ = p.commentaryReport l k :=
  dif_pos l.isLt

/-- R71: the part once a report has removed the CURRENT entry. -/
def Part.entryRemoved (p : Part) (l : Lang) (k : ReportKind) : Part :=
  { p.setLanguage l { p.language l with current := none } with link := p.skipLink l (p.language l).stream k }

theorem Part.takeReport_removes (l : Lang) (k : ReportKind) (p : Part) {e : Entry}
    (hc : (p.language l).current = some e) (hs : e.started = true) :
    p.takeReport ⟨chan l, .commentary, k⟩ =
      if (p.language l).stream = .playing then (p.entryRemoved l k).playNext l else p.entryRemoved l k := by
  rw [Part.takeReport_channel, p.commentaryReport_removes l k hc hs, Part.skipTold_setLanguage]
  rfl

theorem Part.entryRemoved_language (p : Part) (l : Lang) (k : ReportKind) :
    (p.entryRemoved l k).language l = { p.language l with current := none } :=
  p.language_setLanguage l _

theorem Part.skipLink_noted (p : Part) (l : Lang) (s : StreamState) (k : ReportKind) :
    p.link.Noted (p.skipLink l s k) := by
  unfold Part.skipLink
  split
  · exact .refl _
  · exact .refl _
  · exact .refl _
  · exact Link.noted_noted _ _ _
  · exact Link.noted_noted _ _ _
  · exact Link.noted_noted _ _ _

theorem Part.entryRemoved_active (p : Part) (l : Lang) (k : ReportKind) :
    (p.entryRemoved l k).active = p.active := by
  have hentering : (p.skipLink l (p.language l).stream k).entering = p.link.entering := by
    rw [(p.skipLink_noted l _ k).rest]
  change (decide (p.state = .running) && !(p.skipLink l (p.language l).stream k).entering) = _
  rw [hentering]
  rfl

/-- R72: a PLAYING stream whose last entry a report has removed is IDLE. -/
theorem Part.takeReport_idles (l : Lang) (k : ReportKind) (p : Part) {e : Entry}
    (hc : (p.language l).current = some e) (hs : e.started = true) (hp : (p.language l).stream = .playing)
    (hw : (p.language l).waiting = []) :
    p.takeReport ⟨chan l, .commentary, k⟩ =
      { p.setLanguage l { p.language l with stream := .idle, current := none } with
        link := p.skipLink l (p.language l).stream k } := by
  have hlang := p.entryRemoved_language l k
  rw [p.takeReport_removes l k hc hs, if_pos hp, Part.playNext_nil l _ (by rw [hlang]; exact hw), hlang]
  exact congrArg (fun x : Part => { x with link := p.skipLink l (p.language l).stream k })
    (p.setLanguage_setLanguage l _ _)

/-- R72: a PLAYING stream goes on with its oldest WAITING entry, whose hold is granted. -/
theorem Part.takeReport_advances (l : Lang) (k : ReportKind) (p : Part) {e w : Entry} {rest : List Entry}
    (hc : (p.language l).current = some e) (hs : e.started = true) (hp : (p.language l).stream = .playing)
    (hw : (p.language l).waiting = w :: rest) (hactive : p.active = true)
    (howner : (p.reader (chan l)).owner = .commentary) (hnone : (p.reader (chan l)).clip = none)
    (hgrant : (p.clip w.clip).Grants) (hend : (p.clip w.clip).pastEnd 0 = false) :
    ∃ v page out, p.takeReport ⟨chan l, .commentary, k⟩ = (p.entryRemoved l k).primed l
      { p.language l with current := some { w with started := true }, waiting := rest }
      w.clip (.started .commentary (p.clip w.clip) w.clip 0 page out) v := by
  have hlang := p.entryRemoved_language l k
  obtain ⟨v, page, out, h⟩ := Part.playNext_granted l (p.entryRemoved l k)
    (by rw [hlang]; exact hw) (by rw [Part.entryRemoved_active]; exact hactive) howner hnone hgrant hend
  refine ⟨v, page, out, ?_⟩
  rw [p.takeReport_removes l k hc hs, if_pos hp, h, hlang, ← hp]
  rfl

/-- R72: a PLAYING stream goes on with its oldest WAITING entry, whose START is refused. -/
theorem Part.takeReport_refused (l : Lang) (k : ReportKind) (p : Part) {e w : Entry} {rest : List Entry}
    (hc : (p.language l).current = some e) (hs : e.started = true) (hp : (p.language l).stream = .playing)
    (hw : (p.language l).waiting = w :: rest) (hactive : p.active = true)
    (howner : (p.reader (chan l)).owner = .commentary) (hnone : (p.reader (chan l)).clip = none)
    (cause : RefuseCause) (h : (p.clip w.clip).takeRefused = some cause) :
    p.takeReport ⟨chan l, .commentary, k⟩ =
      { p.setLanguage l { p.language l with current := some { w with started := true }, waiting := rest } with
        bank := { p.bank with
          reports := p.bank.reports ++ [⟨chan l, .commentary, .refused cause⟩] }
        link := p.skipLink l (p.language l).stream k } := by
  have hlang := p.entryRemoved_language l k
  rw [p.takeReport_removes l k hc hs, if_pos hp,
    Part.playNext_refused l (p.entryRemoved l k) (by rw [hlang]; exact hw)
      (by rw [Part.entryRemoved_active]; exact hactive) howner hnone cause h, hlang, ← hp]
  exact congrArg (fun x : Part => { x with
    bank := { p.bank with
      reports := p.bank.reports ++ [(⟨chan l, .commentary, .refused cause⟩ : Report)] }
    link := p.skipLink l (p.language l).stream k }) (p.setLanguage_setLanguage l _ _)

end Sys2Proof.Machine
end

section
/-! The ends of channel readers that their language's stream takes (R71, R72), and the statement on cues and
reports. -/

namespace Sys2Proof.Machine

/-! ### Reports of one channel reader -/

/-- Every waiting report is one of a language's channel reader to the Commentary Scheduler. -/
def Part.FromChannel (l : Lang) (p : Part) : Prop :=
  ∀ x ∈ p.bank.reports, x.reader = chan l ∧ x.owner = .commentary

theorem Part.FromChannel.same {l : Lang} {p q : Part} (h : p.FromChannel l)
    (hr : q.bank.reports = p.bank.reports) : q.FromChannel l := by
  unfold Part.FromChannel
  rw [hr]
  exact h

theorem Part.fromChannel_startEntry (l : Lang) (p : Part) (h : p.FromChannel l) :
    (p.startEntry l).FromChannel l := by
  unfold Part.startEntry
  split
  · exact h
  · split
    · rename_i e _ howns
      have howner : (p.reader (chan l)).owner = .commentary := by simpa [Part.ownsReader] using howns
      obtain ⟨new, hnew, hx⟩ := Part.startReader_reports (chan l) e.clip 0 .take
        (p.setLanguage l { p.language l with current := some { e with started := true } })
      intro x hm
      rw [hnew] at hm
      rcases List.mem_append.1 hm with hm | hm
      · exact h x hm
      · exact ⟨(hx x hm).1, (hx x hm).2.trans howner⟩
    · exact h

theorem Part.fromChannel_playNext (l : Lang) (p : Part) (h : p.FromChannel l) : (p.playNext l).FromChannel l := by
  cases hw : (p.language l).waiting with
  | nil =>
    rw [p.playNext_nil l hw]
    exact h
  | cons e rest =>
    rw [p.playNext_cons l hw]
    exact Part.fromChannel_startEntry l _ h

theorem Part.fromChannel_commentaryReport (l : Lang) (k : ReportKind) (p : Part) (h : p.FromChannel l) :
    (p.commentaryReport l k).FromChannel l := by
  rcases p.commentaryReport_cases l with ⟨e, hc, hs⟩ | hd
  · rw [p.commentaryReport_removes l k hc hs]
    have ht : ((p.setLanguage l { p.language l with current := none }).skipTold l k).FromChannel l :=
      h.same (by rw [Part.skipTold_bank]; rfl)
    split
    · exact Part.fromChannel_playNext l _ ht
    · exact ht
  · rw [p.commentaryReport_discarded l k hd]
    exact h

/-- R71, R72: the reports of one channel reader move no other language. -/
theorem Part.drain_fromChannel (l : Lang) (n : Nat) (p : Part) (h : p.FromChannel l) :
    ∀ m, m ≠ l → (p.drain n).language m = p.language m := by
  induction n generalizing p with
  | zero => exact fun _ _ => rfl
  | succ n ih =>
    unfold Part.drain
    cases hr : p.bank.reports with
    | nil => exact fun _ _ => rfl
    | cons x rest =>
      have hreader := (h x (by simp [hr])).1
      have howner := (h x (by simp [hr])).2
      let q : Part := { p with bank := { p.bank with reports := rest } }
      have hq : q.FromChannel l := fun y hy => h y (by rw [hr]; exact List.mem_cons_of_mem x hy)
      have htake : q.takeReport x = q.commentaryReport l x.kind := by
        rw [← Part.takeReport_channel, ← hreader, ← howner]
      intro m hm
      have hrest := ih (q.takeReport x) (by
        rw [htake]
        exact Part.fromChannel_commentaryReport l _ q hq) m hm
      refine hrest.trans ?_
      rw [htake, Part.language_written (Part.commentaryReport_lang l _ q), if_neg hm]
      rfl

/-- The end of a command with one waiting report, whose taking makes no further one. -/
theorem Part.drain_one (n : Nat) (p : Part) (x : Report) (h : p.bank.reports = [x])
    (hq : (Part.takeReport x { p with bank := { p.bank with reports := [] } }).bank.reports = []) :
    p.drain (n + 1) = Part.takeReport x { p with bank := { p.bank with reports := [] } } := by
  simp only [Part.drain, h]
  exact Part.drain_quiet n _ hq

/-! ### A sample period in which one reader plays (R43, R44) -/

theorem Part.samplePeriod_none (p : Part) (r : ReaderId) (h : (p.reader r).clip = none) :
    p.samplePeriod r = (0, p) := by
  simp only [Part.samplePeriod, h]

theorem Part.samplePeriods_none (rs : List ReaderId) (p : Part) (h : ∀ o ∈ rs, (p.reader o).clip = none) :
    (Part.samplePeriods rs p).2 = p := by
  induction rs with
  | nil => rfl
  | cons r rs ih =>
    unfold Part.samplePeriods
    rw [p.samplePeriod_none r (h r (by simp))]
    exact ih fun o ho => h o (List.mem_cons_of_mem r ho)

/-- R43: the sample periods of readers of which one alone has a clip. -/
theorem Part.samplePeriods_one (r : ReaderId) (rs : List ReaderId) (p : Part) (hr : r ∈ rs) (hnd : rs.Nodup)
    (h : ∀ o ∈ rs, o ≠ r → (p.reader o).clip = none ∧ ((p.samplePeriod r).2.reader o).clip = none) :
    (Part.samplePeriods rs p).2 = (p.samplePeriod r).2 := by
  induction rs with
  | nil => exact absurd hr (by simp)
  | cons o rs ih =>
    obtain ⟨ho, hnd⟩ := List.nodup_cons.1 hnd
    by_cases hor : o = r
    · subst hor
      exact Part.samplePeriods_none rs (p.samplePeriod o).2 fun m hm =>
        (h m (List.mem_cons_of_mem o hm) fun he => ho (he ▸ hm)).2
    · unfold Part.samplePeriods
      rw [p.samplePeriod_none o (h o (by simp) hor).1]
      exact ih ((List.mem_cons.1 hr).resolve_left fun he => hor he.symm) hnd fun m hm =>
        h m (List.mem_cons_of_mem o hm)

/-- R44: the sample period in which a language's reader plays its READY clip to the end, before its report is
taken. -/
theorem Part.sampleTick_ends (p : Part) (l : Lang) (c : ClipId) (hrun : (p.reader (chan l)).state = .running)
    (hc : (p.reader (chan l)).clip = some c) (hstop : (p.reader (chan l)).stopPoint = none)
    (hpast : (p.clip c).pastEnd (p.reader (chan l)).position = true)
    (hothers : ∀ o, o ≠ chan l → (p.reader o).clip = none) :
    ∃ frame, p.sampleTick = { p.endReader (chan l) .completed with
      bank := { (p.endReader (chan l) .completed).bank with frame := frame } } := by
  have hdue : (p.reader (chan l)).cutDue (p.clip c) = false := by
    simp only [Reader.cutDue, hstop]
  have hperiod : p.samplePeriod (chan l) = (0, p.endReader (chan l) .completed) := by
    simp only [Part.samplePeriod, hc, hdue, hrun, hpast, if_true]
    exact if_neg (by simp)
  obtain ⟨_, hstand, _⟩ := p.endReader_spec (chan l) .completed c hc
  have hone := Part.samplePeriods_one (chan l) (List.finRange 14) p (List.mem_finRange _) (List.nodup_finRange 14)
    fun o _ ho => ⟨hothers o ho, by
      rw [hperiod]
      exact (congrArg Reader.clip (hstand o ho)).trans (hothers o ho)⟩
  rw [hperiod] at hone
  unfold Part.sampleTick
  rw [← Prod.mk.eta (p := p.samplePeriods (List.finRange 14)), hone]
  exact ⟨_, rfl⟩

/-! ### The statement -/

theorem Part.ReadersOnly.active {p q : Part} (h : p.ReadersOnly q) : q.active = p.active := by
  have hentering : q.link.entering = p.link.entering := by rw [h.link.rest]
  have hstate : q.state = p.state := by
    unfold Part.state
    rw [h.mem]
  unfold Part.active
  rw [hstate, hentering]

theorem Link.refuse_entering (k : Link) (kind tag : Byte) (s : Status) :
    (k.refuse kind tag s).entering = k.entering := by
  unfold Link.refuse
  split <;> rfl

theorem Part.accept_entering (k tag : Byte) (body : Bytes) (p : Part) :
    (p.accept k tag body).link.entering = p.link.entering := by
  unfold Part.accept
  simp only
  split
  · exact Link.refuse_entering _ _ _ _
  · split
    · exact Link.refuse_entering _ _ _ _
    · split
      · exact Link.refuse_entering _ _ _ _
      · split
        · exact Link.refuse_entering _ _ _ _
        · rfl

/-- R180: the taking of a request leaves the part as active as it was. -/
theorem Part.taken_active (k : Kind) (tag : Byte) (body : Bytes) (p : Part) :
    Part.active { p with link := p.takenLink k tag body } = p.active := by
  have hoffered : (p.offered k tag body).entering = p.link.entering := by
    unfold Part.offered
    split
    · rfl
    · exact p.accept_entering _ _ _
  change (decide (p.state = .running) && !(p.offered k tag body).entering) = _
  rw [hoffered]
  rfl

/-- R70: the language, clip and reader of an entry that an IDLE stream has started, and what stands. -/
theorem Part.placeEntry_starts (n : Byte) (l : Lang) (p : Part) (r : ReelEntry)
    (hr : tfind (p.language l).reel n.toNat = some r) (hidle : (p.language l).stream = .idle)
    (hcurrent : (p.language l).current = none) (hwaiting : (p.language l).waiting = [])
    (hresume : (p.language l).resume = none) (hhold : p.lang.hold = false) (hactive : p.active = true)
    (howner : (p.reader (chan l)).owner = .commentary) (hnone : (p.reader (chan l)).clip = none)
    (hgrant : (p.clip r.clip).Grants) (hend : (p.clip r.clip).pastEnd 0 = false) :
    ∃ w page out, p.placeEntry n l = p.primed l
      { p.language l with
        stream := .playing, current := some ⟨n, r.clip, r.jump, none, true⟩, waiting := [] }
      r.clip (.started .commentary (p.clip r.clip) r.clip 0 page out) w := by
  have hlang := p.language_setLanguage l { p.language l with waiting := [⟨n, r.clip, r.jump, none, false⟩] }
  obtain ⟨w, page, out, h⟩ := Part.playNext_granted l (e := ⟨n, r.clip, r.jump, none, false⟩) (rest := [])
    (p.setLanguage l { p.language l with waiting := [⟨n, r.clip, r.jump, none, false⟩] })
    (by rw [hlang]) hactive howner hnone hgrant hend
  refine ⟨w, page, out, (p.placeEntry_goesOn n l r hr hidle hcurrent hwaiting hresume hhold).trans (h.trans ?_)⟩
  rw [hlang]
  unfold Part.primed
  rw [Part.setLanguage_setLanguage]
  rfl

/-- Settles O34. -/
theorem cueStartsIdleStreamsAndJumpsAtMarks : Obligations.CueStartsIdleStreamsAndJumpsAtMarks := by
  refine ⟨?_, ?_, ?_⟩
  · intro s tag n l r hq hcan henabled hr hothers howner hresume x k
    have hexec : exec (.cue tag [n]) s =
      .next (s.onPart (Part.request .cue tag [n] (Part.takeCue tag [n]))) := rfl
    set p : Part := { s.part with link := s.part.takenLink .cue tag [n] } with hp
    have htake := p.takeCue_one tag n l (p.affectedLanguages_one n l r henabled hr hothers)
    refine ⟨fun hidle hcurrent hwaiting hhold hactive hnone hstate hroom hend => ?_,
      fun e m hplaying hcurrent hcut hjump hrun hm hpos hsorted hfirst => ?_⟩
    · obtain ⟨w, page, out, hplace⟩ := p.placeEntry_starts n l r hr hidle hcurrent hwaiting hresume hhold
        (by rw [hp, Part.taken_active]; exact hactive) howner hnone ⟨hstate, hroom⟩ hend
      rw [hplace] at htake
      rw [s.onPart_request _ _ _ (Part.takeCue tag [n]) _ hcan htake hq] at hexec
      let next : Language := { x with
        stream := .playing, current := some ⟨n, r.clip, r.jump, none, true⟩, waiting := [] }
      let started := Reader.started .commentary k r.clip 0 page out
      obtain ⟨hlang, hlangs⟩ := p.primed_language l next r.clip started w
      obtain ⟨hreader, hreaders⟩ := p.primed_reader l next r.clip started w
      obtain ⟨hclip, hclips⟩ := p.primed_clip l next r.clip started w
      refine ⟨_, hexec, rfl, hlang, hlangs, hclip, hclips, ?_, hreaders, rfl, rfl⟩
      intro y
      have hy : y = .started .commentary (p.clip r.clip) r.clip 0 page out := hreader
      rw [hy]
      exact ⟨rfl, rfl, rfl, rfl, rfl, rfl, rfl, rfl⟩
    · obtain ⟨link, hplace⟩ := p.placeEntry_jumps n l r e m hr hjump hplaying hcurrent hcut hresume howner hrun
        (markAtOrAfter_of hm hpos hsorted hfirst)
      rw [hplace] at htake
      rw [s.onPart_request _ _ _ (Part.takeCue tag [n]) _ hcan htake hq] at hexec
      exact ⟨_, hexec, rfl, p.language_setLanguage l _, fun o ho => p.language_setLanguage_ne _ ho,
        p.reader_setReader _ _, fun o ho => p.reader_setReader_ne _ ho, rfl, rfl, rfl⟩
  · intro p l kind x q told
    have htold : told = p.skipLink l x.stream kind := rfl
    refine ⟨fun h => (p.takeReport_channel l kind).trans (p.commentaryReport_discarded l kind h),
      fun e hc hs => ⟨fun hne => ?_, fun hp hw => p.takeReport_idles l kind hc hs hp hw, ?_⟩⟩
    · exact (p.takeReport_removes l kind hc hs).trans (if_neg hne)
    · intro w rest hp hw hactive howner hnone k next
      refine ⟨fun hstate hroom hend => ?_, fun cause hcause =>
        p.takeReport_refused l kind hc hs hp hw hactive howner hnone cause (Clip.takeRefused_some k cause hcause)⟩
      obtain ⟨v, page, out, htake⟩ := p.takeReport_advances l kind hc hs hp hw hactive howner hnone
        ⟨hstate, hroom⟩ hend
      have hq : q = _ := htake
      rw [hq]
      obtain ⟨hlang, hlangs⟩ := (p.entryRemoved l kind).primed_language l next w.clip
        (.started .commentary k w.clip 0 page out) v
      obtain ⟨hreader, hreaders⟩ := (p.entryRemoved l kind).primed_reader l next w.clip
        (.started .commentary k w.clip 0 page out) v
      obtain ⟨hclip, hclips⟩ := (p.entryRemoved l kind).primed_clip l next w.clip
        (.started .commentary k w.clip 0 page out) v
      refine ⟨hlang, fun m hm => (hlangs m hm).trans (p.language_setLanguage_ne _ hm), ?_, hreaders, hclip, hclips,
        rfl, rfl, rfl, rfl⟩
      intro y
      have hy : y = .started .commentary k w.clip 0 page out := hreader
      rw [hy]
      exact ⟨rfl, rfl, rfl, rfl, rfl, rfl⟩
  · intro s l e c hq x y hplaying hcurrent hstarted howner hrun hc hstop hpast hready hhold hactive hothers
    have hexec : exec .samplePeriod s = .next (s.onPart Part.sampleTick) := rfl
    obtain ⟨frame, htick⟩ := s.part.sampleTick_ends l c hrun hc hstop hpast hothers
    obtain ⟨hreader, hstand, hreports, hclip, _, hclips⟩ := s.part.endReader_spec (chan l) .completed c hc
    have hends := s.part.readersOnly_endReader (chan l) .completed
    have hactive' : (s.part.endReader (chan l) .completed).active = true := hends.active.trans hactive
    have hon : s.onPart Part.sampleTick = { s with part := (s.part.sampleTick.drain 1024).served } := rfl
    rw [htick] at hon
    generalize s.part.endReader (chan l) .completed = q at hreader hreports hclip hclips hends hactive' hon
    have hclip : q.clip c = { s.part.clip c with hold := (s.part.clip c).hold - 1 } := hclip (.inl (by simp [hready]))
    have hlang : ∀ m, q.language m = s.part.language m := fun m =>
      congrArg (fun a : LangTable => vget a.langs m) hends.lang
    let tick : Part := { q with bank := { q.bank with frame := frame } }
    let left : Part := { tick with bank := { tick.bank with reports := [] } }
    have hreports : tick.bank.reports = [⟨chan l, .commentary, .completed⟩] := by
      refine hreports.trans ?_
      rw [hq, show (s.part.reader (chan l)).owner = .commentary from howner]
      rfl
    have hreader : left.reader (chan l) = Reader.idle .commentary := hreader.trans (congrArg Reader.idle howner)
    have hdrain := Part.drain_fromChannel l 1024 tick fun x hx => by
      rw [hreports] at hx
      rw [List.mem_singleton.1 hx]
      exact ⟨rfl, rfl⟩
    have hone := Part.drain_one 1023 tick _ hreports
    have hempty := Part.drain_reports 1024 tick
    have hleft : left.language l = x := hlang l
    change s.onPart Part.sampleTick = { s with part := (tick.drain 1024).served } at hon
    change _ → tick.drain 1024 = Part.takeReport ⟨chan l, .commentary, .completed⟩ left at hone
    generalize tick.drain 1024 = d at hon hdrain hone hempty
    rw [hon] at hexec
    refine ⟨_, hexec, rfl, rfl, fun m hm => (hdrain m hm).trans (hlang m), hempty, fun hw => ?_,
      fun w rest hw hstate hroom hend => ?_⟩
    · have htake := left.takeReport_idles l .completed (by rw [hleft]; exact hcurrent) hstarted
        (by rw [hleft]; exact hplaying) (by rw [hleft]; exact hw)
      have hd := (hone (by rw [htake]; rfl)).trans htake
      rw [hleft] at hd
      rw [hd]
      exact ⟨left.language_setLanguage l _, hreader, hclip, hclips⟩
    · have hclipw : (w.clip = c → q.clip w.clip = { s.part.clip c with hold := (s.part.clip c).hold - 1 }) ∧
          (w.clip ≠ c → q.clip w.clip = s.part.clip w.clip) :=
        ⟨fun h => (congrArg q.clip h).trans hclip, fun h => hclips w.clip h⟩
      have hgrant : (q.clip w.clip).Grants ∧ (q.clip w.clip).pastEnd 0 = false := by
        by_cases h : w.clip = c
        · rw [hclipw.1 h, ← h]
          exact ⟨⟨hstate, Nat.lt_of_le_of_lt (Nat.sub_le _ 1) hroom⟩, hend⟩
        · rw [hclipw.2 h]
          exact ⟨⟨hstate, hroom⟩, hend⟩
      obtain ⟨v, page, out, htake⟩ := left.takeReport_advances l .completed (by rw [hleft]; exact hcurrent) hstarted
        (by rw [hleft]; exact hplaying) (by rw [hleft]; exact hw) hactive' (congrArg Reader.owner hreader)
        (congrArg Reader.clip hreader) hgrant.1 hgrant.2
      have hd := (hone (by rw [htake]; exact rfl)).trans htake
      rw [hleft] at hd
      let next : Language := { x with current := some { w with started := true }, waiting := rest }
      let started := Reader.started .commentary (left.clip w.clip) w.clip 0 page out
      obtain ⟨hnext, _⟩ := (left.entryRemoved l .completed).primed_language l next w.clip started v
      obtain ⟨hplays, _⟩ := (left.entryRemoved l .completed).primed_reader l next w.clip started v
      obtain ⟨hheld, hstands⟩ := (left.entryRemoved l .completed).primed_clip l next w.clip started v
      rw [← hd] at hnext hplays hheld hstands
      have hheld : d.clip w.clip = (q.clip w.clip).held := hheld
      refine ⟨hnext, congrArg Reader.state hplays, congrArg Reader.clip hplays, congrArg Reader.position hplays,
        fun h => ?_, fun h => ⟨?_, ?_⟩, fun m hmc hmw => (hstands m hmw).trans (hclips m hmc)⟩
      · have hback : d.clip c = { s.part.clip c with hold := (s.part.clip c).hold - 1 + 1 } := by
          rw [← h, hheld, hclipw.1 h, ← h]
          rfl
        rw [Nat.sub_add_cancel hhold] at hback
        exact hback
      · exact (hstands c (Ne.symm h)).trans hclip
      · rw [← hclipw.2 h]
        exact hheld

end Sys2Proof.Machine
end

section
/-! The taking of the readers by the Announcement Controller (R49, R73). -/

namespace Sys2Proof.Machine

theorem chan_inj {l m : Lang} (h : chan l = chan m) : l = m := Fin.ext (congrArg (fun r : ReaderId => r.val) h)

theorem chan_ne_pa (l : Lang) : chan l ≠ 12 := fun h => absurd (congrArg (fun r : ReaderId => r.val) h) (by
  change l.val ≠ 12
  omega)

theorem chan_ne_chime (l : Lang) : chan l ≠ 13 := fun h => absurd (congrArg (fun r : ReaderId => r.val) h) (by
  change l.val ≠ 13
  omega)

/-- R49: a channel reader that is handed over. -/
def Part.handedReader (p : Part) (l : Lang) : Reader :=
  if (p.reader (chan l)).clip = none then { p.reader (chan l) with owner := .announcement }
  else Reader.idle .announcement

/-- What the taking of the readers writes of the part. -/
def Part.handed (p : Part) (w : Vector Bool 16) (d : Device) (v : Vector Reader 14) (langs : Vector Language 12) :
    Part :=
  { p with
    mem := { p.mem with waiting := w, device := d }
    bank := { p.bank with readers := v }
    lang := { p.lang with langs := langs } }

theorem Part.handOver_eq (l : Lang) (p : Part) : ∃ w d, p.handOver l =
    p.handed w d (vset p.bank.readers (chan l) (p.handedReader l)) (vset p.lang.langs l (p.handedOver l)) := by
  unfold Part.handOver Part.handedOver Part.handedReader
  rcases Option.eq_none_or_eq_some (p.reader (chan l)).clip with h | ⟨c, h⟩
  · simp only [h, if_true]
    refine ⟨p.mem.waiting, p.mem.device, ?_⟩
    unfold Part.handed Part.language
    rw [vset_vget]
    rfl
  · simp only [h]
    have hclear : p.clearReader (chan l) = { p.withdraw (ringOf (chan l)) with
        bank := { p.bank with
          readers := vset p.bank.readers (chan l) (Reader.idle (p.reader (chan l)).owner) } } := rfl
    have hidle : (p.clearReader (chan l)).reader (chan l) = Reader.idle (p.reader (chan l)).owner :=
      Part.reader_setReader _ _ _
    refine ⟨(p.withdraw (ringOf (chan l))).mem.waiting, (p.withdraw (ringOf (chan l))).mem.device,
      (congrArg (fun x : Reader => Part.setReader _ (chan l) { x with owner := .announcement })
      hidle).trans ?_⟩
    rw [hclear, if_neg (by simp)]
    simp only [Part.setReader, Part.setLanguage, vset_vset]
    exact rfl

theorem Part.handed_reader (p : Part) (w : Vector Bool 16) (d : Device) (v : Vector Reader 14)
    (langs : Vector Language 12) (o : ReaderId) : (p.handed w d v langs).reader o = vget v o := rfl

theorem Part.handed_language (p : Part) (w : Vector Bool 16) (d : Device) (v : Vector Reader 14)
    (langs : Vector Language 12) (l : Lang) : (p.handed w d v langs).language l = vget langs l := rfl

/-- R49: several channel readers are handed over. -/
theorem Part.handOvers (ls : List Lang) (hnd : ls.Nodup) (p : Part) :
    ∃ w d v langs, ls.foldl (fun q l => q.handOver l) p = p.handed w d v langs ∧
      (∀ l ∈ ls, vget v (chan l) = p.handedReader l ∧ vget langs l = p.handedOver l) ∧
      (∀ o, (∀ l ∈ ls, o ≠ chan l) → vget v o = p.reader o) ∧ ∀ l, l ∉ ls → vget langs l = p.language l := by
  induction ls generalizing p with
  | nil => exact ⟨_, _, _, _, rfl, fun l hl => absurd hl (by simp), fun _ _ => rfl, fun _ _ => rfl⟩
  | cons l ls ih =>
    obtain ⟨hl, hnd⟩ := List.nodup_cons.1 hnd
    obtain ⟨w, d, hfirst⟩ := p.handOver_eq l
    set q := p.handed w d (vset p.bank.readers (chan l) (p.handedReader l)) (vset p.lang.langs l (p.handedOver l))
      with hq
    have hreader : ∀ o, o ≠ chan l → q.reader o = p.reader o := fun o ho => by
      rw [hq, Part.handed_reader, vget_vset_ne _ _ ho]
      rfl
    have hlanguage : ∀ m, m ≠ l → q.language m = p.language m := fun m hm => by
      rw [hq, Part.handed_language, vget_vset_ne _ _ hm]
      rfl
    have hother : ∀ m ∈ ls, q.handedReader m = p.handedReader m ∧ q.handedOver m = p.handedOver m := by
      intro m hm
      have hml : m ≠ l := fun h => hl (h ▸ hm)
      unfold Part.handedReader Part.handedOver
      rw [hreader (chan m) fun h => hml (chan_inj h), hlanguage m hml]
      exact ⟨rfl, rfl⟩
    obtain ⟨w', d', v, langs, hrest, hturn, hreaders, hlangs⟩ := ih hnd q
    refine ⟨w', d', v, langs, ?_, fun m hm => ?_, fun o ho => ?_, fun m hm => ?_⟩
    · rw [List.foldl_cons, hfirst]
      exact hrest
    · rcases List.mem_cons.1 hm with rfl | hm
      · rw [hreaders (chan m) fun n hn h => hl (by rw [chan_inj h]; exact hn), hlangs m hl]
        exact ⟨by simp [hq, Part.handed_reader], by simp [hq, Part.handed_language]⟩
      · rw [(hturn m hm).1, (hturn m hm).2]
        exact hother m hm
    · rw [hreaders o fun n hn => ho n (List.mem_cons_of_mem l hn), hreader o (ho l (by simp))]
    · obtain ⟨hml, hms⟩ := not_or.1 (mt List.mem_cons.2 hm)
      rw [hlangs m hms, hlanguage m hml]

/-- R73: the suspend signal at several languages. -/
theorem Part.suspendStreams (ls : List Lang) (hnd : ls.Nodup) (p : Part) :
    ∃ langs k, ls.foldl (fun q l => q.suspendStream l) p =
        { p with lang := { p.lang with langs := langs }, link := k } ∧ p.link.Noted k ∧
      (∀ l ∈ ls, vget langs l = (p.language l).suspended) ∧ ∀ l, l ∉ ls → vget langs l = p.language l := by
  induction ls generalizing p with
  | nil => exact ⟨_, _, rfl, .refl _, fun l hl => absurd hl (by simp), fun _ _ => rfl⟩
  | cons l ls ih =>
    obtain ⟨hl, hnd⟩ := List.nodup_cons.1 hnd
    obtain ⟨k, hfirst⟩ := p.suspendStream_only l
    have hnoted : p.link.Noted k := by
      have := (p.streamsOnly_suspendStream l).link
      rw [hfirst] at this
      exact this
    set q : Part := { p.setLanguage l (p.language l).suspended with link := k } with hq
    have hlanguage : ∀ m, m ≠ l → q.language m = p.language m := fun m hm => p.language_setLanguage_ne _ hm
    obtain ⟨langs, k', hrest, hk, hturn, hlangs⟩ := ih hnd q
    refine ⟨langs, k', ?_, hnoted.trans hk, fun m hm => ?_, fun m hm => ?_⟩
    · rw [List.foldl_cons, hfirst]
      exact hrest
    · rcases List.mem_cons.1 hm with rfl | hm
      · rw [hlangs _ hl]
        exact p.language_setLanguage _ _
      · rw [hturn m hm, hlanguage m fun h => hl (h ▸ hm)]
    · obtain ⟨hml, hms⟩ := not_or.1 (mt List.mem_cons.2 hm)
      rw [hlangs m hms, hlanguage m hml]

/-- R49: the readers that an announcement has already taken change no owner. -/
theorem Part.takeReaders_owned (p : Part) (h : ∀ o, (p.reader o).owner = .announcement) : p.takeReaders = p := by
  have hset : ∀ o, p.setOwner o .announcement = p := fun o => by
    unfold Part.setOwner
    rw [← h o]
    unfold Part.setReader Part.reader
    rw [vset_vget]
  unfold Part.takeReaders
  rw [if_pos (h 0), hset, hset]

/-- R49, R73: the taking of the readers. -/
theorem Part.takeReaders_spec (p : Part) (h : (p.reader 0).owner ≠ .announcement) :
    ∃ w d v langs k, p.takeReaders = { p.handed w d v langs with
        lang := { p.lang with langs := langs, hold := true }, link := k } ∧ p.link.Noted k ∧
      (∀ l, vget v (chan l) = p.handedReader l ∧ vget langs l = (p.handedOver l).suspended) ∧
      vget v 12 = { p.reader 12 with owner := .announcement } ∧
      vget v 13 = { p.reader 13 with owner := .announcement } := by
  obtain ⟨w, d, v, langs, hhanded, hturn, hreaders, _⟩ :=
    Part.handOvers (List.finRange 12) (List.nodup_finRange 12) p
  have h12 := hreaders 12 fun l _ => (chan_ne_pa l).symm
  have h13 := hreaders 13 fun l _ => (chan_ne_chime l).symm
  let q := p.handed w d v langs
  let owned : Part := (q.setOwner 12 .announcement).setOwner 13 .announcement
  let held : Part := { owned with lang := { owned.lang with hold := true } }
  obtain ⟨langs', k, hsuspended, hk, hlangs, _⟩ :=
    Part.suspendStreams (List.finRange 12) (List.nodup_finRange 12) held
  have htake : p.takeReaders = held.eachLanguage fun l q => q.suspendStream l := by
    unfold Part.takeReaders
    rw [if_neg h, show p.eachLanguage (fun l q => q.handOver l) = q from hhanded]
  refine ⟨w, d, owned.bank.readers, langs', k, htake.trans (hsuspended.trans rfl), hk,
    fun l => ⟨?_, ?_⟩, ?_, ?_⟩
  · have hstand : owned.reader (chan l) = q.reader (chan l) := by
      rw [show owned.reader (chan l) = (q.setOwner 12 .announcement).reader (chan l) from
        Part.reader_setReader_ne _ _ (chan_ne_chime l)]
      exact Part.reader_setReader_ne _ _ (chan_ne_pa l)
    exact hstand.trans (hturn l (List.mem_finRange l)).1
  · rw [hlangs l (List.mem_finRange l)]
    exact congrArg Language.suspended (hturn l (List.mem_finRange l)).2
  · refine (Part.reader_setReader_ne (q.setOwner 12 .announcement) _ (by decide)).trans ?_
    refine (Part.reader_setReader q _ _).trans ?_
    rw [show q.reader 12 = p.reader 12 from h12]
  · refine (Part.reader_setReader _ _ _).trans ?_
    rw [show (q.setOwner 12 .announcement).reader 13 = p.reader 13 from
      (Part.reader_setReader_ne q _ (by decide)).trans h13]

end Sys2Proof.Machine
end

section
/-! The start of a repetition of an announcement (R87 to R89). -/

namespace Sys2Proof.Machine

/-! ### The clips that a set gives (R88) -/

theorem AnnSet.chooseClip_eq (s : AnnSet) (l : Lang) (p : Part) :
    s.chooseClip (p.language l).fallback l = p.spokenClip s l := by
  have hitem : s.itemFor = s.clipNamed := rfl
  unfold AnnSet.chooseClip Part.spokenClip
  rw [hitem]
  cases s.clipNamed l with
  | some c => rfl
  | none => cases (p.language l).fallback.bind s.clipNamed <;> rfl

theorem Part.choosePaClip_eq (s : AnnSet) (p : Part) : p.choosePaClip s = p.spokenPaClip s := by
  unfold Part.choosePaClip Part.spokenPaClip
  cases s.paClip with
  | some c => rfl
  | none => exact s.chooseClip_eq _ p

theorem AnnSet.mem_namedClips (s : AnnSet) (c : ClipId) : c ∈ s.namedClips ↔
    c = s.defaultClip ∨ c ∈ s.items.map Prod.snd ∨ s.paClip = some c ∨ s.chimeClip = some c := by
  simp only [AnnSet.namedClips, List.cons_append, List.mem_cons, List.mem_append, Option.mem_toList,
    or_assoc]

theorem AnnSet.clipNamed_mem (s : AnnSet) (l : Lang) (c : ClipId) (h : s.clipNamed l = some c) :
    c ∈ s.namedClips := by
  obtain ⟨x, hx, rfl⟩ := Option.map_eq_some_iff.1 h
  exact (s.mem_namedClips _).2 (.inr (.inl (List.mem_map_of_mem (List.mem_of_find?_eq_some hx))))

theorem Part.spokenClip_mem (s : AnnSet) (l : Lang) (p : Part) : p.spokenClip s l ∈ s.namedClips := by
  unfold Part.spokenClip
  rcases Option.eq_none_or_eq_some (s.clipNamed l) with h | ⟨c, h⟩
  · rw [h, Option.none_or]
    rcases Option.eq_none_or_eq_some ((p.language l).fallback.bind s.clipNamed) with hf | ⟨c, hf⟩
    · rw [hf]
      exact (s.mem_namedClips _).2 (.inl rfl)
    · rw [hf]
      obtain ⟨m, _, hm⟩ := Option.bind_eq_some_iff.1 hf
      exact s.clipNamed_mem m c hm
  · rw [h]
    exact s.clipNamed_mem l c h

theorem Part.spokenPaClip_mem (s : AnnSet) (p : Part) : p.spokenPaClip s ∈ s.namedClips := by
  unfold Part.spokenPaClip
  rcases Option.eq_none_or_eq_some s.paClip with h | ⟨c, h⟩
  · rw [h]
    exact Part.spokenClip_mem s _ p
  · rw [h]
    exact (s.mem_namedClips c).2 (.inr (.inr (.inl h)))

/-! ### STARTs of several readers (R39, R89) -/

/-- What STARTs write of the part: read requests, holds and readers. -/
def Part.reading (p : Part) (w : Vector Bool 16) (cs : List (Nat × Clip)) (v : Vector Reader 14) : Part :=
  { p with
    mem := { p.mem with waiting := w }, store := { p.store with clips := cs }
    bank := { p.bank with readers := v } }

/-- An IDLE reader of the announcement can be given a clip, with room for `n` further holds on it. -/
def Part.CanSpeak (p : Part) (n : Nat) (x : ReaderId × ClipId) : Prop :=
  (p.reader x.1).owner = .announcement ∧ (p.reader x.1).clip = none ∧
    (p.clip x.2).state = .ready ∧ 2 ≤ (p.clip x.2).loaded ∧ (p.clip x.2).hold + n ≤ 15

theorem Clip.pastEnd_first (k : Clip) (hs : k.state = .ready) (hl : 2 ≤ k.loaded) : k.pastEnd 0 = false := by
  simp only [Clip.pastEnd, Clip.samples, hs]
  exact decide_eq_false (by omega)

/-- R39: readers of the announcement started in turn. -/
theorem Part.startReaders (xs : List (ReaderId × ClipId)) (hnd : (xs.map Prod.fst).Nodup) (p : Part)
    (hactive : p.active = true) (h : ∀ x ∈ xs, p.CanSpeak xs.length x) :
    ∃ w cs v, xs.foldl (fun q x => q.startReader x.1 x.2 0 .take) p = p.reading w cs v ∧
      (∀ x ∈ xs, (vget v x.1).primes x.2) ∧ ∀ o, o ∉ xs.map Prod.fst → vget v o = p.reader o := by
  induction xs generalizing p with
  | nil => exact ⟨p.mem.waiting, p.store.clips, p.bank.readers, rfl, fun x hx => absurd hx (by simp), fun _ _ => rfl⟩
  | cons x xs ih =>
    obtain ⟨hx, hnd⟩ := List.nodup_cons.1 hnd
    obtain ⟨howner, hnone, hstate, hloaded, hhold⟩ := h x (by simp)
    have hlength : (x :: xs).length = xs.length + 1 := rfl
    obtain ⟨w, page, out, hstart⟩ := Part.startReader_granted x.1 x.2 0 p hactive hnone
      ⟨.inr hstate, by omega⟩ ((p.clip x.2).pastEnd_first hstate hloaded)
    rw [howner] at hstart
    set y := Reader.started .announcement (p.clip x.2) x.2 0 page out with hy
    set q := Part.startReader x.1 x.2 0 .take p with hq
    have hreader : q.reader x.1 = y := by
      rw [hstart]
      exact p.reader_setReader x.1 y
    have hreaders : ∀ o, o ≠ x.1 → q.reader o = p.reader o := fun o ho => by
      rw [hstart]
      exact p.reader_setReader_ne y ho
    have hclip : ∀ c, q.clip c = if c = x.2 then (p.clip x.2).held else p.clip c := fun c => by
      rw [hstart]
      exact p.clip_setClip x.2 c _
    have hmore : ∀ z ∈ xs, q.CanSpeak xs.length z := by
      intro z hz
      obtain ⟨howner, hnone, hstate, hloaded, hhold⟩ := h z (List.mem_cons_of_mem x hz)
      have hne : z.1 ≠ x.1 := fun he => hx (he ▸ List.mem_map_of_mem hz)
      unfold Part.CanSpeak
      rw [hreaders z.1 hne, hclip]
      refine ⟨howner, hnone, ?_⟩
      by_cases hc : z.2 = x.2
      · rw [if_pos hc, ← hc]
        exact ⟨hstate, hloaded, by change (p.clip z.2).hold + 1 + xs.length ≤ 15; omega⟩
      · rw [if_neg hc]
        exact ⟨hstate, hloaded, by omega⟩
    have hqactive : q.active = true := by
      rw [hstart]
      exact hactive
    obtain ⟨w', cs, v, hrest, hprimes, hstand⟩ := ih hnd q hqactive hmore
    refine ⟨w', cs, v, ?_, fun z hz => ?_, fun o ho => ?_⟩
    · rw [List.foldl_cons, ← hq, hrest, hstart]
      rfl
    · rcases List.mem_cons.1 hz with rfl | hz
      · rw [hstand _ hx, hreader]
        exact ⟨rfl, rfl, rfl, rfl⟩
      · exact hprimes z hz
    · obtain ⟨hne, ho⟩ := not_or.1 (mt List.mem_cons.2 ho)
      rw [hstand o ho, hreaders o hne]

/-- R88, R89: a repetition starts. -/
theorem Part.startRepetition_starts (p : Part) (r : Playing) (hr : p.ann.playing = some r)
    (hactive : p.active = true) (hidle : p.speechReadersIdle) (hready : p.clipsReady (p.annSet r.entry.set)) :
    ∃ w cs v, p.startRepetition =
        (p.setPlaying (some { r with channels := p.enabledLangs, paSpeaking := true })).reading w cs v ∧
      p.startRepetition.speaksFor (p.annSet r.entry.set) p ∧ vget v 13 = p.reader 13 ∧
      ∀ l, (p.language l).enabled = false → vget v (chan l) = p.reader (chan l) := by
  set s := p.annSet r.entry.set with hs
  let channel := fun l : Lang => (chan l, p.spokenClip s l)
  let xs : List (ReaderId × ClipId) := p.enabledLangs.map channel ++ [(12, p.spokenPaClip s)]
  let q := p.setPlaying (some { r with channels := p.enabledLangs, paSpeaking := true })
  have hstart : p.startRepetition = xs.foldl (fun q x => q.startReader x.1 x.2 0 .take) q := by
    unfold Part.startRepetition
    simp only [hr, ← hs, s.chooseClip_eq, Part.choosePaClip_eq]
    change _ = List.foldl _ q (p.enabledLangs.map channel ++ [(12, p.spokenPaClip s)])
    rw [List.foldl_append, List.foldl_map]
    rfl
  have hreaders : xs.map Prod.fst = p.enabledLangs.map chan ++ [12] := by
    simp [xs, channel, Function.comp_def]
  have henabled : p.enabledLangs.Nodup := (List.nodup_finRange 12).filter _
  have hlength : xs.length ≤ 13 := by
    have : p.enabledLangs.length ≤ 12 := by
      have := List.length_filter_le (fun l => (p.language l).enabled) (List.finRange 12)
      rwa [List.length_finRange] at this
    simp only [xs, List.length_append, List.length_map, List.length_singleton]
    omega
  have hspeak : ∀ o c, o.val ≤ 12 → c ∈ s.namedClips → q.CanSpeak xs.length (o, c) := fun o c ho hc => by
    obtain ⟨hstate, hloaded, hhold⟩ := hready c hc
    exact ⟨(hidle o ho).1, (hidle o ho).2, hstate, hloaded, by
      change (p.clip c).hold + xs.length ≤ 15
      omega⟩
  obtain ⟨w, cs, v, hfold, hprimes, hstand⟩ := Part.startReaders xs (by
    rw [hreaders]
    refine List.nodup_append.2 ⟨henabled.map fun _ _ h => chan_inj h, by simp, fun a ha b hb => ?_⟩
    obtain ⟨l, _, rfl⟩ := List.mem_map.1 ha
    rw [List.mem_singleton.1 hb]
    exact chan_ne_pa l) q hactive fun x hx => by
      rcases List.mem_append.1 hx with hx | hx
      · obtain ⟨l, _, rfl⟩ := List.mem_map.1 hx
        exact hspeak (chan l) _ (Nat.le_of_lt l.isLt) (Part.spokenClip_mem s l p)
      · rw [List.mem_singleton.1 hx]
        exact hspeak 12 _ (Nat.le_refl 12) (Part.spokenPaClip_mem s p)
  have hstart := hstart.trans hfold
  refine ⟨w, cs, v, hstart, ⟨fun l hl => ?_, ?_⟩, hstand 13 ?_, fun l hl => hstand (chan l) ?_⟩
  · rw [hstart]
    exact hprimes (channel l) (List.mem_append_left _ (List.mem_map_of_mem (List.mem_filter.2 ⟨List.mem_finRange l, hl⟩)))
  · rw [hstart]
    exact hprimes (12, p.spokenPaClip s) (List.mem_append_right _ (List.mem_singleton.2 rfl))
  · rw [hreaders]
    intro hm
    rcases List.mem_append.1 hm with hm | hm
    · obtain ⟨l, _, hl⟩ := List.mem_map.1 hm
      exact chan_ne_chime l hl
    · exact absurd (List.mem_singleton.1 hm) (by decide)
  · rw [hreaders]
    intro hm
    rcases List.mem_append.1 hm with hm | hm
    · obtain ⟨m, hm, he⟩ := List.mem_map.1 hm
      rw [chan_inj he] at hm
      exact absurd (List.mem_filter.1 hm).2 (by rw [hl]; exact Bool.false_ne_true)
    · exact chan_ne_pa l (List.mem_singleton.1 hm)

end Sys2Proof.Machine
end

section
/-! The start of an announcement (R86 to R88, R97, R98). -/

namespace Sys2Proof.Machine

/-! ### What a suspended stream keeps -/

theorem Language.suspended_rest (x : Language) : x.suspended = { x with
    stream := if x.stream = .playing then .suspended else x.stream
    current := x.suspended.current, waiting := x.suspended.waiting } := by
  unfold Language.suspended
  by_cases hs : x.stream = .playing
  · simp only [if_pos hs]
    rcases Option.eq_none_or_eq_some x.resume with hr | ⟨d, hr⟩
    · rcases Option.eq_none_or_eq_some x.current with hc | ⟨e, hc⟩
      · simp only [hr, hc]
      · simp only [hr, hc]
        split <;> simp
    · simp only [hr]
  · simp only [if_neg hs]

theorem Language.suspended_stream (x : Language) :
    x.suspended.stream = if x.stream = .playing then .suspended else x.stream := by rw [x.suspended_rest]

theorem Language.suspended_resume (x : Language) : x.suspended.resume = x.resume := by rw [x.suspended_rest]

theorem Language.suspended_enabled (x : Language) : x.suspended.enabled = x.enabled := by rw [x.suspended_rest]

theorem Language.suspended_fallback (x : Language) : x.suspended.fallback = x.fallback := by
  rw [x.suspended_rest]

theorem Part.handedOver_rest (p : Part) (l : Lang) :
    p.handedOver l = { p.language l with resume := (p.handedOver l).resume } := by
  unfold Part.handedOver
  split <;> rfl

theorem Part.handedOver_none (p : Part) (l : Lang) (h : (p.reader (chan l)).clip = none) :
    p.handedOver l = p.language l := by
  simp only [Part.handedOver, h]

theorem Part.handedOver_some (p : Part) (l : Lang) (d : ClipId) (h : (p.reader (chan l)).clip = some d) :
    (p.handedOver l).resume = some ⟨d, markAtOrBelow (p.clip d).marks (p.reader (chan l)).position⟩ := by
  simp only [Part.handedOver, h]

theorem Part.handedReader_idle (p : Part) (l : Lang) :
    (p.handedReader l).owner = .announcement ∧ (p.handedReader l).clip = none := by
  unfold Part.handedReader
  split
  · rename_i h
    exact ⟨rfl, h⟩
  · exact ⟨rfl, rfl⟩

/-! ### What a start needs of the part -/

theorem Part.active_of {p q : Part} (hs : q.mem.state = p.mem.state) (ho : q.mem.origin = p.mem.origin)
    (hl : p.link.Noted q.link) : q.active = p.active := by
  have hentering : q.link.entering = p.link.entering := by rw [hl.rest]
  unfold Part.active Part.state
  rw [hs, ho, hentering]

/-- Two parts speak the same of a set in every language. -/
def Part.SpeaksAlike (p q : Part) : Prop :=
  (∀ l, (q.language l).enabled = (p.language l).enabled ∧ (q.language l).fallback = (p.language l).fallback) ∧
    q.lang.pa = p.lang.pa ∧ q.lang.default = p.lang.default

theorem Part.SpeaksAlike.clip {p q : Part} (h : p.SpeaksAlike q) (s : AnnSet) (l : Lang) :
    q.spokenClip s l = p.spokenClip s l := by
  unfold Part.spokenClip
  rw [(h.1 l).2]

theorem Part.SpeaksAlike.enabledLangs {p q : Part} (h : p.SpeaksAlike q) : q.enabledLangs = p.enabledLangs :=
  List.filter_congr fun l _ => (h.1 l).1

theorem Part.SpeaksAlike.speaks {p q t : Part} (h : p.SpeaksAlike q) {s : AnnSet} (hs : t.speaksFor s q) :
    t.speaksFor s p := by
  refine ⟨fun l hl => ?_, ?_⟩
  · rw [← h.clip s l]
    exact hs.1 l ((h.1 l).1.trans hl)
  · have hpa : q.spokenPaClip s = p.spokenPaClip s := by
      unfold Part.spokenPaClip
      rw [h.2.1, h.2.2, h.clip]
    rw [← hpa]
    exact hs.2

/-! ### The start of the head entry (R86) -/

/-- R86: the part once the announcement in TAIL, if any, has ended for the head entry. -/
def Part.tailClosed (p : Part) : Part :=
  match p.ann.playing with
  | some r => p.closeTail r
  | none => p

/-- R86: the part once the entry stands in the Playing Record, its start is told and the readers are taken. -/
def Part.headTaken (p : Part) (e : QEntry) (rest : List QEntry) (phase : Phase) : Part :=
  Part.takeReaders { p with
    ann := { p.ann with
      queue := rest, playing := some ⟨e, phase, 1, [], false, decide (phase = .chime), none⟩ }
    link := p.link.noted (.announce e.set .started none) p.time }

/-- R97, R98: the part once the Level Unit, the Lighting Controller and DECK-ALERT follow the start. -/
def Part.startTold (p : Part) (s : AnnSet) : Part :=
  (match s.lightCue with
    | some n => p.tellPlaying.beginCue n
    | none => p.tellPlaying).judgeAlert

theorem Part.startHead_chime (e : QEntry) (rest : List QEntry) (p : Part) (c : ClipId)
    (hc : (p.annSet e.set).chimeClip = some c) : p.startHead e rest =
      (((p.tailClosed.headTaken e rest .chime).setRouting true).startReader 13 c 0 .take).startTold
        (p.annSet e.set) := by
  unfold Part.startHead Part.headTaken Part.tailClosed Part.startTold
  simp only [hc, Option.isSome_some, if_true, Part.annNotice_started]
  rfl

theorem Part.startHead_speech (e : QEntry) (rest : List QEntry) (p : Part)
    (hc : (p.annSet e.set).chimeClip = none) : p.startHead e rest =
      (p.tailClosed.headTaken e rest .speech).startRepetition.startTold (p.annSet e.set) := by
  unfold Part.startHead Part.headTaken Part.tailClosed Part.startTold
  simp only [hc, Option.isSome_none, Part.annNotice_started]
  rfl

theorem Part.startTold_only (p : Part) (s : AnnSet) (r : Playing) (hr : p.ann.playing = some r) :
    ∃ code seats light, p.startTold s = { p with
      level := { p.level with
        cls := some r.entry.cls, phase := some r.phase
        lift := liftIn (p.annSet r.entry.set) r.phase, paCode := code }
      seats := seats, light := light
      ann := { p.ann with deckAlert := p.ann.safetyPlaying || p.ann.safetyFault } } ∧
      light.activeCue = (match s.lightCue with
        | some n => some (n, p.time)
        | none => p.light.activeCue) := by
  obtain ⟨code, seats, htold⟩ := p.tellPlaying_some r hr
  unfold Part.startTold
  rw [htold]
  rcases Option.eq_none_or_eq_some s.lightCue with hc | ⟨n, hc⟩
  · simp only [hc]
    exact ⟨code, seats, p.light, rfl, rfl⟩
  · simp only [hc]
    exact ⟨code, seats, p.light.beginCue p.time n, rfl, rfl⟩

/-- R86: the chime starts: `t` is the part that has taken the readers. -/
theorem Part.startHead_chimes (e : QEntry) (rest : List QEntry) (p t : Part) (c : ClipId)
    (hc : (p.annSet e.set).chimeClip = some c) (ht : p.tailClosed.headTaken e rest .chime = t)
    (hplaying : t.ann.playing = some ⟨e, .chime, 1, [], false, true, none⟩)
    (hsets : t.annSet e.set = p.annSet e.set) (hactive : t.active = true) (hnone : (t.reader 13).clip = none)
    (hgrant : (t.clip c).Grants) (hend : (t.clip c).pastEnd 0 = false) :
    ∃ w page out code seats light, p.startHead e rest = { t.setClip c (t.clip c).held with
      mem := { t.mem with waiting := w }
      bank := { t.bank with
        chimeRouting := true
        readers := vset t.bank.readers 13 (.started (t.reader 13).owner (t.clip c) c 0 page out) }
      level := { t.level with
        cls := some e.cls, phase := some .chime, lift := (p.annSet e.set).lift, paCode := code }
      seats := seats, light := light
      ann := { t.ann with deckAlert := decide (e.cls = .safety) || t.ann.safetyFault } } ∧
      light.activeCue = (match (p.annSet e.set).lightCue with
        | some n => some (n, t.time)
        | none => t.light.activeCue) := by
  obtain ⟨w, page, out, hstart⟩ := Part.startReader_granted 13 c 0 (t.setRouting true) hactive hnone hgrant hend
  let u : Part := { t.setClip c (t.clip c).held with
    mem := { t.mem with waiting := w }
    bank := { t.bank with
      chimeRouting := true
      readers := vset t.bank.readers 13 (.started (t.reader 13).owner (t.clip c) c 0 page out) } }
  have hhead : p.startHead e rest = u.startTold (p.annSet e.set) := by
    rw [p.startHead_chime e rest c hc, ht, hstart]
    rfl
  obtain ⟨code, seats, light, htold, hcue⟩ := u.startTold_only (p.annSet e.set) _ hplaying
  refine ⟨w, page, out, code, seats, light, (hhead.trans htold).trans ?_, hcue⟩
  have halert : t.ann.safetyPlaying = decide (e.cls = .safety) := by
    simp only [Announcer.safetyPlaying, hplaying]
  rw [← halert, ← hsets]
  rfl

/-- R49, R73, R86: the part `t` that has taken the readers for the head entry from the Commentary Scheduler. -/
structure Part.Taken (p t : Part) (e : QEntry) (rest : List QEntry) (phase : Phase) : Prop where
  time : t.time = p.time
  store : t.store = p.store
  strings : t.strings = p.strings
  level : t.level = p.level
  supply : t.supply = p.supply
  light : t.light = p.light
  ann : t.ann = { p.ann with
    queue := rest, playing := some ⟨e, phase, 1, [], false, decide (phase = .chime), none⟩ }
  bank : t.bank = { p.bank with readers := t.bank.readers }
  lang : t.lang = { p.lang with langs := t.lang.langs, hold := true }
  reader : ∀ l, t.reader (chan l) = p.handedReader l
  pa : t.reader 12 = { p.reader 12 with owner := .announcement }
  chime : t.reader 13 = { p.reader 13 with owner := .announcement }
  language : ∀ l, t.language l = (p.handedOver l).suspended
  active : t.active = p.active

theorem Part.headTaken_taken (p : Part) (e : QEntry) (rest : List QEntry) (phase : Phase)
    (h : ∀ l, (p.reader (chan l)).owner = .commentary) : p.Taken (p.headTaken e rest phase) e rest phase := by
  unfold Part.headTaken
  set q : Part := { p with
    ann := { p.ann with
      queue := rest, playing := some ⟨e, phase, 1, [], false, decide (phase = .chime), none⟩ }
    link := p.link.noted (.announce e.set .started none) p.time } with hq
  obtain ⟨w, d, v, langs, k, htake, hk, hturn, hpa, hchime⟩ := q.takeReaders_spec (by
    rw [show (q.reader 0).owner = .commentary from h 0]
    simp)
  have hactive : q.takeReaders.active = p.active := by
    refine Part.active_of ?_ ?_ ?_
    · rw [htake]
      rfl
    · rw [htake]
      rfl
    · rw [htake]
      exact (Link.noted_noted _ _ _).trans hk
  rw [htake] at hactive ⊢
  exact ⟨rfl, rfl, rfl, rfl, rfl, rfl, rfl, rfl, rfl, fun l => (hturn l).1, hpa, hchime, fun l => (hturn l).2,
    hactive⟩

theorem Part.Taken.alike {p t : Part} {e : QEntry} {rest : List QEntry} {phase : Phase}
    (h : p.Taken t e rest phase) : p.SpeaksAlike t := by
  refine ⟨fun l => ?_, ?_, ?_⟩
  · rw [h.language l, Language.suspended_enabled, Language.suspended_fallback, p.handedOver_rest l]
    exact ⟨rfl, rfl⟩
  · rw [h.lang]
  · rw [h.lang]

theorem Part.Taken.clip {p t : Part} {e : QEntry} {rest : List QEntry} {phase : Phase}
    (h : p.Taken t e rest phase) (c : ClipId) : t.clip c = p.clip c := by
  unfold Part.clip
  rw [h.store]

theorem Part.Taken.annSet {p t : Part} {e : QEntry} {rest : List QEntry} {phase : Phase}
    (h : p.Taken t e rest phase) (i : SetId) : t.annSet i = p.annSet i := by
  unfold Part.annSet
  rw [h.ann]

theorem Part.offerStart_idle (p : Part) {e : QEntry} {rest : List QEntry} (hqueue : p.ann.queue = e :: rest)
    (hactive : p.active = true) (hplaying : p.ann.playing = none) : p.offerStart = p.startHead e rest := by
  simp only [Part.offerStart, hqueue, hactive, hplaying, if_true]

theorem Part.tailClosed_none (p : Part) (h : p.ann.playing = none) : p.tailClosed = p := by
  simp only [Part.tailClosed, h]

end Sys2Proof.Machine
end

section
/-! The statement on the start of announcements (R86 to R88). -/

namespace Sys2Proof.Machine

/-- R87: the end of the chime. -/
theorem Part.announcementReport_chime (p : Part) (r : Playing) (hr : p.ann.playing = some r)
    (hphase : r.phase = .chime) : ∃ code seats, p.announcementReport 13 = Part.startRepetition { p with
      bank := { p.bank with chimeRouting := false }
      ann := { p.ann with playing := some { r with phase := .speech, chimeSpeaking := false } }
      level := { p.level with
        cls := some r.entry.cls, phase := some .speech, lift := (p.annSet r.entry.set).lift, paCode := code }
      seats := seats } := by
  obtain ⟨code, seats, htold⟩ := Part.tellPlaying_some ((p.setRouting false).setPlaying
    (some { r with phase := .speech, chimeSpeaking := false })) _ rfl
  refine ⟨code, seats, ?_⟩
  unfold Part.announcementReport
  simp only [hr, hphase, if_true]
  exact congrArg Part.startRepetition htold

/-- R82, R86: an ANNOUNCE while nothing plays and nothing waits. -/
theorem Part.takeAnnounce_starts {tag : Byte} {body : Bytes} {p : Part} {i : SetId} (hl : body.length = 1)
    (hb : b8 body 0 = i.val) (hdefined : (p.annSet i).defined = true) (hqueue : p.ann.queue = [])
    (hplaying : p.ann.playing = none) (hactive : p.active = true) :
    ∃ fields, p.takeAnnounce tag body =
      ((p.setQueue [p.newEntry i tag]).startHead (p.newEntry i tag) []).answer .announce tag .ok fields := by
  have hqueued : p.ann.queued i = false := by
    rw [Announcer.queued_eq, hqueue]
    simp
  have hplays : p.ann.plays i = false := by simp only [Announcer.plays, hplaying]
  have hplace := p.placeAnnouncement_room (p.newEntry i tag) (by rw [hqueue]; simp)
  have harrive : placeArrival (p.newEntry i tag) p.ann.queue = [p.newEntry i tag] := by
    rw [hqueue]
    unfold placeArrival
    split <;> rfl
  rw [harrive] at hplace
  have htaken := Part.takeAnnounce_placed hl hb hdefined hqueued hplays hplace
  have hoffer : (p.setQueue [p.newEntry i tag]).offerPlaced (p.newEntry i tag) =
      (p.setQueue [p.newEntry i tag]).startHead (p.newEntry i tag) [] := by
    have : (p.setQueue [p.newEntry i tag]).offerPlaced (p.newEntry i tag) =
        (p.setQueue [p.newEntry i tag]).offerStart := by
      unfold Part.offerPlaced
      simp only [show (p.setQueue [p.newEntry i tag]).ann.playing = none from hplaying]
    rw [this]
    exact Part.offerStart_idle _ rfl hactive hplaying
  rw [hoffer] at htaken
  exact ⟨_, htaken⟩

/-- Settles O37. -/
theorem announceStartsTheChime : Obligations.AnnounceStartsTheChime := by
  refine ⟨?_, fun p hactive => ⟨?_, ?_⟩⟩
  · intro s tag body i c hq hcan hl hb x k hdefined hchime hqueue hplaying hactive hstate hroom hend howners hnone
    have hexec : exec (.announce tag body) s =
      .next (s.onPart (Part.request .announce tag body (Part.takeAnnounce tag body))) := rfl
    set p : Part := { s.part with link := s.part.takenLink .announce tag body } with hp
    have hpactive : p.active = true := (Part.taken_active .announce tag body s.part).trans hactive
    obtain ⟨fields, htaken⟩ := Part.takeAnnounce_starts (p := p) (tag := tag) hl hb hdefined hqueue hplaying hpactive
    let q := p.setQueue [p.newEntry i tag]
    have htakes : q.Taken (q.headTaken (p.newEntry i tag) [] .chime) (p.newEntry i tag) [] .chime :=
      q.headTaken_taken _ _ _ howners
    have hclosed : q.tailClosed = q := q.tailClosed_none hplaying
    generalize ht : q.headTaken (p.newEntry i tag) [] .chime = t at htakes
    have hclip : t.clip c = k := htakes.clip c
    have hannSet := htakes.annSet i
    obtain ⟨w, page, out, code, seats, light, hhead, hcue⟩ := q.startHead_chimes (p.newEntry i tag) [] t c hchime
      (by rw [hclosed]; exact ht) (by rw [htakes.ann]; rfl) hannSet (htakes.active.trans hpactive)
      (by rw [htakes.chime]; exact hnone) (by rw [hclip]; exact ⟨hstate, hroom⟩) (by rw [hclip]; exact hend)
    rw [hhead] at htaken
    rw [s.onPart_request _ _ _ (Part.takeAnnounce tag body) _ hcan htaken (by
      change t.bank.reports = []
      rw [htakes.bank]
      exact hq)] at hexec
    have hreader : ∀ o, o ≠ 13 → vget (vset t.bank.readers 13
        (.started (t.reader 13).owner (t.clip c) c 0 page out)) o = t.reader o := fun o ho => vget_vset_ne _ _ ho
    refine ⟨_, hexec, rfl, rfl, ?_, ?_, ?_, ?_, ?_, rfl, ?_, ?_, fun d hd => ?_, ?_, fun l => ?_, ?_, fun l => ?_,
      rfl, rfl, rfl, ?_, htakes.time, htakes.strings, htakes.supply⟩
    · exact congrArg Announcer.playing htakes.ann
    · exact congrArg Announcer.queue htakes.ann
    · exact (congrArg Announcer.sets htakes.ann).trans rfl
    · exact (congrArg Announcer.last htakes.ann).trans rfl
    · exact (congrArg (fun a : Announcer => decide (x.cls = .safety) || a.safetyFault) htakes.ann).trans rfl
    · have hstarted := vget_vset_same t.bank.readers 13 (.started (t.reader 13).owner (t.clip c) c 0 page out)
      refine ⟨congrArg Reader.state hstarted, congrArg Reader.clip hstarted, congrArg Reader.position hstarted, ?_⟩
      refine (congrArg Reader.owner hstarted).trans ?_
      rw [htakes.chime]
      rfl
    · refine (congrArg Clip.hold (t.clip_setClip_same c (t.clip c).held)).trans ?_
      rw [hclip]
      rfl
    · exact ((t.clip_setClip c d _).trans (if_neg hd)).trans (htakes.clip d)
    · exact (congrArg Reader.owner ((hreader 12 (by decide)).trans htakes.pa)).trans rfl
    · exact (hreader (chan l) (chan_ne_chime l)).trans (htakes.reader l)
    · exact congrArg LangTable.hold htakes.lang
    · have hlang := htakes.language l
      intro y
      refine ⟨?_, fun d hd => ?_, fun hn => ?_⟩
      · refine (congrArg Language.stream hlang).trans ?_
        rw [Language.suspended_stream, q.handedOver_rest l]
        rfl
      · refine (congrArg Language.resume hlang).trans ?_
        rw [Language.suspended_resume]
        exact q.handedOver_some l d hd
      · refine (congrArg Language.resume hlang).trans ?_
        rw [Language.suspended_resume, q.handedOver_none l hn]
        rfl
    · rw [htakes.time, htakes.light] at hcue
      exact hcue
  · intro e rest hplaying hqueue x hchime hready howners hpa q
    have htakes : p.Taken (p.headTaken e rest .speech) e rest .speech := p.headTaken_taken _ _ _ howners
    have hq : q = (p.headTaken e rest .speech).startRepetition.startTold x := by
      change p.offerStart = _
      rw [p.offerStart_idle hqueue hactive hplaying, p.startHead_speech e rest hchime, p.tailClosed_none hplaying]
    generalize p.headTaken e rest .speech = t at htakes hq
    have hidle : t.speechReadersIdle := fun o ho => by
      rcases Nat.lt_or_eq_of_le ho with hlt | heq
      · have hread := htakes.reader ⟨o.val, hlt⟩
        rw [show chan ⟨o.val, hlt⟩ = o from rfl] at hread
        rw [hread]
        exact p.handedReader_idle _
      · rw [show o = 12 from Fin.ext heq, htakes.pa]
        exact ⟨rfl, hpa⟩
    have hann : t.ann.playing = some ⟨e, .speech, 1, [], false, false, none⟩ := by
      rw [htakes.ann]
      rfl
    have hready' : t.clipsReady (t.annSet e.set) := fun c hc => by
      rw [htakes.annSet] at hc
      rw [htakes.clip]
      exact hready c hc
    obtain ⟨w, cs, v, hstart, hspeaks, _, _⟩ :=
      t.startRepetition_starts _ hann (htakes.active.trans hactive) hidle hready'
    rw [htakes.annSet] at hspeaks
    have hspeaks := htakes.alike.speaks hspeaks
    rw [htakes.alike.enabledLangs] at hstart
    have hplays : t.startRepetition.ann.playing =
        some ⟨e, .speech, 1, p.enabledLangs, true, false, none⟩ := by
      rw [hstart]
      rfl
    obtain ⟨code, seats, light, htold, _⟩ := t.startRepetition.startTold_only x _ hplays
    have hset : t.startRepetition.annSet e.set = x := by
      rw [hstart]
      exact htakes.annSet e.set
    rw [htold] at hq
    rw [hq]
    refine ⟨hplays, ?_, hspeaks, ?_, ⟨rfl, rfl, congrArg AnnSet.lift hset⟩, ?_⟩
    · change t.startRepetition.ann.queue = rest
      rw [hstart]
      exact congrArg Announcer.queue htakes.ann
    · change t.startRepetition.bank.chimeRouting = _
      rw [hstart]
      exact (congrArg Bank.chimeRouting htakes.bank).trans rfl
    · change t.startRepetition.lang.hold = true
      rw [hstart]
      exact congrArg LangTable.hold htakes.lang
  · intro r hr hphase x hidle hready q
    obtain ⟨code, seats, hreport⟩ := p.announcementReport_chime r hr hphase
    have hq : q = _ := hreport
    obtain ⟨w, cs, v, hstart, hspeaks, _, _⟩ := Part.startRepetition_starts { p with
      bank := { p.bank with chimeRouting := false }
      ann := { p.ann with playing := some { r with phase := .speech, chimeSpeaking := false } }
      level := { p.level with
        cls := some r.entry.cls, phase := some .speech, lift := (p.annSet r.entry.set).lift, paCode := code }
      seats := seats } _ rfl hactive hidle hready
    rw [hq]
    refine ⟨?_, hspeaks, ?_, ?_, ?_, ?_, ?_⟩
    all_goals rw [hstart]
    · rfl
    · rfl
    · exact ⟨rfl, rfl, rfl⟩
    · rfl
    · rfl
    · rfl

end Sys2Proof.Machine
end

section
/-! An announcement that is cut: its readers stopped and its entry put back (R50, R93, R94). -/

namespace Sys2Proof.Machine

/-! ### Readers stopped with release (R47, R50) -/

/-- R32: of the clips that are not RETIRING, nothing but hold counts has fallen. -/
def Part.ClipsLowered (p q : Part) : Prop :=
  ∀ c, (p.clip c).state ≠ .retiring → ∃ n ≤ (p.clip c).hold, q.clip c = { p.clip c with hold := n }

theorem Part.ClipsLowered.refl (p : Part) : p.ClipsLowered p := fun _ _ => ⟨_, Nat.le_refl _, rfl⟩

theorem Part.ClipsLowered.trans {p q r : Part} (h : p.ClipsLowered q) (g : q.ClipsLowered r) :
    p.ClipsLowered r := fun c hc => by
  obtain ⟨n, hn, hq⟩ := h c hc
  obtain ⟨m, hm, hr⟩ := g c (by rw [hq]; exact hc)
  rw [hq] at hm hr
  exact ⟨m, Nat.le_trans hm hn, hr⟩

theorem Part.releaseHold_lowered (p : Part) (c : ClipId) : p.ClipsLowered (p.releaseHold c) := fun d hd => by
  obtain ⟨hkept, _, hothers⟩ := p.releaseHold_clip c
  by_cases hdc : d = c
  · subst hdc
    rw [hkept (.inl hd)]
    exact ⟨_, Nat.sub_le _ 1, Part.clip_setClip_same _ _ _⟩
  · exact ⟨_, Nat.le_refl _, hothers d hdc⟩

/-- No reader holds a RETIRING clip. -/
def Part.NoneRetiring (p : Part) : Prop :=
  ∀ o d, (p.reader o).clip = some d → (p.clip d).state ≠ .retiring

/-- R47: what STOP with release leaves of the readers, the clips and the link. -/
theorem Part.stopRelease_spec (p : Part) (r : ReaderId) :
    ((p.stopRelease r).reader r =
        if (p.reader r).clip = none then p.reader r else Reader.idle (p.reader r).owner) ∧
      (∀ o, o ≠ r → (p.stopRelease r).reader o = p.reader o) ∧ p.ClipsLowered (p.stopRelease r) ∧
      (p.NoneRetiring → (p.stopRelease r).link = p.link) := by
  obtain ⟨hothers, hstop, hsame⟩ := p.stopRelease_reader r
  rcases Option.eq_none_or_eq_some (p.reader r).clip with hc | ⟨c, hc⟩
  · rw [hsame hc, if_pos hc]
    exact ⟨rfl, fun _ _ => rfl, .refl p, fun _ => rfl⟩
  · obtain ⟨hreader, hclips⟩ := hstop c hc
    rw [if_neg (by simp [hc])]
    refine ⟨hreader, hothers, fun d hd => ?_, fun h => ?_⟩
    · rw [hclips d]
      exact p.releaseHold_lowered c d hd
    · have hrelease : p.stopRelease r = (p.clearReader r).releaseHold c := by
        simp only [Part.stopRelease, hc]
      rw [hrelease, ((p.clearReader r).releaseHold_clip c).1 (.inl (h r c hc))]
      rfl

/-- What stopping readers of the announcement leaves; `rs` are those that have been stopped. -/
structure Part.Stopped (p q : Part) (rs : List ReaderId) : Prop where
  only : p.ReadersOnly q
  done : ∀ o ∈ rs, q.reader o = if (p.reader o).clip = none then p.reader o else Reader.idle .announcement
  rest : ∀ o, o ∉ rs → q.reader o = p.reader o
  clips : p.ClipsLowered q
  reports : q.bank.reports = p.bank.reports
  link : p.NoneRetiring → q.link = p.link

theorem Part.stopReaders (rs : List ReaderId) (hnd : rs.Nodup) (p : Part)
    (h : ∀ o, (p.reader o).owner = .announcement) :
    p.Stopped (rs.foldl (fun q r => if (q.reader r).owner = .announcement then q.stopRelease r else q) p) rs := by
  induction rs generalizing p with
  | nil =>
    exact ⟨.refl p, fun o ho => absurd ho (by simp), fun _ _ => rfl, .refl p, rfl, fun _ => rfl⟩
  | cons r rs ih =>
    obtain ⟨hr, hnd⟩ := List.nodup_cons.1 hnd
    obtain ⟨hreader, hothers, hclips, hlink⟩ := p.stopRelease_spec r
    have hfirst := p.readersOnly_stopRelease r
    have hreports := p.stopRelease_reports r
    rw [List.foldl_cons, if_pos (h r)]
    generalize p.stopRelease r = q at *
    have howners : ∀ o, (q.reader o).owner = .announcement := fun o => (hfirst.owners o).trans (h o)
    have hall := ih hnd q howners
    generalize List.foldl _ q rs = t at hall
    refine ⟨hfirst.trans hall.only, fun o ho => ?_, fun o ho => ?_, hclips.trans hall.clips,
      hall.reports.trans hreports, fun hn => ?_⟩
    · rcases List.mem_cons.1 ho with rfl | ho
      · rw [hall.rest _ hr, hreader, h]
      · rw [hall.done o ho, hothers o fun he => hr (he ▸ ho)]
    · obtain ⟨hne, ho⟩ := not_or.1 (mt List.mem_cons.2 ho)
      rw [hall.rest o ho, hothers o hne]
    · refine (hall.link fun o d hd => ?_).trans (hlink hn)
      have hpd : (p.reader o).clip = some d := by
        by_cases ho : o = r
        · rw [ho, hreader] at hd
          rw [ho]
          split at hd
          · exact hd
          · exact absurd hd (by simp [Reader.idle])
        · rw [← hothers o ho]
          exact hd
      obtain ⟨n, _, hclip⟩ := hclips d (hn o d hpd)
      rw [hclip]
      exact hn o d hpd

/-- R50: the announcement's readers are stopped. -/
theorem Part.stopAnnouncementReaders_stopped (p : Part) (h : ∀ o, (p.reader o).owner = .announcement) :
    p.Stopped p.stopAnnouncementReaders (List.finRange 14) :=
  p.stopReaders (List.finRange 14) (List.nodup_finRange 14) h

/-! ### Notices told one after another -/

/-- R182: several notices. -/
def Link.told (k : Link) (now : PartTime) (ns : List Notice) : Link := ns.foldl (fun k n => k.noted n now) k

theorem Link.told_append (k : Link) (now : PartTime) (ms ns : List Notice) :
    k.told now (ms ++ ns) = (k.told now ms).told now ns := List.foldl_append

theorem Link.noted_told (k : Link) (now : PartTime) (ns : List Notice) : k.Noted (k.told now ns) :=
  foldl_keeps (I := fun l => k.Noted l) (fun n l => l.noted n now) ns k
    (fun n _ l h => h.trans (Link.noted_noted l n now)) (.refl k)

/-! ### The reinsertion (R94) -/

/-- R94: the entry that is put back has reached its deadline. -/
def QEntry.Expired (x : QEntry) (now : PartTime) : Prop := ∃ d, x.deadline = some d ∧ atOrAfter now d = true

theorem behindSafety_one (x e : QEntry) (q : List QEntry) (he : e.cls = .safety)
    (hq : ∀ y ∈ q, y.cls ≠ .safety) : behindSafety x (e :: q) = e :: x :: q := by
  have hgroup : q.takeWhile (fun y => decide (y.cls = .safety)) = [] ∧
      q.dropWhile (fun y => decide (y.cls = .safety)) = q := by
    cases q with
    | nil => exact ⟨rfl, rfl⟩
    | cons y q => simp [hq y (by simp)]
  unfold behindSafety
  rw [List.takeWhile_cons_of_pos (by simpa using he), List.dropWhile_cons_of_pos (by simpa using he), hgroup.1, hgroup.2]
  rfl

theorem dropNewest_mem {test : QEntry → Bool} {q rest : List QEntry} {x : QEntry}
    (h : dropNewest test q = some (x, rest)) : ∀ y ∈ rest, y ∈ q := by
  induction q generalizing rest with
  | nil => exact absurd h (by simp [dropNewest])
  | cons e q ih =>
    unfold dropNewest at h
    rcases Option.eq_none_or_eq_some (dropNewest test q) with hd | ⟨⟨z, r⟩, hd⟩
    · simp only [hd] at h
      split at h
      · obtain ⟨_, rfl⟩ := Prod.mk.inj (Option.some.inj h)
        exact fun y hy => List.mem_cons_of_mem e hy
      · exact absurd h (by simp)
    · simp only [hd] at h
      obtain ⟨rfl, rfl⟩ := Prod.mk.inj (Option.some.inj h)
      intro y hy
      rcases List.mem_cons.1 hy with rfl | hy
      · exact List.mem_cons_self
      · exact List.mem_cons_of_mem e (ih hd y hy)

/-- What the reinsertion of an entry behind a SAFETY entry leaves: the queue behind that entry, the last ending
and the notices. -/
structure Reinserted (now : PartTime) (before : Option LastEnding) (x : QEntry) (arrived queue : List QEntry)
    (last : Option LastEnding) (dropped : List Notice) : Prop where
  expired : x.Expired now → queue = arrived ∧ last = some ⟨x.set, .dropped, some .expired, now⟩ ∧
    dropped = [.announce x.set .dropped (some .expired)]
  room : ¬ x.Expired now → arrived.length < 7 → queue = x :: arrived ∧ last = before ∧ dropped = []
  full : ¬ x.Expired now → arrived.length = 7 → (∀ y ∈ arrived, y.cls ≠ .service) → queue = arrived ∧
    last = some ⟨x.set, .dropped, some .displaced, now⟩ ∧
    dropped = [.announce x.set .dropped (some .displaced)]
  displaces : ∀ a y b, ¬ x.Expired now → arrived.length = 7 → arrived = a ++ y :: b → y.cls = .service →
    (∀ z ∈ b, z.cls ≠ .service) → queue = x :: (a ++ b) ∧
    last = some ⟨y.set, .dropped, some .displaced, now⟩ ∧
    dropped = [.announce y.set .dropped (some .displaced)]

/-- The part that the reinsertion leaves. -/
def Part.requeued (p : Part) (queue : List QEntry) (last : Option LastEnding) (dropped : List Notice) : Part :=
  { p with ann := { p.ann with queue := queue, last := last }, link := p.link.told p.time dropped }

theorem Part.reinsert_spec (x e : QEntry) (arrived : List QEntry) (p : Part) (hq : p.ann.queue = e :: arrived)
    (he : e.cls = .safety) (hns : ∀ y ∈ arrived, y.cls ≠ .safety) (hlen : arrived.length ≤ 7) :
    ∃ queue last dropped, p.reinsert x = p.requeued (e :: queue) last dropped ∧
      Reinserted p.time p.ann.last x arrived queue last dropped := by
  have hbehind := fun q hq => behindSafety_one x e q he hq
  have hsame : ∀ last link, ({ p with ann := { p.ann with last := last }, link := link } : Part) =
      { p with ann := { p.ann with queue := e :: arrived, last := last }, link := link } := by
    intro last link
    rw [← hq]
  by_cases hexp : x.Expired p.time
  · obtain ⟨d, hd, hafter⟩ := hexp
    refine ⟨arrived, _, _, ?_, fun _ => ⟨rfl, rfl, rfl⟩, fun h => absurd ⟨d, hd, hafter⟩ h,
      fun h => absurd ⟨d, hd, hafter⟩ h, fun _ _ _ h => absurd ⟨d, hd, hafter⟩ h⟩
    simp only [Part.reinsert, hd, hafter, if_true, Part.annNotice_dropped]
    exact hsame _ _
  · have hlive : (match x.deadline with
        | some d => atOrAfter p.time d
        | none => false) = false := by
      rcases Option.eq_none_or_eq_some x.deadline with hd | ⟨d, hd⟩
      · rw [hd]
      · rw [hd]
        exact Bool.eq_false_iff.2 fun h => hexp ⟨d, hd, h⟩
    have hreinsert : p.reinsert x = if p.ann.queue.length < 8 then p.setQueue (behindSafety x p.ann.queue)
        else match makeRoom .stop p.ann.queue with
          | some (y, rest) => (p.annNotice y.set .dropped (some .displaced)).setQueue (behindSafety x rest)
          | none => p.annNotice x.set .dropped (some .displaced) := by
      refine if_neg ?_
      rw [Bool.not_eq_true]
      exact hlive
    rw [hq] at hreinsert
    by_cases hroom : arrived.length < 7
    · refine ⟨x :: arrived, p.ann.last, [], ?_, fun h => absurd h hexp, fun _ _ => ⟨rfl, rfl, rfl⟩,
        fun _ h => absurd h (by omega), fun _ _ _ _ h => absurd h (by omega)⟩
      rw [hreinsert, if_pos (by rw [List.length_cons]; omega), hbehind arrived hns]
      rfl
    · rw [if_neg (by rw [List.length_cons]; omega)] at hreinsert
      have htest : decide (e.cls = .service) = false := by rw [he]; rfl
      rcases Option.eq_none_or_eq_some (dropNewest (fun e => decide (e.cls = .service)) arrived) with
        hd | ⟨⟨y, rest⟩, hd⟩
      · have hmake : makeRoom .stop (e :: arrived) = none := by
          simp only [makeRoom, dropNewest, hd, htest]
          rfl
        refine ⟨arrived, _, _, ?_, fun h => absurd h hexp, fun _ h => absurd h hroom,
          fun _ _ _ => ⟨rfl, rfl, rfl⟩, fun a y b _ _ hsplit hy hb => ?_⟩
        · rw [hreinsert, hmake]
          exact (Part.annNotice_dropped _ _ _).trans (hsame _ _)
        · rw [hsplit, dropNewest_last _ a b y (by simpa using hy) fun z hz => by simp [hb z hz]] at hd
          exact absurd hd (by simp)
      · have hmake : makeRoom .stop (e :: arrived) = some (y, e :: rest) := by
          simp only [makeRoom, dropNewest, hd]
        refine ⟨x :: rest, some ⟨y.set, .dropped, some .displaced, p.time⟩,
          [.announce y.set .dropped (some .displaced)], ?_, fun h => absurd h hexp, fun _ h => absurd h hroom,
          fun _ _ hnone => ?_, fun a z b _ _ hsplit hz hb => ?_⟩
        · rw [hreinsert, hmake]
          simp only
          rw [hbehind rest fun z hz => hns z (dropNewest_mem hd z hz), Part.annNotice_dropped]
          rfl
        · rw [dropNewest_none _ arrived fun z hz => by simp [hnone z hz]] at hd
          exact absurd hd (by simp)
        · rw [hsplit, dropNewest_last _ a b z (by simpa using hz) fun w hw => by simp [hb w hw]] at hd
          obtain ⟨rfl, rfl⟩ := Prod.mk.inj (Option.some.inj hd)
          exact ⟨rfl, rfl, rfl⟩

end Sys2Proof.Machine
end

section
/-! SAFETY announcements that cut another, and that cut a tail short (R82, R83, R92 to R94). -/

namespace Sys2Proof.Machine

theorem behindSafety_none (e : QEntry) (q : List QEntry) (h : ∀ y ∈ q, y.cls ≠ .safety) :
    behindSafety e q = e :: q := by
  cases q with
  | nil => rfl
  | cons y q =>
    simp [behindSafety, h y (by simp)]

/-- R83: the entry that a full queue gives up for an arriving SAFETY entry, no other one being queued. -/
def madeRoom (q : List QEntry) : Option QEntry := (q.drop 7).head?

/-- R82, R83: a SAFETY entry stands at the head of a queue without another one. -/
theorem Part.placeAnnouncement_safety (e : QEntry) (p : Part) (he : e.cls = .safety)
    (hns : ∀ y ∈ p.ann.queue, y.cls ≠ .safety) (hlen : p.ann.queue.length ≤ 8) :
    ∃ last, p.placeAnnouncement e = some (p.requeued (e :: p.ann.queue.take 7) last
      ((madeRoom p.ann.queue).toList.map fun g => .announce g.set .dropped (some .displaced)),
      (madeRoom p.ann.queue).map fun g => g.set) := by
  by_cases hroom : p.ann.queue.length < 8
  · refine ⟨p.ann.last, (p.placeAnnouncement_room e hroom).trans ?_⟩
    have hmade : madeRoom p.ann.queue = none := by
      rw [madeRoom, List.drop_eq_nil_of_le (by omega)]
      rfl
    rw [hmade, placeArrival_safety e _ he, behindSafety_none e _ hns, List.take_of_length_le (by omega)]
    rfl
  · obtain ⟨x, hx⟩ := List.length_eq_one_iff.1 (show (p.ann.queue.drop 7).length = 1 by
      rw [List.length_drop]
      omega)
    have hsplit : p.ann.queue = p.ann.queue.take 7 ++ [x] := by
      rw [← hx, List.take_append_drop]
    have hmade : madeRoom p.ann.queue = some x := by
      rw [madeRoom, hx]
      rfl
    have hmem : x ∈ p.ann.queue := by
      rw [hsplit]
      simp
    have hmake : makeRoom e.cls p.ann.queue = some (x, p.ann.queue.take 7) := by
      have := dropNewest_last (fun y => decide (y.cls ≠ .safety)) (p.ann.queue.take 7) [] x
        (by simpa using hns x hmem) fun y hy => absurd hy (by simp)
      rw [← hsplit, List.append_nil] at this
      rw [he]
      exact this
    refine ⟨some ⟨x.set, .dropped, some .displaced, p.time⟩,
      (p.placeAnnouncement_displaced e x _ (by omega) hmake).trans ?_⟩
    rw [hmade, placeArrival_safety e _ he, Part.annNotice_dropped,
      behindSafety_none e _ fun y hy => hns y (List.mem_of_mem_take hy)]
    rfl

/-- R93 steps 1 and 2: the part once the announcement in progress is silent and told as cut; `s` has its readers
stopped. -/
def Part.cutShort (s : Part) (r : Playing) (light : Light) : Part :=
  { s with
    bank := { s.bank with chimeRouting := false }
    ann := { s.ann with last := some ⟨r.entry.set, .cut, none, s.time⟩, playing := none }
    light := light
    link := s.link.noted (.announce r.entry.set .cut none) s.time }

theorem Part.cutPlaying_eq (r : Playing) (p : Part) :
    p.cutPlaying r =
      (p.stopAnnouncementReaders.cutShort r (p.stopAnnouncementReaders.light.endCue p.stopAnnouncementReaders.time)).reinsert
        r.entry := by
  unfold Part.cutPlaying
  generalize p.stopAnnouncementReaders = s
  dsimp only
  rw [Part.annNotice_ends _ _ _ _ (by simp)]
  rfl

/-- R86, R93: the part `t` that starts the SAFETY entry at the head of the queue, the readers being owned already. -/
theorem Part.headTaken_owned (p : Part) (e : QEntry) (rest : List QEntry) (phase : Phase)
    (h : ∀ o, (p.reader o).owner = .announcement) : p.headTaken e rest phase = { p with
      ann := { p.ann with
        queue := rest, playing := some ⟨e, phase, 1, [], false, decide (phase = .chime), none⟩ }
      link := p.link.noted (.announce e.set .started none) p.time } :=
  Part.takeReaders_owned _ h

/-- R82, R93: what an ANNOUNCE of a SAFETY set does that cuts the announcement in progress. -/
structure Part.CutsFor (p q : Part) (r : Playing) (e : QEntry) (c : ClipId) (queue : List QEntry)
    (last : Option LastEnding) (dropped : List Notice) : Prop where
  playing : q.ann.playing = some ⟨e, .chime, 1, [], false, true, none⟩
  queue : q.ann.queue = queue
  last : q.ann.last = last
  alert : q.ann.deckAlert = true
  routing : q.bank.chimeRouting = true
  reports : q.bank.reports = p.bank.reports
  chime : (q.reader 13).state = .priming ∧ (q.reader 13).clip = some c ∧ (q.reader 13).position = 0
  reader : ∀ o, o ≠ 13 → (p.reader o).clip ≠ none → q.reader o = Reader.idle .announcement
  lang : q.lang = p.lang
  strings : q.strings = p.strings
  supply : q.supply = p.supply
  time : q.time = p.time
  link : p.NoneRetiring → q.link = p.link.told p.time
    ([.announce r.entry.set .cut none] ++ dropped ++ [.announce e.set .started none])

theorem Part.offerPlaced_cuts (p : Part) (r : Playing) (e : QEntry) (arrived : List QEntry) (c : ClipId)
    (hplaying : p.ann.playing = some r) (hcut : r.cutBy e.cls = true) (hqueue : p.ann.queue = e :: arrived)
    (he : e.cls = .safety) (hns : ∀ y ∈ arrived, y.cls ≠ .safety) (hlen : arrived.length ≤ 7)
    (hchime : (p.annSet e.set).chimeClip = some c) (hactive : p.active = true)
    (hgrant : (p.clip c).Grants) (hend : (p.clip c).pastEnd 0 = false)
    (howners : ∀ o, (p.reader o).owner = .announcement) :
    ∃ queue last dropped, p.CutsFor (p.offerPlaced e) r e c queue last dropped ∧
      Reinserted p.time (some ⟨r.entry.set, .cut, none, p.time⟩) r.entry arrived queue last dropped := by
  have hstop := p.stopAnnouncementReaders_stopped howners
  have hoffer : p.offerPlaced e = (p.cutPlaying r).offerStart := by
    unfold Part.offerPlaced
    simp only [hplaying, hcut, if_true]
  rw [p.cutPlaying_eq r] at hoffer
  generalize p.stopAnnouncementReaders = s at hstop hoffer
  generalize s.light.endCue s.time = light at hoffer
  set u := s.cutShort r light with hu
  obtain ⟨queue, last, dropped, hre, hcases⟩ := u.reinsert_spec r.entry e arrived
    (by rw [← hqueue, ← hstop.only.ann]; rfl) he hns hlen
  rw [hre] at hoffer
  set v := u.requeued (e :: queue) last dropped with hv
  have hlink : p.link.Noted v.link :=
    (hstop.only.link.trans (Link.noted_noted s.link _ _)).trans (Link.noted_told u.link _ _)
  have hvactive : v.active = true := by
    refine (Part.active_of ?_ ?_ hlink).trans hactive
    · exact (congrArg MemCtl.state hstop.only.mem).trans rfl
    · exact (congrArg MemCtl.origin hstop.only.mem).trans rfl
  have hvannSet : v.annSet e.set = p.annSet e.set :=
    show vget s.ann.sets e.set = _ from congrArg (fun a : Announcer => vget a.sets e.set) hstop.only.ann
  have hvreader : ∀ o, v.reader o = if (p.reader o).clip = none then p.reader o else Reader.idle .announcement :=
    fun o => hstop.done o (List.mem_finRange o)
  have hvowners : ∀ o, (v.reader o).owner = .announcement := fun o => (hstop.only.owners o).trans (howners o)
  have hstart : v.offerStart = v.startHead e queue := v.offerStart_idle rfl hvactive rfl
  have htaken := v.headTaken_owned e queue .chime hvowners
  set t : Part := { v with
    ann := { v.ann with queue := queue, playing := some ⟨e, .chime, 1, [], false, true, none⟩ }
    link := v.link.noted (.announce e.set .started none) v.time } with ht
  have htactive : t.active = true := by
    refine (Part.active_of ?_ ?_ ?_).trans hvactive
    · rfl
    · rfl
    · exact Link.noted_noted _ _ _
  have hnone : (t.reader 13).clip = none := by
    change (v.reader 13).clip = none
    rw [hvreader]
    split
    · assumption
    · rfl
  obtain ⟨n, hn, hclip⟩ := hstop.clips c (by rcases hgrant.1 with h | h <;> simp [h])
  have htclip : t.clip c = { p.clip c with hold := n } := hclip
  obtain ⟨w, page, out, code, seats, light', hhead, _⟩ := v.startHead_chimes e queue t c (by rw [hvannSet]; exact hchime)
    (by rw [v.tailClosed_none rfl]; exact htaken) rfl rfl htactive hnone
    (by rw [htclip]; exact ⟨hgrant.1, Nat.lt_of_le_of_lt hn hgrant.2⟩) (by rw [htclip]; exact hend)
  have hresult := (hoffer.trans hstart).trans hhead
  have hstarted := vget_vset_same t.bank.readers 13 (.started (t.reader 13).owner (t.clip c) c 0 page out)
  have htime : s.time = p.time := hstop.only.time
  refine ⟨queue, last, dropped, ?_, ?_⟩
  · rw [hresult]
    refine ⟨rfl, rfl, rfl, ?_, rfl, ?_, ⟨congrArg Reader.state hstarted, congrArg Reader.clip hstarted,
      congrArg Reader.position hstarted⟩, fun o ho hc => ?_, hstop.only.lang, hstop.only.strings, hstop.only.supply,
      hstop.only.time, fun hn => ?_⟩
    · change (decide (e.cls = .safety) || _) = true
      rw [he]
      rfl
    · exact hstop.reports
    · exact (vget_vset_ne _ _ ho).trans ((hvreader o).trans (if_neg hc))
    · change ((s.link.noted (.announce r.entry.set .cut none) s.time).told s.time dropped).noted
        (.announce e.set .started none) s.time = _
      rw [hstop.link hn, htime, Link.told_append, Link.told_append]
      rfl
  · rw [← htime]
    exact hcases

/-- R167: no light cue is active once the cue has ended. -/
theorem Light.endCue_cue (k : Light) (now : PartTime) : (k.endCue now).activeCue = none := by
  unfold Light.endCue
  rcases Option.eq_none_or_eq_some k.activeCue with h | ⟨n, h⟩
  · simp only [h]
  · simp only [h]
    rfl

theorem Part.closeTail_cue (r : Playing) (p : Part) : (p.closeTail r).light.activeCue = none := by
  have hlight : (p.closeTail r).light = p.light.endCue p.time := by
    unfold Part.closeTail
    rw [Part.dropPaOwners_eq, Part.annNotice_ends _ _ _ _ (by simp)]
    rfl
  rw [hlight]
  exact p.light.endCue_cue p.time

theorem Part.offerStart_tail (p : Part) {r : Playing} {e : QEntry} {rest : List QEntry}
    (hqueue : p.ann.queue = e :: rest) (hactive : p.active = true) (hplaying : p.ann.playing = some r)
    (htail : r.phase = .tail) (he : e.cls = .safety) : p.offerStart = p.startHead e rest := by
  simp only [Part.offerStart, hqueue, hactive, hplaying, htail, he, if_true]
  rfl

theorem unowned_chan (readers : Vector Reader 14) (l : Lang) :
    vget (unowned readers) (chan l) = vget readers (chan l) := by
  unfold unowned
  rw [vget_vset_ne _ _ (chan_ne_chime l), vget_vset_ne _ _ (chan_ne_pa l)]

theorem unowned_chime (readers : Vector Reader 14) :
    vget (unowned readers) 13 = { vget readers 13 with owner := .none } := by
  unfold unowned
  rw [vget_vset_same, vget_vset_ne _ _ (by decide)]

theorem unowned_pa (readers : Vector Reader 14) :
    vget (unowned readers) 12 = { vget readers 12 with owner := .none } := by
  unfold unowned
  rw [vget_vset_ne _ _ (by decide), vget_vset_same]

/-- R92: a SAFETY entry at the head of the queue cuts a tail short. -/
theorem Part.offerStart_cutsTail (p : Part) (r : Playing) (e : QEntry) (rest : List QEntry) (c : ClipId)
    (hactive : p.active = true) (hplaying : p.ann.playing = some r) (htail : r.phase = .tail)
    (hqueue : p.ann.queue = e :: rest) (he : e.cls = .safety) (hchime : (p.annSet e.set).chimeClip = some c)
    (hgrant : (p.clip c).Grants) (hend : (p.clip c).pastEnd 0 = false)
    (howners : ∀ l, (p.reader (chan l)).owner = .commentary) (hnone : (p.reader 13).clip = none) :
    let x := p.annSet e.set
    let q := p.offerStart
    q.ann = { p.ann with
      queue := rest, playing := some ⟨e, .chime, 1, [], false, true, none⟩
      last := some ⟨r.entry.set, .done, none, p.time⟩, deckAlert := true } ∧
    (q.reader 13).primes c ∧ q.bank.chimeRouting = true ∧ q.level.told .safety .chime x.lift ∧
    q.lang.hold = true ∧
    (∀ l, (q.reader (chan l)).owner = .announcement ∧ (q.reader (chan l)).clip = none ∧
      ((p.language l).stream = .playing → (q.language l).stream = .suspended)) ∧
    q.light.activeCue = x.lightCue.map fun n => (n, p.time) := by
  intro x q
  have hq : q = p.startHead e rest := p.offerStart_tail hqueue hactive hplaying htail he
  have hclosed : p.tailClosed = p.closeTail r := by
    simp only [Part.tailClosed, hplaying]
  have hcue := p.closeTail_cue r
  obtain ⟨light, hclose⟩ := p.closeTail_only r
  rw [← hclosed] at hclose hcue
  set u := p.tailClosed with hu
  have hureader : ∀ o, u.reader o = vget (unowned p.bank.readers) o := fun o => by
    rw [hclose]
    rfl
  have huchan : ∀ l, u.reader (chan l) = p.reader (chan l) := fun l =>
    (hureader _).trans (unowned_chan _ l)
  have hulanguage : ∀ l, u.language l = p.language l := fun l => by
    rw [hclose]
    rfl
  have huactive : u.active = true := by
    refine (Part.active_of ?_ ?_ ?_).trans hactive <;> rw [hclose]
    exact Link.noted_noted _ _ _
  have htakes : u.Taken (u.headTaken e rest .chime) e rest .chime := u.headTaken_taken _ _ _ fun l => by
    rw [huchan]
    exact howners l
  generalize ht : u.headTaken e rest .chime = t at htakes
  have hclip : t.clip c = p.clip c := (htakes.clip c).trans (by rw [hclose]; rfl)
  have hset : t.annSet e.set = p.annSet e.set := (htakes.annSet e.set).trans (by rw [hclose]; rfl)
  obtain ⟨w, page, out, code, seats, light', hhead, hlight⟩ := p.startHead_chimes e rest t c hchime ht
    (by rw [htakes.ann]; rfl) hset (htakes.active.trans huactive)
    (by rw [htakes.chime, hureader, unowned_chime]; exact hnone) (by rw [hclip]; exact hgrant)
    (by rw [hclip]; exact hend)
  rw [hq, hhead]
  have hstarted := vget_vset_same t.bank.readers 13 (.started (t.reader 13).owner (t.clip c) c 0 page out)
  have hchan : ∀ l, vget (vset t.bank.readers 13
      (.started (t.reader 13).owner (t.clip c) c 0 page out)) (chan l) = u.handedReader l := fun l =>
    (vget_vset_ne _ _ (chan_ne_chime l)).trans (htakes.reader l)
  refine ⟨?_, ⟨congrArg Reader.state hstarted, congrArg Reader.clip hstarted, congrArg Reader.position hstarted,
    (congrArg Reader.owner hstarted).trans (congrArg Reader.owner htakes.chime)⟩, rfl, ⟨congrArg some he, rfl, rfl⟩,
    congrArg LangTable.hold htakes.lang, fun l => ⟨?_, ?_, fun hs => ?_⟩, hlight.trans ?_⟩
  · change { t.ann with deckAlert := decide (e.cls = SetClass.safety) || t.ann.safetyFault } = _
    rw [htakes.ann, hclose, he]
    rfl
  · exact (congrArg Reader.owner (hchan l)).trans (u.handedReader_idle l).1
  · exact (congrArg Reader.clip (hchan l)).trans (u.handedReader_idle l).2
  · refine (congrArg Language.stream (htakes.language l)).trans ?_
    rw [Language.suspended_stream, u.handedOver_rest l, hulanguage l]
    exact if_pos hs
  · rw [htakes.time, htakes.light, hcue, show u.time = p.time by rw [hclose]]
    change (match x.lightCue with
      | some n => some (n, p.time)
      | none => none) = _
    cases x.lightCue <;> rfl

/-- Settles O38. -/
theorem safetyCutsAndReinserts : Obligations.SafetyCutsAndReinserts := by
  refine ⟨?_, ?_⟩
  case refine_2 =>
    intro p r e rest c hactive hplaying htail hqueue he x hchime hstate hloaded hroom howners hnone
    exact p.offerStart_cutsTail r e rest c hactive hplaying htail hqueue he hchime ⟨.inr hstate, hroom⟩
      ((p.clip c).pastEnd_first hstate hloaded) howners hnone
  intro s tag body i c r hq hcan hl hb x k hdefined hcls hchime hplaying hrcls hphase hri hlen hqueued hns hactive
    hstate hroom hend howners
  have hexec : exec (.announce tag body) s =
    .next (s.onPart (Part.request .announce tag body (Part.takeAnnounce tag body))) := rfl
  set p : Part := { s.part with link := s.part.takenLink .announce tag body } with hp
  have hpactive : p.active = true := (Part.taken_active .announce tag body s.part).trans hactive
  let e := p.newEntry i tag
  obtain ⟨last0, hplace⟩ := p.placeAnnouncement_safety e hcls hns hlen
  have hplays : p.ann.plays i = false := by
    simp only [Announcer.plays, show p.ann.playing = some r from hplaying, hri]
    rfl
  have htaken := Part.takeAnnounce_placed (p := p) (tag := tag) hl hb hdefined hqueued hplays hplace
  set u := p.requeued (e :: p.ann.queue.take 7) last0
    ((madeRoom p.ann.queue).toList.map fun g => .announce g.set .dropped (some .displaced)) with hu
  have huactive : u.active = true := by
    refine (Part.active_of ?_ ?_ (Link.noted_told p.link p.time _)).trans hpactive <;> rfl
  obtain ⟨queue, last, dropped, hcuts, hre⟩ := u.offerPlaced_cuts r e (p.ann.queue.take 7) c hplaying
    (by simp [Playing.cutBy, show e.cls = .safety from hcls, hrcls, hphase]) rfl hcls
    (fun y hy => hns y (List.mem_of_mem_take hy)) (List.length_take_le 7 _) hchime huactive ⟨hstate, hroom⟩ hend howners
  change p.takeAnnounce tag body = ((u.offerPlaced e).answer .announce tag .ok _) at htaken
  generalize u.offerPlaced e = q at htaken hcuts
  have hstarted : q.ann.place i = 0xFE := by
    have : q.ann.plays i = true := by
      simp only [Announcer.plays, hcuts.playing]
      exact decide_eq_true rfl
    simp only [Announcer.place, this, if_true]
  rw [hstarted] at htaken
  rw [s.onPart_request _ _ _ (Part.takeAnnounce tag body) _ hcan htaken (hcuts.reports.trans hq)] at hexec
  refine ⟨_, hexec, rfl, rfl, hcuts.playing, ?_, hcuts.alert, hcuts.routing, hcuts.chime, hcuts.reader, hcuts.lang,
    hcuts.strings, hcuts.supply, hcuts.time⟩
  intro arrived made expired left
  have hleft : ∀ (queue' : List QEntry) (last' : LastEnding) (dropped' : List Notice),
      queue = queue' ∧ last = some last' ∧ dropped = dropped' → left queue' last' dropped' := by
    rintro queue' last' dropped' ⟨rfl, rfl, rfl⟩
    refine ⟨hcuts.queue, hcuts.last, fun hn => ?_⟩
    change (q.link.answer .announce tag _).pump = _
    rw [hcuts.link hn, Option.map_map]
    have htold : u.link.told u.time ([.announce r.entry.set .cut none] ++ dropped ++ [.announce i .started none]) =
        p.link.told p.time ((made.toList.map fun g => .announce g.set .dropped (some .displaced)) ++
          [.announce r.entry.set .cut none] ++ dropped ++ [.announce i .started none]) := by
      rw [List.append_assoc, List.append_assoc, List.append_assoc, Link.told_append p.link]
      rfl
    exact congrArg (fun l : Link => (l.answer .announce tag _).pump) htold
  exact ⟨fun h => hleft _ _ _ (hre.expired h), fun h hlt => hleft _ _ _ (hre.room h hlt),
    fun h hlt hy => hleft _ _ _ (hre.full h hlt hy),
    fun a y b h hlt hsplit hy hz => hleft _ _ _ (hre.displaces a y b h hlt hsplit hy hz)⟩

end Sys2Proof.Machine
end

section
/-! What one stream's operations touch, and the streams that the resume signal takes up (R50, R75). -/

namespace Sys2Proof.Machine

/-! ### The reach of one stream's operations -/

/-- What an operation on one stream leaves: the other languages and readers, the owners, the hold signal; and its
reports are its channel reader's. -/
structure Part.OfStream (l : Lang) (p q : Part) : Prop where
  languages : ∀ m, m ≠ l → q.language m = p.language m
  readers : ∀ o, o ≠ chan l → q.reader o = p.reader o
  owners : ∀ o, (q.reader o).owner = (p.reader o).owner
  hold : q.lang.hold = p.lang.hold
  reports : p.ReportsOf (chan l) q

theorem Part.OfStream.refl (l : Lang) (p : Part) : p.OfStream l p :=
  ⟨fun _ _ => rfl, fun _ _ => rfl, fun _ => rfl, rfl, .same rfl⟩

theorem Part.OfStream.trans {l : Lang} {p q t : Part} (h : p.OfStream l q) (g : q.OfStream l t) :
    p.OfStream l t := by
  refine ⟨fun m hm => (g.languages m hm).trans (h.languages m hm),
    fun o ho => (g.readers o ho).trans (h.readers o ho), fun o => (g.owners o).trans (h.owners o),
    g.hold.trans h.hold, ?_⟩
  obtain ⟨a, ha, hax⟩ := h.reports
  obtain ⟨b, hb, hbx⟩ := g.reports
  refine ⟨a ++ b, by rw [hb, ha, List.append_assoc], fun x hx => ?_⟩
  rcases List.mem_append.1 hx with hx | hx
  · exact hax x hx
  · exact ⟨(hbx x hx).1, (hbx x hx).2.trans (h.owners _)⟩

theorem Part.OfStream.of_written {l : Lang} {p q : Part} {x : Language} (hl : q.lang = p.lang.written l x)
    (hb : q.bank = p.bank) : p.OfStream l q := by
  refine ⟨fun m hm => ?_, fun o _ => ?_, fun o => ?_, ?_, .same (by rw [hb])⟩
  · rw [Part.language_written hl, if_neg hm]
  · unfold Part.reader
    rw [hb]
  · unfold Part.reader
    rw [hb]
  · rw [hl]
    rfl

theorem Part.ofStream_streamNotice (l m : Lang) (r : StreamReason) (p : Part) : p.OfStream m (p.streamNotice l r) := by
  rw [Part.streamNotice_eq]
  exact ⟨fun _ _ => rfl, fun _ _ => rfl, fun _ => rfl, rfl, .same rfl⟩

theorem Part.report_reader (r o : ReaderId) (k : ReportKind) (p : Part) : (p.report r k).reader o = p.reader o := rfl

theorem Part.addHold_reader (c : ClipId) (o : ReaderId) (p : Part) : (p.addHold c).reader o = p.reader o := rfl

theorem Part.releaseHold_reader (c : ClipId) (o : ReaderId) (p : Part) :
    (p.releaseHold c).reader o = p.reader o := congrArg (fun b : Bank => vget b.readers o) (p.releaseHold_bank c)

/-- R39: a START's beginning touches no other reader. -/
theorem Part.beginReader_readers (r : ReaderId) (c : ClipId) (n : Nat) (p : Part) (o : ReaderId) (h : o ≠ r) :
    (p.beginReader r c n).reader o = p.reader o := by
  unfold Part.beginReader
  extract_lets x next src q
  have hq : q.reader o = p.reader o := Part.reader_setReader_ne p _ h
  clear_value q
  split
  · unfold Part.endReader
    rw [Part.report_reader, (q.stopRelease_reader r).1 o h, hq]
  · split
    · rw [Part.reader_setReader_ne q _ h, hq]
    · rw [(Part.fetch_reader r o q).1 h, hq]

/-- R38, R39: a START touches no other reader. -/
theorem Part.startReader_readers (r : ReaderId) (c : ClipId) (n : Nat) (k : HoldKind) (p : Part) (o : ReaderId)
    (h : o ≠ r) : (p.startReader r c n k).reader o = p.reader o := by
  have hstop := (p.stopRelease_reader r).1 o h
  unfold Part.startReader
  split
  · rfl
  · extract_lets q
    change q.reader o = _ at hstop
    clear_value q
    split
    · cases k with
      | take => exact hstop
      | transfer => exact (q.releaseHold_reader c o).trans hstop
    · cases k with
      | take => exact (Part.beginReader_readers r c n (q.addHold c) o h).trans hstop
      | transfer => exact (Part.beginReader_readers r c n q o h).trans hstop

theorem Part.ofStream_startReader (l : Lang) (c : ClipId) (n : Nat) (k : HoldKind) (p : Part) :
    p.OfStream l (p.startReader (chan l) c n k) := by
  have hr := p.readersOnly_startReader (chan l) c n k
  refine ⟨fun m _ => ?_, fun o ho => Part.startReader_readers _ c n k p o ho, hr.owners, ?_,
    Part.startReader_reports _ c n k p⟩
  · unfold Part.language
    rw [hr.lang]
  · rw [hr.lang]

theorem Part.ofStream_setStop (l : Lang) (n : Nat) (p : Part) : p.OfStream l (p.setStop (chan l) n) := by
  have hr := p.readersOnly_setStop (chan l) n
  refine ⟨fun m _ => ?_, fun o ho => ?_, hr.owners, ?_, .same ?_⟩
  · unfold Part.language
    rw [hr.lang]
  · unfold Part.setStop
    split
    · rfl
    · exact Part.reader_setReader_ne p _ ho
  · rw [hr.lang]
  · unfold Part.setStop
    split <;> rfl

theorem Part.ofStream_setLanguage (l : Lang) (x : Language) (p : Part) : p.OfStream l (p.setLanguage l x) :=
  .of_written (x := x) rfl rfl

theorem Part.ofStream_startEntry (l : Lang) (p : Part) : p.OfStream l (p.startEntry l) := by
  unfold Part.startEntry
  split
  · exact .refl l p
  · split
    · exact (p.ofStream_setLanguage l _).trans (Part.ofStream_startReader l _ 0 .take _)
    · exact .refl l p

theorem Part.ofStream_playNext (l : Lang) (p : Part) : p.OfStream l (p.playNext l) := by
  cases hw : (p.language l).waiting with
  | nil =>
    rw [p.playNext_nil l hw]
    exact p.ofStream_setLanguage l _
  | cons e rest =>
    rw [p.playNext_cons l hw]
    exact (p.ofStream_setLanguage l _).trans (Part.ofStream_startEntry l _)

theorem Part.ofStream_takeUp (l : Lang) (p : Part) : p.OfStream l (p.takeUp l) := by
  unfold Part.takeUp
  extract_lets x
  split
  · split
    · rename_i r _
      extract_lets t u
      have ht : p.OfStream l t :=
        (p.ofStream_setLanguage l _).trans (Part.ofStream_startReader l r.clip r.sample .transfer _)
      clear_value t
      have hu : t.OfStream l u := by
        unfold u
        split
        · exact t.ofStream_setStop l _
        · exact .refl l t
      exact ht.trans (hu.trans (u.ofStream_streamNotice l l _))
    · exact (p.ofStream_playNext l).trans (Part.ofStream_streamNotice l l _ _)
  · exact .refl l p

theorem Part.ofStream_commentaryReport (l : Lang) (k : ReportKind) (p : Part) :
    p.OfStream l (p.commentaryReport l k) := by
  rcases p.commentaryReport_cases l with ⟨e, hc, hs⟩ | hd
  · rw [p.commentaryReport_removes l k hc hs]
    have ht : p.OfStream l ((p.setLanguage l { p.language l with current := none }).skipTold l k) :=
      .of_written (x := { p.language l with current := none }) (Part.skipTold_lang _ _ _) (Part.skipTold_bank _ _ _)
    split
    · exact ht.trans (Part.ofStream_playNext l _)
    · exact ht
  · rw [p.commentaryReport_discarded l k hd]
    exact .refl l p

/-! ### The reports of streams at the end of a command -/

/-- The taking of reports to the Commentary Scheduler moves no owner and no hold signal. -/
theorem Part.drain_streams (n : Nat) (p : Part) (h : p.ToCommentary) :
    (∀ o, ((p.drain n).reader o).owner = (p.reader o).owner) ∧ (p.drain n).lang.hold = p.lang.hold := by
  induction n generalizing p with
  | zero => exact ⟨fun _ => rfl, rfl⟩
  | succ n ih =>
    unfold Part.drain
    cases hr : p.bank.reports with
    | nil => exact ⟨fun _ => rfl, rfl⟩
    | cons x rest =>
      simp only
      let q : Part := { p with bank := { p.bank with reports := rest } }
      have hx : x.owner = .commentary := h x (by simp [hr])
      have hq : q.ToCommentary := fun y hy => h y (by rw [hr]; exact List.mem_cons_of_mem x hy)
      have htake : (∀ o, ((q.takeReport x).reader o).owner = (q.reader o).owner) ∧
          (q.takeReport x).lang.hold = q.lang.hold ∧ (q.takeReport x).ToCommentary := by
        unfold Part.takeReport
        rw [hx]
        dsimp only
        split
        · have hs := Part.ofStream_commentaryReport ⟨x.reader.val, by assumption⟩ x.kind q
          exact ⟨hs.owners, hs.hold, Part.toCommentary_commentaryReport _ _ q hq⟩
        · exact ⟨fun _ => rfl, rfl, hq⟩
      obtain ⟨howners, hhold, hto⟩ := htake
      obtain ⟨hrest, hrhold⟩ := ih _ hto
      exact ⟨fun o => (hrest o).trans (howners o), hrhold.trans hhold⟩

end Sys2Proof.Machine
end

section
/-! The readers handed back, the streams taken up, and the tail (R50, R75, R91). -/

namespace Sys2Proof.Machine

theorem Part.StreamsOnly.active {p q : Part} (h : p.StreamsOnly q) : q.active = p.active :=
  Part.active_of (by rw [h.mem]) (by rw [h.mem]) h.link

/-! ### The channel readers go back (R50) -/

/-- R50: one channel reader goes back to the Commentary Scheduler. -/
def Part.handBackOne (l : Lang) (p : Part) : Part := (p.stopRelease (chan l)).setOwner (chan l) .commentary

theorem Part.handBackOne_spec (l : Lang) (p : Part) :
    (((p.handBackOne l).reader (chan l)).owner = .commentary ∧ ((p.handBackOne l).reader (chan l)).clip = none) ∧
      ∀ o, o ≠ chan l → (p.handBackOne l).reader o = p.reader o := by
  obtain ⟨hreader, hothers, _⟩ := p.stopRelease_spec (chan l)
  have hown : (p.handBackOne l).reader (chan l) =
      { (p.stopRelease (chan l)).reader (chan l) with owner := .commentary } := Part.reader_setReader _ _ _
  refine ⟨⟨by rw [hown], ?_⟩, fun o ho => ?_⟩
  · rw [hown, hreader]
    split
    · assumption
    · rfl
  · exact (Part.reader_setReader_ne _ _ ho).trans (hothers o ho)

theorem Part.handBack_readers (p : Part) :
    (∀ l, (p.handBack.reader (chan l)).owner = .commentary ∧ (p.handBack.reader (chan l)).clip = none) ∧
      ∀ o, (∀ l, o ≠ chan l) → p.handBack.reader o = p.reader o := by
  have hback : p.handBack = p.eachLanguage Part.handBackOne := rfl
  refine ⟨fun l => ?_, fun o ho => ?_⟩
  · obtain ⟨a, b, _, hb, hsplit⟩ := Part.eachLanguage_split Part.handBackOne p l
    rw [hback, hsplit]
    refine foldl_keeps (I := fun q : Part => (q.reader (chan l)).owner = .commentary ∧ (q.reader (chan l)).clip = none)
      Part.handBackOne b _ (fun m hm q hq => ?_) (Part.handBackOne_spec l _).1
    rw [(q.handBackOne_spec m).2 (chan l) fun h => hb (chan_inj h ▸ hm)]
    exact hq
  · rw [hback]
    exact Part.eachLanguage_keeps (I := fun q => q.reader o = p.reader o) Part.handBackOne p
      (fun m q hq => ((q.handBackOne_spec m).2 o (ho m)).trans hq) rfl

theorem Part.handBack_reports (p : Part) : p.handBack.bank.reports = p.bank.reports := by
  have hback : p.handBack = p.eachLanguage Part.handBackOne := rfl
  rw [hback]
  exact Part.eachLanguage_keeps (I := fun q => q.bank.reports = p.bank.reports) Part.handBackOne p
    (fun m q hq => (q.stopRelease_reports (chan m)).trans hq) rfl

/-! ### One stream is taken up (R75) -/

/-- R39: a START with the transfer of a hold on a READY clip. -/
theorem Part.startReader_transferred (r : ReaderId) (c : ClipId) (n : Nat) (p : Part) (hactive : p.active = true)
    (hnone : (p.reader r).clip = none) (hready : (p.clip c).state = .ready)
    (hend : (p.clip c).pastEnd n = false) :
    ∃ w page out, p.startReader r c n .transfer = { p with
      mem := { p.mem with waiting := w }
      bank := { p.bank with
        readers := vset p.bank.readers r (.started (p.reader r).owner (p.clip c) c n page out) } } := by
  have hstart : p.startReader r c n .transfer = p.beginReader r c n := by
    unfold Part.startReader
    rw [if_neg (by simp [hactive]), (p.stopRelease_reader r).2.2 hnone]
    simp only [Clip.startRefused, hready]
    rfl
  obtain ⟨w, page, out, hb⟩ := p.beginReader_primes r c n hend
  exact ⟨w, page, out, hstart.trans hb⟩

/-- R75: a stream goes on from its resume record, on the hold that the record kept. -/
theorem Part.takeUp_resumes (l : Lang) (p : Part) (d : Resume) (hs : (p.language l).stream = .suspended)
    (hd : (p.language l).resume = some d) (hactive : p.active = true)
    (hnone : (p.reader (chan l)).clip = none) (hready : (p.clip d.clip).state = .ready)
    (hend : (p.clip d.clip).pastEnd d.sample = false) :
    ∃ w page out, p.takeUp l = { p.setLanguage l { p.language l with
        stream := .playing, resume := none
        current := (p.language l).current.map fun e => { e with started := true } } with
      mem := { p.mem with waiting := w }
      bank := { p.bank with
        readers := (vset p.bank.readers (chan l)
          { Reader.started (p.reader (chan l)).owner (p.clip d.clip) d.clip d.sample page out with
            stopPoint := (p.language l).current.bind Entry.cut }) }
      link := p.link.noted (.stream l .playing .resumed) p.time } := by
  let x : Language := { p.language l with
    stream := .playing, resume := none
    current := (p.language l).current.map fun e => { e with started := true } }
  obtain ⟨w, page, out, hstart⟩ := Part.startReader_transferred (chan l) d.clip d.sample (p.setLanguage l x)
    hactive hnone hready hend
  refine ⟨w, page, out, ?_⟩
  let y : Reader := .started (p.reader (chan l)).owner (p.clip d.clip) d.clip d.sample page out
  let q : Part := { p.setLanguage l x with
    mem := { p.mem with waiting := w }, bank := { p.bank with readers := vset p.bank.readers (chan l) y } }
  have hstart : (p.setLanguage l x).startReader (chan l) d.clip d.sample .transfer = q := hstart
  have hreader : q.reader (chan l) = y := p.reader_setReader (chan l) y
  have hstop : ∀ m, q.setStop (chan l) m = q.setReader (chan l) { y with stopPoint := some m } := fun m => by
    unfold Part.setStop
    rw [hreader]
    exact if_neg (by simp [y, Reader.started])
  have hlang : ∀ t : Part, t.lang = q.lang → (t.language l).stream = .playing := fun t ht =>
    congrArg Language.stream ((congrArg (fun a : LangTable => vget a.langs l) ht).trans (p.language_setLanguage l x))
  have htake : p.takeUp l = (match (p.language l).current.bind Entry.cut with
      | some m => q.setStop (chan l) m
      | none => q).streamNotice l .resumed := by
    have hcut : ((p.language l).current.map fun e => { e with started := true }).bind Entry.cut =
        (p.language l).current.bind Entry.cut := by
      cases (p.language l).current <;> rfl
    unfold Part.takeUp
    simp only [hs, hd, if_true]
    rw [← hcut, ← hstart] <;> rfl
  rw [htake, Part.streamNotice_eq]
  rcases Option.eq_none_or_eq_some ((p.language l).current.bind Entry.cut) with hc | ⟨m, hc⟩
  · simp only [hc]
    rw [hlang q rfl]
    rfl
  · simp only [hc, hstop]
    rw [hlang (q.setReader (chan l) { y with stopPoint := some m }) rfl]
    simp only [Part.setReader, q, vset_vset]
    rfl

/-! ### The resume signal (R75) -/

/-- The turns of other streams leave a stream and its reader. -/
theorem Part.takeUps_others (ls : List Lang) (p : Part) (l : Lang) (h : l ∉ ls) :
    (ls.foldl (fun q m => q.takeUp m) p).language l = p.language l ∧
      (ls.foldl (fun q m => q.takeUp m) p).reader (chan l) = p.reader (chan l) :=
  foldl_keeps (I := fun q : Part => q.language l = p.language l ∧ q.reader (chan l) = p.reader (chan l))
    (fun m q => q.takeUp m) ls p (fun m hm q hq => by
      have hml : l ≠ m := fun he => h (he ▸ hm)
      have ht := q.ofStream_takeUp m
      exact ⟨(ht.languages l hml).trans hq.1, (ht.readers (chan l) fun he => hml (chan_inj he)).trans hq.2⟩) ⟨rfl, rfl⟩

theorem Part.takeUps_only (ls : List Lang) (p : Part) : p.StreamsOnly (ls.foldl (fun q m => q.takeUp m) p) :=
  foldl_keeps (I := fun q => p.StreamsOnly q) (fun m q => q.takeUp m) ls p
    (fun m _ q hq => hq.trans (q.streamsOnly_takeUp m)) (.refl p)

/-- R75: what the resume signal leaves of a stream and its reader. -/
theorem Part.resumeSignal_spec (p : Part) (l : Lang) (hactive : p.active = true) :
    p.resumeSignal.language l = (p.language l).takenUp (p.ownsReader l) ∧
      ∀ d, (p.language l).stream = .suspended → (p.language l).resume = some d →
        (p.reader (chan l)).clip = none → (p.clip d.clip).state = .ready →
        (p.clip d.clip).pastEnd d.sample = false →
        (p.resumeSignal.reader (chan l)).state = .priming ∧
        (p.resumeSignal.reader (chan l)).clip = some d.clip ∧
        (p.resumeSignal.reader (chan l)).position = d.sample ∧
        (p.resumeSignal.reader (chan l)).stopPoint = (p.language l).current.bind Entry.cut := by
  let p0 : Part := { p with lang := { p.lang with hold := false } }
  obtain ⟨a, b, ha, hb, hsplit⟩ := Part.eachLanguage_split (fun m q => q.takeUp m) p0 l
  have hresume : p.resumeSignal = p0.eachLanguage fun m q => q.takeUp m := rfl
  rw [hresume, hsplit]
  obtain ⟨hlang, hreader⟩ := Part.takeUps_others a p0 l ha
  have honly := Part.takeUps_only a p0
  generalize a.foldl (fun q m => q.takeUp m) p0 = q at *
  obtain ⟨hblang, hbreader⟩ := Part.takeUps_others b (q.takeUp l) l hb
  have hlang : q.language l = p.language l := hlang
  have howns : q.ownsReader l = p.ownsReader l := by
    unfold Part.ownsReader
    rw [hreader]
    rfl
  refine ⟨?_, fun d hs hd hnone hready hend => ?_⟩
  · rw [hblang, Part.language_written (q.takeUp_lang l), if_pos rfl, hlang, howns]
  · have hclip := (honly.clips d.clip).not_retiring (by
      rw [show (p0.clip d.clip).state = .ready from hready]
      simp)
    have hqactive : q.active = true := honly.active.trans hactive
    obtain ⟨w, page, out, htake⟩ := q.takeUp_resumes l d (by rw [hlang]; exact hs) (by rw [hlang]; exact hd) hqactive
      (by rw [hreader]; exact hnone) (by rw [hclip]; exact hready) (by rw [hclip]; exact hend)
    have hstarted : (q.takeUp l).reader (chan l) =
        { Reader.started (q.reader (chan l)).owner (q.clip d.clip) d.clip d.sample page out with
          stopPoint := (q.language l).current.bind Entry.cut } := by
      rw [htake]
      exact vget_vset_same _ _ _
    rw [hbreader, hstarted, hlang]
    exact ⟨rfl, rfl, rfl, rfl⟩

/-- R75: the resume signal leaves the readers of no channel, every owner and the hold signal's end. -/
theorem Part.resumeSignal_readers (p : Part) :
    (∀ o, (∀ l, o ≠ chan l) → p.resumeSignal.reader o = p.reader o) ∧
      (∀ o, (p.resumeSignal.reader o).owner = (p.reader o).owner) ∧ p.resumeSignal.lang.hold = false := by
  have hresume : p.resumeSignal =
      Part.eachLanguage (fun m q => q.takeUp m) { p with lang := { p.lang with hold := false } } := rfl
  rw [hresume]
  exact Part.eachLanguage_keeps (I := fun q => (∀ o, (∀ l, o ≠ chan l) → q.reader o = p.reader o) ∧
      (∀ o, (q.reader o).owner = (p.reader o).owner) ∧ q.lang.hold = false)
    (fun m q => q.takeUp m) { p with lang := { p.lang with hold := false } }
    (fun m q hq => by
      have ht := q.ofStream_takeUp m
      exact ⟨fun o ho => (ht.readers o (ho m)).trans (hq.1 o ho), fun o => (ht.owners o).trans (hq.2.1 o),
        ht.hold.trans hq.2.2⟩)
    ⟨fun _ _ => rfl, fun _ => rfl, rfl⟩

/-- R71, R75: the reports of streams taken up are to the Commentary Scheduler, which owns their readers. -/
theorem Part.resumeSignal_toCommentary (p : Part) (h : p.ToCommentary)
    (howners : ∀ l, (p.reader (chan l)).owner = .commentary) : p.resumeSignal.ToCommentary := by
  have hresume : p.resumeSignal =
      Part.eachLanguage (fun m q => q.takeUp m) { p with lang := { p.lang with hold := false } } := rfl
  rw [hresume]
  exact (Part.eachLanguage_keeps (I := fun q => q.ToCommentary ∧ ∀ l, (q.reader (chan l)).owner = .commentary)
    (fun m q => q.takeUp m) { p with lang := { p.lang with hold := false } }
    (fun m q hq => by
      have ht := q.ofStream_takeUp m
      exact ⟨ht.reports.toCommentary (hq.2 m) hq.1, fun l => (ht.owners _).trans (hq.2 l)⟩)
    ⟨h, howners⟩).1

/-! ### The tail (R91) -/

theorem Part.offerStart_empty (p : Part) (h : p.ann.queue = []) : p.offerStart = p := by
  simp only [Part.offerStart, h]

/-- R86, R92: no entry starts during a tail but a SAFETY one, and none while another phase lasts. -/
theorem Part.offerStart_waits (p : Part) {r : Playing} (hr : p.ann.playing = some r)
    (h : r.phase = .tail → ∀ e, p.ann.queue.head? = some e → e.cls ≠ .safety) : p.offerStart = p := by
  unfold Part.offerStart
  split
  · rfl
  · rename_i e rest hq
    split
    · simp only [hr]
      exact if_neg fun ⟨ht, hs⟩ => h ht e (by rw [hq]; rfl) hs
    · rfl

/-- R91: the end of a tail that no entry waits for. -/
theorem Part.endTail_empty (r : Playing) (p : Part) (hq : p.ann.queue = []) :
    ∃ light code seats, p.endTail r = { p with
      light := light, seats := seats
      bank := { p.bank with readers := unowned p.bank.readers }
      level := { p.level with cls := none, phase := none, lift := 0, paCode := code }
      ann := { p.ann with
        last := some ⟨r.entry.set, .done, none, p.time⟩, playing := none, deckAlert := p.ann.safetyFault }
      link := p.link.noted (.announce r.entry.set .done none) p.time } ∧ light.activeCue = none := by
  have hcue := p.closeTail_cue r
  obtain ⟨light, hclose⟩ := p.closeTail_only r
  rw [hclose] at hcue
  unfold Part.endTail
  rw [hclose]
  obtain ⟨code, seats, htold⟩ := Part.tellPlaying_none { p with
    light := light
    bank := { p.bank with readers := unowned p.bank.readers }
    ann := { p.ann with last := some ⟨r.entry.set, .done, none, p.time⟩, playing := none }
    link := p.link.noted (.announce r.entry.set .done none) p.time } rfl
  rw [htold]
  refine ⟨light, code, seats, ?_, hcue⟩
  rw [Part.offerStart_empty]
  · rfl
  · exact hq

end Sys2Proof.Machine
end

section
/-! How announcements leave the queue and the Playing Record (R84, R89 to R91, R95, R96). -/

namespace Sys2Proof.Machine

/-! ### Entries that leave the queue (R84, R95) -/

/-- R84, R95: an entry leaves the queue behind an announcement that is not in its tail. -/
theorem Part.removeEntry_waits (i : SetId) (reason : AnnReason) (p : Part) (r : Playing)
    (hr : p.ann.playing = some r) (hphase : r.phase ≠ .tail) : p.removeEntry i reason = { p with
      ann := { p.ann with
        queue := p.ann.queue.filter fun e => e.set ≠ i
        last := some ⟨i, .dropped, some reason, p.time⟩ }
      link := p.link.noted (.announce i .dropped (some reason)) p.time } := by
  unfold Part.removeEntry
  dsimp only
  rw [Part.annNotice_dropped]
  split
  · exact Part.offerStart_waits _ hr fun h => absurd h hphase
  · rfl

/-- R95: an ANNOUNCE-CANCEL of a queued set. -/
theorem Part.takeAnnounceCancel_queued {tag : Byte} {body : Bytes} {p : Part} {i : SetId} {n : Nat}
    (hl : body.length = 1) (hb : b8 body 0 = i.val) (hn : queuePlace i p.ann.queue = some n) :
    p.takeAnnounceCancel tag body =
      (p.removeEntry i .cancelled).answer .announceCancel tag .ok (e8 i.val ++ e8 n) := by
  have hnamed : o8 (named8 body) = e8 i.val := by
    rw [named8_long (by omega), hb]
    rfl
  unfold Part.takeAnnounceCancel
  simp only [readSetId_of hl hb, hn, hnamed]
  rfl

/-- R96: an ANNOUNCE-CANCEL of the playing set. -/
theorem Part.takeAnnounceCancel_playing {tag : Byte} {body : Bytes} {p : Part} {i : SetId} {r : Playing}
    (hl : body.length = 1) (hb : b8 body 0 = i.val) (hqueue : p.ann.queue = [])
    (hr : p.ann.playing = some r) (hi : r.entry.set = i) : ∃ fields,
    p.takeAnnounceCancel tag body = (p.cancelPlaying r).answer .announceCancel tag .ok fields := by
  have hn : queuePlace i p.ann.queue = none := by
    rw [hqueue]
    rfl
  unfold Part.takeAnnounceCancel
  simp only [readSetId_of hl hb, hn, hr, hi, if_true]
  exact ⟨_, rfl⟩

/-! ### The playing announcement is cancelled (R96) -/

/-- R96: the part once the cancelled announcement has left the Playing Record. -/
def Part.playingDropped (r : Playing) (p : Part) : Part :=
  ((((p.endCue).annNotice r.entry.set .dropped (some .cancelled)).setPlaying none).tellPlaying.judgeAlert).offerStart

theorem Part.playingDropped_empty (r : Playing) (p : Part) (hq : p.ann.queue = []) :
    ∃ light code seats, p.playingDropped r = { p with
      light := light, seats := seats
      level := { p.level with cls := none, phase := none, lift := 0, paCode := code }
      ann := { p.ann with
        last := some ⟨r.entry.set, .dropped, some .cancelled, p.time⟩, playing := none
        deckAlert := p.ann.safetyFault }
      link := p.link.noted (.announce r.entry.set .dropped (some .cancelled)) p.time } ∧
      light.activeCue = none := by
  unfold Part.playingDropped
  rw [Part.annNotice_dropped]
  obtain ⟨code, seats, htold⟩ := Part.tellPlaying_none { p with
    light := p.light.endCue p.time
    ann := { p.ann with last := some ⟨r.entry.set, .dropped, some .cancelled, p.time⟩, playing := none }
    link := p.link.noted (.announce r.entry.set .dropped (some .cancelled)) p.time } rfl
  refine ⟨p.light.endCue p.time, code, seats, ?_, p.light.endCue_cue p.time⟩
  refine (congrArg (fun q : Part => q.judgeAlert.offerStart) htold).trans ?_
  exact Part.offerStart_empty _ hq

theorem Part.cancelPlaying_tail (r : Playing) (p : Part) (h : r.phase = .tail) :
    p.cancelPlaying r = p.dropPaOwners.playingDropped r := by
  unfold Part.cancelPlaying
  simp only [h]
  rfl

/-- R50, R96: the part once the announcement's readers are silent and the streams have been taken up. -/
def Part.streamsBack (p : Part) : Part :=
  (((p.stopAnnouncementReaders.setRouting false).handBack).dropPaOwners).resumeSignal

theorem Part.cancelPlaying_speaking (r : Playing) (p : Part) (h : r.phase ≠ .tail) :
    p.cancelPlaying r = p.streamsBack.playingDropped r := by
  unfold Part.cancelPlaying
  cases hp : r.phase with
  | tail => exact absurd hp h
  | chime => rfl
  | speech => rfl

theorem Part.stopAnnouncementReaders_only (p : Part) :
    p.ReadersOnly p.stopAnnouncementReaders ∧ p.stopAnnouncementReaders.bank.reports = p.bank.reports := by
  let stop : ReaderId → Part → Part := fun r q => if (q.reader r).owner = .announcement then q.stopRelease r else q
  have hstop : p.stopAnnouncementReaders = (List.finRange 14).foldl (fun q r => stop r q) p := rfl
  rw [hstop]
  refine foldl_keeps (I := fun q : Part => p.ReadersOnly q ∧ q.bank.reports = p.bank.reports) stop _ p
    (fun r _ q hq => ?_) ⟨.refl p, rfl⟩
  unfold stop
  split
  · exact ⟨hq.1.trans (q.readersOnly_stopRelease r), (q.stopRelease_reports r).trans hq.2⟩
  · exact hq

theorem Part.streamsBack_spec (p : Part) (hq : p.bank.reports = []) :
    p.streamsBack.ann = p.ann ∧ p.streamsBack.time = p.time ∧ p.streamsBack.bank.chimeRouting = false ∧
      p.streamsBack.lang.hold = false ∧ p.streamsBack.ToCommentary ∧
      (p.streamsBack.reader 12).owner = .none ∧ (p.streamsBack.reader 13).owner = .none ∧
      ∀ l, (p.streamsBack.reader (chan l)).owner = .commentary := by
  obtain ⟨honly, hreports⟩ := p.stopAnnouncementReaders_only
  unfold Part.streamsBack
  generalize p.stopAnnouncementReaders = s at *
  obtain ⟨hback, _⟩ := (s.setRouting false).handBack_readers
  have hbacked := (s.setRouting false).streamsOnly_handBack
  have hbreports : (s.setRouting false).handBack.bank.reports = [] :=
    (s.setRouting false).handBack_reports.trans (hreports.trans hq)
  generalize (s.setRouting false).handBack = b at *
  have howners : ∀ l, (b.dropPaOwners.reader (chan l)).owner = .commentary := fun l => by
    rw [Part.dropPaOwners_eq, Part.reader, unowned_chan]
    exact (hback l).1
  obtain ⟨hrest, hkept, hhold⟩ := b.dropPaOwners.resumeSignal_readers
  have hsignal := b.dropPaOwners.streamsOnly_resumeSignal
  have hto := b.dropPaOwners.resumeSignal_toCommentary (fun x hx => by
    rw [show b.dropPaOwners.bank.reports = [] from hbreports] at hx
    exact absurd hx (by simp)) howners
  refine ⟨hsignal.ann.trans (hbacked.ann.trans honly.ann), hsignal.time.trans (hbacked.time.trans honly.time), ?_,
    hhold, hto, ?_, ?_, fun l => (hkept _).trans (howners l)⟩
  · exact (congrArg Bank.chimeRouting hsignal.bank).trans ((congrArg Bank.chimeRouting hbacked.bank).trans rfl)
  · rw [hkept, Part.dropPaOwners_eq, Part.reader, unowned_pa]
  · rw [hkept, Part.dropPaOwners_eq, Part.reader, unowned_chime]

/-! ### Repetitions that end (R89, R90) -/

theorem Part.setPlaying_same (p : Part) {r : Playing} (h : p.ann.playing = some r) : p.setPlaying (some r) = p := by
  unfold Part.setPlaying
  rw [← h]

/-- R89: a repetition of which a part goes on. -/
theorem Part.endRepetition_goesOn (p : Part) (r : Playing) (hr : p.ann.playing = some r)
    (h : r.channels ≠ [] ∨ r.paSpeaking = true) : p.endRepetition = p := by
  unfold Part.endRepetition
  simp only [hr]
  refine if_neg fun ⟨_, hc, hpa⟩ => ?_
  rcases h with h | h
  · exact h hc
  · exact absurd (hpa.symm.trans h) (by simp)

/-- R89: a report of a channel reader takes its language away from the repetition. -/
theorem Part.announcementReport_channel (p : Part) (r : Playing) (l : Lang) (hr : p.ann.playing = some r)
    (hphase : r.phase = .speech) : p.announcementReport (chan l) =
      (p.setPlaying (some { r with channels := r.channels.filter fun m => m ≠ l })).endRepetition := by
  have hfilter : (r.channels.filter fun m => decide (chan m ≠ chan l)) = r.channels.filter fun m => decide (m ≠ l) :=
    List.filter_congr fun m _ => decide_eq_decide.2 (not_congr ⟨fun h => chan_inj h, fun h => by rw [h]⟩)
  unfold Part.announcementReport
  simp only [hr, hphase, if_neg (chan_ne_pa l)]
  rw [hfilter]

theorem Part.announcementReport_pa (p : Part) (r : Playing) (hr : p.ann.playing = some r)
    (hphase : r.phase = .speech) : p.announcementReport 12 =
      (p.setPlaying (some { r with paSpeaking := false })).endRepetition := by
  unfold Part.announcementReport
  simp only [hr, hphase, if_true]

/-- R89: a report that takes the last part away from a repetition. -/
theorem Part.announcementReport_last (p : Part) (r : Playing) (o : ReaderId) (hr : p.ann.playing = some r)
    (hphase : r.phase = .speech) (h : (o = 12 ∧ r.channels = []) ∨
      ∃ l, o = chan l ∧ r.paSpeaking = false ∧ ∀ m ∈ r.channels, m = l) :
    p.announcementReport o =
      (p.setPlaying (some { r with channels := [], paSpeaking := false })).endRepetition := by
  rcases h with ⟨rfl, hc⟩ | ⟨l, rfl, hpa, hall⟩
  · rw [p.announcementReport_pa r hr hphase, hc]
  · have hnone : (r.channels.filter fun m => decide (m ≠ l)) = [] :=
      List.filter_eq_nil_iff.2 fun m hm => by simpa using hall m hm
    rw [p.announcementReport_channel r l hr hphase, hnone, ← hpa]

/-- R89: the end of a repetition whose every part is over. -/
theorem Part.endRepetition_over (p : Part) (r : Playing) (hr : p.ann.playing = some r) (hphase : r.phase = .speech)
    (hc : r.channels = []) (hpa : r.paSpeaking = false) : p.endRepetition =
      if r.repetition < (p.annSet r.entry.set).repeats then
        (p.setPlaying (some { r with repetition := r.repetition + 1 })).startRepetition
      else p.beginTail r := by
  unfold Part.endRepetition
  simp only [hr]
  exact if_pos ⟨hphase, hc, hpa⟩

/-- R90: a disabled language is taken away from a repetition that goes on. -/
theorem Part.languageDisabled_goesOn (p : Part) (r : Playing) (l : Lang) (hr : p.ann.playing = some r)
    (hphase : r.phase = .speech) (hl : l ∈ r.channels)
    (h : (r.channels.filter fun m => decide (m ≠ l)) ≠ [] ∨ r.paSpeaking = true) :
    p.languageDisabled l = (p.stopRelease (chan l)).setPlaying
      (some { r with channels := r.channels.filter fun m => decide (m ≠ l) }) := by
  unfold Part.languageDisabled
  simp only [hr]
  rw [if_pos ⟨hphase, hl⟩]
  exact Part.endRepetition_goesOn _ _ rfl h

theorem Part.languageDisabled_silent (p : Part) (r : Playing) (l : Lang) (hr : p.ann.playing = some r)
    (h : r.phase ≠ .speech ∨ l ∉ r.channels) : p.languageDisabled l = p := by
  unfold Part.languageDisabled
  simp only [hr]
  exact if_neg fun ⟨hp, hl⟩ => h.elim (fun h => h hp) fun h => h hl

/-! ### The beginning of the tail (R91) -/

/-- R91: the Playing Record in the tail. -/
def Playing.inTail (r : Playing) (ends : PartTime) : Playing :=
  { r with
    phase := .tail, channels := [], paSpeaking := false, chimeSpeaking := false, tailEnd := some ends }

/-- R91: the part at the beginning of a tail, the streams being taken up. -/
theorem Part.beginTail_told (r : Playing) (p : Part) : ∃ code seats,
    let ends := later p.time (1000 * (p.annSet r.entry.set).tail)
    let q : Part := { p.handBack.resumeSignal with
      ann := { p.ann with
        playing := some (r.inTail ends), deckAlert := decide (r.entry.cls = .safety) || p.ann.safetyFault }
      level := { p.level with cls := some r.entry.cls, phase := some .tail, lift := 0, paCode := code }
      seats := seats }
    p.beginTail r = if (p.annSet r.entry.set).tail = 0 then q.endTail (r.inTail ends) else q.offerStart := by
  have honly := p.streamsOnly_handBack.trans p.handBack.streamsOnly_resumeSignal
  unfold Part.beginTail
  generalize p.handBack.resumeSignal = s at *
  obtain ⟨code, seats, htold⟩ := Part.tellPlaying_some (s.setPlaying (some (r.inTail
    (later p.time (1000 * (p.annSet r.entry.set).tail))))) _ rfl
  refine ⟨code, seats, ?_⟩
  intro ends q
  have hq : (s.setPlaying (some (r.inTail ends))).tellPlaying.judgeAlert = q := by
    refine (congrArg Part.judgeAlert htold).trans ?_
    have hann := honly.ann
    have hlevel := honly.level
    unfold q
    rw [← hann, ← hlevel]
    rfl
  rw [← hq]
  rfl

end Sys2Proof.Machine
end

section
/-! The statement on the ends of announcements (R84, R89 to R91, R95, R96). -/

namespace Sys2Proof.Machine

/-! ### Commands that end the playing announcement -/

/-- R91, R96: nothing plays, and nothing of the announcement is left in the other blocks. -/
def Part.Ended (p : Part) (safetyFault : Bool) : Prop :=
  p.ann.playing = none ∧ p.ann.queue = [] ∧ p.ann.deckAlert = safetyFault ∧ p.light.activeCue = none ∧
    (p.reader 12).owner = .none ∧ (p.reader 13).owner = .none ∧
    p.level.cls = none ∧ p.level.phase = none ∧ p.level.lift = 0

/-- R91: part time reaches the tail end. -/
theorem Part.tailEnds_spec (p : Part) (r : Playing) (d : PartTime) (hr : p.ann.playing = some r)
    (hphase : r.phase = .tail) (hd : r.tailEnd = some d) (hq : p.ann.queue = []) :
    let q := p.tailEnds
    q.Ended p.ann.safetyFault ∧ q.time = (p.reach d).time ∧
      q.ann.last = some ⟨r.entry.set, .done, none, q.time⟩ ∧
      (∀ l, q.reader (chan l) = p.reader (chan l)) ∧ q.lang = p.lang ∧ q.store = p.store ∧
      q.supply = p.supply ∧ q.strings = p.strings ∧ q.bank.reports = p.bank.reports := by
  intro q
  have hq' : q = (p.reach d).endTail r := by
    change p.tailEnds = _
    unfold Part.tailEnds
    simp only [hr, hphase, hd]
  obtain ⟨light, code, seats, hend, hcue⟩ := (p.reach d).endTail_empty r (by rw [Part.reach_ann]; exact hq)
  rw [hq', hend]
  refine ⟨⟨rfl, ?_, ?_, hcue, ?_, ?_, rfl, rfl, rfl⟩, rfl, rfl, fun l => ?_, p.reach_lang d, p.reach_store d,
    p.reach_supply d, p.reach_strings d, (congrArg Bank.reports (p.reach_bank d)).trans rfl⟩
  · exact (congrArg Announcer.queue (p.reach_ann d)).trans hq
  · exact congrArg Announcer.safetyFault (p.reach_ann d)
  · exact congrArg Reader.owner (unowned_pa _)
  · exact congrArg Reader.owner (unowned_chime _)
  · exact (unowned_chan _ l).trans (congrArg (fun b : Bank => vget b.readers (chan l)) (p.reach_bank d))

/-- R96: what the cancel of an announcement in its tail leaves. -/
theorem Part.cancelPlaying_inTail (p : Part) (r : Playing) (hphase : r.phase = .tail) (hq : p.ann.queue = []) :
    let q := p.cancelPlaying r
    q.Ended p.ann.safetyFault ∧ q.ann.last = some ⟨r.entry.set, .dropped, some .cancelled, p.time⟩ ∧
      q.lang = p.lang ∧ q.store = p.store ∧ q.bank.reports = p.bank.reports := by
  intro q
  obtain ⟨light, code, seats, hend, hcue⟩ := p.dropPaOwners.playingDropped_empty r hq
  have hq' : q = _ := (p.cancelPlaying_tail r hphase).trans hend
  rw [hq']
  exact ⟨⟨rfl, hq, rfl, hcue, congrArg Reader.owner (unowned_pa _), congrArg Reader.owner (unowned_chime _), rfl, rfl,
    rfl⟩, rfl, rfl, rfl, rfl⟩

/-- R96: what the cancel of an announcement in CHIME or SPEECH leaves, but for the reports of the streams taken up. -/
theorem Part.cancelPlaying_silences (p : Part) (r : Playing) (hphase : r.phase ≠ .tail) (hq : p.ann.queue = [])
    (hreports : p.bank.reports = []) :
    let q := p.cancelPlaying r
    q.Ended p.ann.safetyFault ∧ q.ann.last = some ⟨r.entry.set, .dropped, some .cancelled, p.time⟩ ∧
      q.lang.hold = false ∧ q.bank.chimeRouting = false ∧ (∀ l, (q.reader (chan l)).owner = .commentary) ∧
      q.ToCommentary := by
  intro q
  obtain ⟨hann, htime, hrouting, hhold, hto, hpa, hchime, howners⟩ := p.streamsBack_spec hreports
  have hq' : q = p.streamsBack.playingDropped r := p.cancelPlaying_speaking r hphase
  generalize p.streamsBack = s at *
  obtain ⟨light, code, seats, hend, hcue⟩ := s.playingDropped_empty r (by rw [hann]; exact hq)
  rw [hq', hend]
  refine ⟨⟨rfl, ?_, ?_, hcue, hpa, hchime, rfl, rfl, rfl⟩, ?_, hhold, hrouting, howners, hto⟩
  · exact (congrArg Announcer.queue hann).trans hq
  · exact congrArg Announcer.safetyFault hann
  · rw [← htime]

/-- The end of a command whose reports are all to the Commentary Scheduler. -/
theorem Part.Ended.finished {p : Part} {b : Bool} (h : p.Ended b) (hto : p.ToCommentary) :
    let q := p.drain 1024
    q.Ended b ∧ q.ann = p.ann ∧ q.lang.hold = p.lang.hold ∧ q.bank.chimeRouting = p.bank.chimeRouting ∧
      ∀ o, (q.reader o).owner = (p.reader o).owner := by
  intro q
  obtain ⟨honly, _⟩ := Part.drain_toCommentary 1024 p hto
  obtain ⟨howners, hhold⟩ := Part.drain_streams 1024 p hto
  change p.StreamsOnly q at honly
  change ∀ o, (q.reader o).owner = _ at howners
  change q.lang.hold = _ at hhold
  clear_value q
  obtain ⟨hplaying, hqueue, halert, hcue, hpa, hchime, hcls, hphase, hlift⟩ := h
  refine ⟨?_, honly.ann, hhold, ?_, howners⟩
  · unfold Part.Ended
    rw [honly.ann, honly.light, honly.level, howners, howners]
    exact ⟨hplaying, hqueue, halert, hcue, hpa, hchime, hcls, hphase, hlift⟩
  · rw [honly.bank]

/-! ### The last part of a repetition (R89, R91) -/

theorem Language.takenUp_resume (x : Language) (owns : Bool) {d : Resume} (hs : x.stream = .suspended)
    (hd : x.resume = some d) : x.takenUp owns = { x with
      stream := .playing, resume := none, current := x.current.map fun e => { e with started := true } } := by
  unfold Language.takenUp
  rw [if_pos hs]
  simp only [hd]

theorem Language.takenUp_next (x : Language) (owns : Bool) (hs : x.stream = .suspended) (hd : x.resume = none) :
    x.takenUp owns = x.next owns := by
  unfold Language.takenUp
  rw [if_pos hs]
  simp only [hd]

theorem Language.next_nil (x : Language) (owns : Bool) (hw : x.waiting = []) :
    x.next owns = { x with stream := .idle, current := none } := by
  simp only [Language.next, hw]

/-- R91: what the beginning of a tail leaves of each stream and its reader. -/
theorem Part.resumed_stream (p : Part) (l : Lang) (hactive : p.active = true) :
    let y := p.language l
    let q := p.handBack.resumeSignal
    (q.reader (chan l)).owner = .commentary ∧
    (y.stream ≠ .suspended → q.language l = y) ∧
    (∀ d, y.stream = .suspended → y.resume = some d →
      q.language l = { y with
        stream := .playing, resume := none
        current := y.current.map fun e => { e with started := true } } ∧
      ((p.clip d.clip).state = .ready → (p.clip d.clip).pastEnd d.sample = false →
        (q.reader (chan l)).state = .priming ∧
        (q.reader (chan l)).clip = some d.clip ∧
        (q.reader (chan l)).position = d.sample ∧
        (q.reader (chan l)).stopPoint = y.current.bind Entry.cut)) ∧
    (∀ e rest, y.stream = .suspended → y.resume = none → y.waiting = e :: rest →
      q.language l = { y with
        stream := .playing, current := some { e with started := true }, waiting := rest }) ∧
    (y.stream = .suspended → y.resume = none → y.waiting = [] →
      q.language l = { y with stream := .idle, current := none }) := by
  intro y q
  have honly := p.streamsOnly_handBack
  have hlang : p.handBack.language l = p.language l :=
    congrArg (fun a : LangTable => vget a.langs l) p.handBack_lang
  have hresume : q = p.handBack.resumeSignal := rfl
  obtain ⟨howner, hnone⟩ := p.handBack_readers.1 l
  have hsignal := p.handBack.resumeSignal_spec l (honly.active.trans hactive)
  have hkept := p.handBack.resumeSignal_readers.2.1 (chan l)
  clear_value q
  have howns : p.handBack.ownsReader l = true := decide_eq_true howner
  rw [hlang, howns] at hsignal
  rw [← hresume] at hsignal hkept
  clear hresume
  generalize p.handBack = b at *
  obtain ⟨hq, hreader⟩ := hsignal
  refine ⟨hkept.trans howner, fun hs => hq.trans (if_neg hs), fun d hs hd => ⟨?_, fun hready hend => ?_⟩,
    fun e rest hs hd hw => ?_, fun hs hd hw => ?_⟩
  · exact hq.trans (y.takenUp_resume true hs hd)
  · have hclip := (honly.clips d.clip).not_retiring (by simp [hready])
    exact hreader d hs hd hnone (by rw [hclip]; exact hready) (by rw [hclip]; exact hend)
  · exact hq.trans ((y.takenUp_next true hs hd).trans (y.next_cons true hw))
  · exact hq.trans ((y.takenUp_next true hs hd).trans (y.next_nil true hw))

theorem Part.resumed_readers (p : Part) (o : ReaderId) (h : ∀ l, o ≠ chan l) :
    p.handBack.resumeSignal.reader o = p.reader o :=
  (p.handBack.resumeSignal_readers.1 o h).trans (p.handBack_readers.2 o h)

/-- R89: the part of which the last part of a repetition has ended. -/
def Playing.over (r : Playing) : Playing := { r with channels := [], paSpeaking := false }

/-- R91: what the beginning of a tail leaves; `s` is the part with the streams taken up. -/
def Part.tailBegun (s p : Part) (r : Playing) (ends : PartTime) (code : GainCode) (seats : Vector Seat 96) : Part :=
  { s with
    ann := { p.ann with
      playing := some (r.inTail ends), deckAlert := decide (r.entry.cls = .safety) || p.ann.safetyFault }
    level := { p.level with cls := some r.entry.cls, phase := some .tail, lift := 0, paCode := code }
    seats := seats }

/-- R89, R91: the report that ends a repetition: the next one starts, or the tail begins. -/
theorem Part.announcementReport_ends (p : Part) (r : Playing) (o : ReaderId) (hr : p.ann.playing = some r)
    (hphase : r.phase = .speech) (ho : (o = 12 ∧ r.channels = []) ∨
      ∃ l, o = chan l ∧ r.paSpeaking = false ∧ ∀ m ∈ r.channels, m = l) :
    (r.repetition < (p.annSet r.entry.set).repeats → p.announcementReport o =
      Part.startRepetition (p.setPlaying (some { r.over with repetition := r.repetition + 1 }))) ∧
    ((p.annSet r.entry.set).repeats ≤ r.repetition → ∃ code seats,
      let ends := later p.time (1000 * (p.annSet r.entry.set).tail)
      let q := (p.setPlaying (some r.over)).handBack.resumeSignal.tailBegun p r ends code seats
      p.announcementReport o =
        if (p.annSet r.entry.set).tail = 0 then q.endTail (r.inTail ends) else q.offerStart) := by
  have hlast := (p.announcementReport_last r o hr hphase ho).trans
    ((p.setPlaying (some r.over)).endRepetition_over r.over rfl hphase rfl rfl)
  refine ⟨fun hmore => hlast.trans (if_pos hmore), fun hdone => ?_⟩
  obtain ⟨code, seats, hbegin⟩ := Part.beginTail_told r.over (p.setPlaying (some r.over))
  exact ⟨code, seats, (hlast.trans (if_neg (Nat.not_lt.2 hdone))).trans hbegin⟩

/-- Settles O39. -/
theorem announcementsEnd : Obligations.AnnouncementsEnd := by
  refine ⟨?_, fun p hactive => ⟨fun r hr => ?_, ?_⟩⟩
  · intro s tag body i r hq hr a rest silent
    have hsilent : ∀ t : State, t.part.Ended a.safetyFault → silent t := fun t h => h
    have hcancel : exec (.announceCancel tag body) s =
      .next (s.onPart (Part.request .announceCancel tag body (Part.takeAnnounceCancel tag body))) := rfl
    refine ⟨fun n hcan hl hb hphase hn => ?_, fun e d hphase he hei honly hd => ?_, fun d hphase hd hempty => ?_,
      fun hcan hl hb hi hempty => ?_⟩
    · set p : Part := { s.part with link := s.part.takenLink .announceCancel tag body } with hp
      have htaken := Part.takeAnnounceCancel_queued (p := p) (tag := tag) hl hb hn
      rw [p.removeEntry_waits i .cancelled r hr hphase] at htaken
      rw [s.onPart_request _ _ _ (Part.takeAnnounceCancel tag body) _ hcan htaken hq] at hcancel
      refine ⟨_, hcancel, rfl, rfl, rfl, ?_⟩
      exact Link.pump_keeps _ ⟨Kind.byte .announceCancel, tag, 0 :: e8 i.val ++ e8 n, true⟩
        (List.mem_append_right _ (List.mem_singleton.2 rfl))
    · have hexec : exec (.announceEntryExpiry i) s = .next (s.onPart (Part.entryExpiry i)) := rfl
      have hfind : s.part.ann.queue.find? (fun e => decide (e.set = i)) = some e := by
        obtain ⟨x, hx⟩ := Option.isSome_iff_exists.1
          (List.find?_isSome (p := fun e : QEntry => decide (e.set = i)) |>.2 ⟨e, he, by simpa using hei⟩)
        rw [hx, honly x (List.mem_of_find?_eq_some hx) (by simpa using List.find?_some hx)]
      have hexpiry : s.part.entryExpiry i = (s.part.reach d).removeEntry i .expired := by
        simp only [Part.entryExpiry, hfind, Option.bind_some, hd]
      rw [Part.removeEntry_waits i .expired _ r (by rw [Part.reach_ann]; exact hr) hphase] at hexpiry
      rw [s.onPart_eq _ _ hexpiry ((congrArg Bank.reports (s.part.reach_bank d)).trans hq)] at hexec
      refine ⟨_, hexec, rfl, rfl, ?_, rfl⟩
      change { (s.part.reach d).ann with
        queue := (s.part.reach d).ann.queue.filter fun e => decide (e.set ≠ i)
        last := some ⟨i, .dropped, some .expired, (s.part.reach d).time⟩ } = _
      rw [Part.reach_ann]
      rfl
    · have hexec : exec .tailEnd s = .next (s.onPart Part.tailEnds) := rfl
      obtain ⟨hended, htime, hlast, hreaders, hlang, hstore, hsupply, hstrings, hreports⟩ :=
        s.part.tailEnds_spec r d hr hphase hd hempty
      rw [s.onPart_eq _ _ rfl (hreports.trans hq)] at hexec
      exact ⟨_, hexec, rfl, rfl, hended, htime, hlast, hreaders, hlang, hstore, hsupply, hstrings⟩
    · set p : Part := { s.part with link := s.part.takenLink .announceCancel tag body } with hp
      obtain ⟨fields, htaken⟩ := Part.takeAnnounceCancel_playing (p := p) (tag := tag) hl hb hempty hr hi
      by_cases hphase : r.phase = .tail
      · obtain ⟨hended, hlast, hlang, hstore, hreports⟩ := p.cancelPlaying_inTail r hphase hempty
        rw [s.onPart_request _ _ _ (Part.takeAnnounceCancel tag body) _ hcan htaken (hreports.trans hq)] at hcancel
        rw [hi] at hlast
        exact ⟨_, hcancel, rfl, rfl, hended, hlast, fun _ => ⟨hlang, hstore⟩, fun h => absurd hphase h⟩
      · obtain ⟨hended, hlast, hhold, hrouting, howners, hto⟩ := p.cancelPlaying_silences r hphase hempty hq
        rw [hi] at hlast
        have hrequest := s.part.request_taken .announceCancel tag body (Part.takeAnnounceCancel tag body) hcan
        have hon : s.onPart (Part.request .announceCancel tag body (Part.takeAnnounceCancel tag body)) = { s with
            part := (((p.cancelPlaying r).answer .announceCancel tag .ok fields).drain 1024).served } := by
          rw [← htaken, ← hrequest]
          rfl
        have hfin := Part.Ended.finished (p := (p.cancelPlaying r).answer .announceCancel tag .ok fields) hended hto
        generalize ((p.cancelPlaying r).answer .announceCancel tag .ok fields).drain 1024 = q at hon hfin
        obtain ⟨hend, hann, hqhold, hqrouting, hqowners⟩ := hfin
        rw [hon] at hcancel
        exact ⟨_, hcancel, rfl, rfl, hend, (congrArg Announcer.last hann).trans hlast, fun h => absurd h hphase,
          fun _ => ⟨hqhold.trans hhold, hqrouting.trans hrouting, fun l => (hqowners _).trans (howners l)⟩⟩
  · intro x
    refine ⟨?_, fun hphase hc => ?_, fun o hphase ho => ?_⟩
    · intro l rest
      refine ⟨fun hphase hmore => ⟨?_, fun hl => ?_⟩, fun h => p.languageDisabled_silent r l hr h⟩
      · rw [p.announcementReport_channel r l hr hphase]
        exact Part.endRepetition_goesOn _ _ rfl hmore
      intro q
      have hq : q = _ := p.languageDisabled_goesOn r l hr hphase hl hmore
      have honly := p.streamsOnly_stopRelease (chan l)
      obtain ⟨hreader, hothers, _⟩ := p.stopRelease_spec (chan l)
      rw [hq]
      refine ⟨congrArg (fun b : Announcer => { b with playing := some { r with channels := rest } }) honly.ann,
        p.stopRelease_reports (chan l), ?_, hothers⟩
      refine (congrArg Reader.clip hreader).trans ?_
      split
      · assumption
      · rfl
    · rw [p.announcementReport_pa r hr hphase]
      exact Part.endRepetition_goesOn _ _ rfl (.inl hc)
    · obtain ⟨hnext, htail⟩ := p.announcementReport_ends r o hr hphase ho
      have hcalm : (p.setPlaying (some r.over)).active = true := hactive
      have honly := (p.setPlaying (some r.over)).streamsOnly_handBack.trans
        (p.setPlaying (some r.over)).handBack.streamsOnly_resumeSignal
      have hhold := (p.setPlaying (some r.over)).handBack.resumeSignal_readers.2.2
      have hreaders := (p.setPlaying (some r.over)).resumed_readers
      have hstreams := fun l => (p.setPlaying (some r.over)).resumed_stream l hcalm
      dsimp only at hstreams
      generalize (p.setPlaying (some r.over)).handBack.resumeSignal = s at *
      refine ⟨fun hmore hidle hready => ?_, fun hdone htail0 hhead => ?_, fun hdone htail0 hempty => ?_⟩
      · rw [hnext hmore]
        obtain ⟨w, cs, v, hstart, hspeaks, _, _⟩ := Part.startRepetition_starts
          (p.setPlaying (some { r.over with repetition := r.repetition + 1 })) _ rfl hactive hidle hready
        refine ⟨?_, hspeaks, ?_, ?_, ?_⟩
        all_goals rw [hstart]
        all_goals rfl
      · obtain ⟨code, seats, hq⟩ := htail hdone
        dsimp only at hq
        have hwaits := Part.offerStart_waits (s.tailBegun p r (later p.time (1000 * (p.annSet r.entry.set).tail)) code
          seats) rfl fun _ e he => hhead e he
        rw [(hq.trans (if_neg htail0)).trans hwaits]
        exact ⟨rfl, ⟨rfl, rfl, rfl⟩, honly.light, hhold, hreaders 12 fun l => (chan_ne_pa l).symm,
          hreaders 13 fun l => (chan_ne_chime l).symm, hstreams⟩
      · obtain ⟨code, seats, hq⟩ := htail hdone
        dsimp only at hq
        rw [if_pos htail0] at hq
        obtain ⟨light, code', seats', hend, _⟩ := Part.endTail_empty (r.inTail
          (later p.time (1000 * (p.annSet r.entry.set).tail))) (s.tailBegun p r
          (later p.time (1000 * (p.annSet r.entry.set).tail)) code seats) hempty
        rw [hq.trans hend]
        refine ⟨?_, congrArg Reader.owner (unowned_pa _), congrArg Reader.owner (unowned_chime _), hhold, rfl, rfl⟩
        have htime : s.time = p.time := honly.time
        rw [← htime]
        rfl
  · intro l d hs hd hready hend hnone
    obtain ⟨w, page, out, htake⟩ := p.takeUp_resumes l d hs hd hactive hnone hready hend
    rw [htake]
    exact ⟨rfl, fun _ => rfl⟩

end Sys2Proof.Machine
end

section
/-! The memory check: judged pages and ended batches (R12, R13). -/

namespace Sys2Proof.Machine

/-! ### Withdrawn pages (R13, R16) -/

theorem Part.withdrawPages (pages : List Nat) (p : Part) :
    let q := pages.foldl (fun q g => q.withdrawPage g) p
    (∀ n, q.pageEntry n = if n ∈ pages then ⟨.withdrawn, none, none, none⟩ else p.pageEntry n) ∧
      q = { p with store := { p.store with
        pageMap := q.store.pageMap, withdrawnSet := pages.foldl insertPage p.store.withdrawnSet } } := by
  induction pages generalizing p with
  | nil => simp
  | cons x l ih =>
    obtain ⟨h1, h2⟩ := ih (p.withdrawPage x)
    simp only [List.foldl_cons]
    refine ⟨fun n => ?_, ?_⟩
    · have hone : (p.withdrawPage x).pageEntry n = (p.setPage x ⟨.withdrawn, none, none, none⟩).pageEntry n := rfl
      rw [h1, hone, Part.pageEntry_setPage]
      by_cases hx : n = x <;> simp [hx]
    · rw [h2]
      rfl

/-! ### The page under test (R12) -/

theorem setResult_of (r : PageResult) (before rest : List BatchPage) (page : Nat)
    (h : ∀ x ∈ before, x.result ≠ .untested) :
    setResult r (before ++ ⟨page, .untested⟩ :: rest) = before ++ ⟨page, r⟩ :: rest := by
  induction before with
  | nil => rfl
  | cons b before ih =>
    rw [List.cons_append, setResult, if_neg (h b (by simp)), ih fun x hx => h x (List.mem_cons_of_mem b hx)]
    rfl

/-- R12: the page under test is the first untested one. -/
theorem Check.current_of (k : Check) (before rest : List BatchPage) (page : Nat)
    (h : ∀ x ∈ before, x.result ≠ .untested) (hb : k.batch = before ++ ⟨page, .untested⟩ :: rest) :
    k.current = some page := by
  have hnone : before.find? (fun b => decide (b.result = .untested)) = none :=
    List.find?_eq_none.2 fun x hx => by simpa using h x hx
  unfold Check.current
  rw [hb, List.find?_append, hnone]
  rfl

theorem Check.current_none (k : Check) (h : ∀ x ∈ k.batch, x.result ≠ .untested) : k.current = none := by
  unfold Check.current
  rw [List.find?_eq_none.2 fun x hx => by simpa using h x hx]
  rfl

/-- R12: a transfer that judges nothing is followed by the page's next. -/
theorem Part.checkerDone_more (p : Part) (equal : Bool)
    (hright : ¬ (checkWrites p.store.check.made = false ∧ equal = false)) (hmade : p.store.check.made < 63)
    (hcurrent : p.store.check.current ≠ none) : p.checkerDone equal =
      (p.setCheck { p.store.check with made := p.store.check.made + 1 }).placeRequest checkerClient := by
  obtain ⟨n, hn⟩ := Option.ne_none_iff_exists'.1 hcurrent
  have hnext : ({ p.store.check with made := p.store.check.made + 1 } : Check).current = some n := hn
  unfold Part.checkerDone
  simp only [if_neg hright, if_neg (Nat.not_le.2 hmade), hnext] <;> rfl

/-- R12: the completed transfer judges the page under test. -/
def Check.Judges (k : Check) (equal : Bool) (v : PageResult) : Prop :=
  (v = .failed ∧ k.made / 16 % 2 = 1 ∧ equal = false) ∨ (v = .passed ∧ k.made = 63 ∧ equal = true)

theorem checkWrites_false (made : Nat) (h : made / 16 % 2 = 1) : checkWrites made = false := by
  simp [checkWrites, h]

/-- R12: what a judging transfer makes of the check. -/
theorem Part.checkerDone_judges (p : Part) (equal : Bool) (v : PageResult) (h : p.store.check.Judges equal v) :
    p.checkerDone equal =
      let k' := { p.store.check with batch := setResult v p.store.check.batch, made := 0 }
      match k'.current with
      | some _ => (p.setCheck k').placeRequest checkerClient
      | none => (p.setCheck k').endBatch := by
  unfold Part.checkerDone
  rcases h with ⟨rfl, hread, rfl⟩ | ⟨rfl, hmade, rfl⟩
  · simp only [checkWrites_false _ hread, and_self, if_true] <;> rfl
  · simp only [hmade] <;> rfl

theorem PageResult.judged_ne {v : PageResult} {k : Check} {equal : Bool} (h : k.Judges equal v) :
    v ≠ .untested := by
  rcases h with ⟨rfl, _⟩ | ⟨rfl, _⟩ <;> simp

/-! ### A batch that ends (R13) -/

/-- R13: the part once the batch's pages have gone to the Free List and the Withdrawn Set. -/
def Part.batchEnded (p : Part) : Part :=
  let k := p.store.check
  let failed := k.pagesWith .failed
  let q := failed.foldl (fun q g => q.withdrawPage g) ((k.pagesWith .passed).foldl (fun q g => q.freePage g) p)
  let k' := { k with
    tested := k.tested + k.batch.length, withdrawn := k.withdrawn + failed.length
    batch := [], made := 0 }
  if failed = [] then q.setCheck k'
  else (q.setCheck k').raise (.storeCheck k.batch.length failed.length k'.tested k'.withdrawn)

theorem Part.endBatch_eq (p : Part) :
    p.endBatch = if p.batchEnded.store.job.waits then p.batchEnded else p.batchEnded.continueCheck := rfl

theorem Part.batchEnded_spec (p : Part) :
    let k := p.store.check
    let passed := k.pagesWith .passed
    let failed := k.pagesWith .failed
    let k' := { k with
      tested := k.tested + k.batch.length, withdrawn := k.withdrawn + failed.length
      batch := [], made := 0 }
    let q := p.batchEnded
    runsPages q.store.freeList = runsPages p.store.freeList ++ passed ∧
      (∀ n, q.pageEntry n = if n ∈ failed then ⟨.withdrawn, none, none, none⟩
        else if n ∈ passed then PageEntry.empty else p.pageEntry n) ∧
      q = { p with
        store := { p.store with
          pageMap := q.store.pageMap, freeList := q.store.freeList
          withdrawnSet := failed.foldl insertPage p.store.withdrawnSet, check := k' }
        link := if failed = [] then p.link
          else p.link.noted (.storeCheck k.batch.length failed.length k'.tested k'.withdrawn) p.time } := by
  intro k passed failed k' q
  obtain ⟨hfree, hentry, honly⟩ := Part.freePages passed p
  generalize hf : passed.foldl (fun q n => q.freePage n) p = f at hfree hentry honly
  obtain ⟨hgone, hwithdrawn⟩ := Part.withdrawPages failed f
  generalize hw : failed.foldl (fun q g => q.withdrawPage g) f = w at hgone hwithdrawn
  have hq : q = if failed = [] then w.setCheck k'
      else (w.setCheck k').raise (.storeCheck k.batch.length failed.length k'.tested k'.withdrawn) := by
    rw [← hw, ← hf]
    rfl
  have hset : q = { w with
      store := { w.store with check := k' }
      link := if failed = [] then w.link
        else w.link.noted (.storeCheck k.batch.length failed.length k'.tested k'.withdrawn) w.time } := by
    rw [hq]
    by_cases hnil : failed = []
    · rw [if_pos hnil, if_pos hnil]
      rfl
    · rw [if_neg hnil, if_neg hnil, Part.raise_only_link]
      rfl
  refine ⟨?_, fun n => ?_, ?_⟩
  · rw [hset, hwithdrawn]
    exact hfree
  · have hsame : q.pageEntry n = w.pageEntry n := by
      rw [hset]
      rfl
    rw [hsame, hgone, hentry]
  · rw [hset, hwithdrawn, honly]

/-- R11, R13: what the end of a batch leaves. -/
theorem Part.endBatch_spec (p : Part) (hm : p.mem.state = .ready) :
    let k := p.store.check
    let passed := k.pagesWith .passed
    let failed := k.pagesWith .failed
    let free := runsPages p.store.freeList ++ passed
    let k' := { k with
      tested := k.tested + k.batch.length, withdrawn := k.withdrawn + failed.length
      batch := [], made := 0 }
    let waits := p.store.job.waits
    let next := if waits = false ∧ k'.tested < k'.target then free.take (min 16 (k'.target - k'.tested)) else []
    let told := if failed = [] then p.link
      else p.link.noted (.storeCheck k.batch.length failed.length k'.tested k'.withdrawn) p.time
    let q := p.endBatch
    runsPages q.store.freeList = free.drop next.length ∧
      (∀ n, q.pageEntry n = if n ∈ next then ⟨.check, none, none, none⟩
        else if n ∈ failed then ⟨.withdrawn, none, none, none⟩
        else if n ∈ passed then PageEntry.empty else p.pageEntry n) ∧
      q = { p with
        store := { p.store with
          pageMap := q.store.pageMap, freeList := q.store.freeList
          withdrawnSet := failed.foldl insertPage p.store.withdrawnSet
          check := if waits = true then k'
            else if next = [] then { k' with running := false }
            else { k' with batch := next.map fun n => ⟨n, .untested⟩ } }
        mem := if next = [] then p.mem else { p.mem with waiting := vset p.mem.waiting 15 true }
        link := if waits = false ∧ next = [] then told.answer .storeCheck k.tag
            (0 :: e32 k'.target ++ e32 k'.tested ++ e32 k'.withdrawn)
          else told } := by
  intro k passed failed free k' waits next told q
  obtain ⟨hfree, hentry, honly⟩ := p.batchEnded_spec
  have hend := p.endBatch_eq
  generalize p.batchEnded = b at hfree hentry honly hend
  have hjob : b.store.job = p.store.job := by rw [honly]
  have hcheck : b.store.check = k' := by rw [honly]
  have hmem : b.mem = p.mem := by rw [honly]
  rw [hjob] at hend
  cases hw : waits with
  | true =>
    have hnil : next = [] := if_neg fun h => absurd (hw.symm.trans h.1) (by simp)
    have hq : q = b := hend.trans (if_pos hw)
    rw [hnil, hq]
    refine ⟨hfree, fun n => (hentry n).trans (if_neg (by simp)).symm, ?_⟩
    rw [if_pos (rfl : true = true), if_pos (rfl : ([] : List Nat) = []),
      if_neg (fun h : true = false ∧ ([] : List Nat) = [] => Bool.noConfusion h.1)]
    exact honly
  | false =>
    have hq : q = b.continueCheck := hend.trans (if_neg (by rw [show p.store.job.waits = false from hw]; simp))
    have hnext : next = b.store.check.nextPages (runsPages b.store.freeList) := by
      rw [hcheck, hfree]
      by_cases hless : k'.tested < k'.target
      · exact (if_pos ⟨hw, hless⟩).trans (if_pos hless).symm
      · exact (if_neg fun h => hless h.2).trans (if_neg hless).symm
    by_cases hnil : next = []
    · have hstop : q = b.endCheck := hq.trans (b.continueCheck_ends (hnext.symm.trans hnil))
      have hdone : b.endCheck = { b with
          store := { b.store with check := { k' with running := false } }
          link := b.link.answer .storeCheck k.tag (0 :: e32 k'.target ++ e32 k'.tested ++ e32 k'.withdrawn) } := by
        unfold Part.endCheck
        rw [hcheck]
        rfl
      rw [hstop, hdone, hnil]
      refine ⟨hfree, fun n => (hentry n).trans (if_neg (by simp)).symm, ?_⟩
      rw [if_neg Bool.false_ne_true, if_pos (rfl : ([] : List Nat) = []), if_pos (rfl : ([] : List Nat) = []),
        if_pos (⟨rfl, rfl⟩ : false = false ∧ ([] : List Nat) = []), honly]
    · obtain ⟨hform, hdrop, hpages⟩ := b.continueCheck_forms (by rw [hmem]; exact hm) (by rw [← hnext]; exact hnil)
      rw [← hnext, ← hq] at hform hdrop hpages
      refine ⟨hdrop.trans (by rw [hfree]), fun n => ?_, ?_⟩
      · rw [hpages, hentry]
      · rw [if_neg Bool.false_ne_true, if_neg hnil, if_neg hnil,
          if_neg (fun h : false = false ∧ next = [] => hnil h.2)]
        rw [hcheck] at hform
        rw [hform, honly]

/-- Settles O18. -/
theorem checkerJudgesPagesAndBatches : Obligations.CheckerJudgesPagesAndBatches := by
  intro s equal g b hq hmem hdev k mem judged
  have hexec : exec (.checkerTransferCompletion equal) s = .next (s.onPart
    (Part.writeCompletes checkerClient fun p => p.freeDevice.checkerDone equal)) := rfl
  set p : Part := s.part.freeDevice with hp
  have hcompletes : Part.writeCompletes checkerClient (fun p => p.freeDevice.checkerDone equal) s.part =
      p.checkerDone equal := by
    simp only [Part.writeCompletes, hdev]
    rfl
  have hplace : ∀ k' : Check, (p.setCheck k').placeRequest checkerClient =
      { s.part with mem := mem, store := { s.part.store with check := k' } } := fun k' =>
    (Part.placeRequest_ready _ (p.setCheck k') hmem).trans rfl
  have hgoes : ∀ k' : Check, p.checkerDone equal = (p.setCheck k').placeRequest checkerClient →
      exec (.checkerTransferCompletion equal) s = .next { s with
        part := { s.part.served with mem := mem, store := { s.part.store with check := k' } } } := by
    intro k' hk
    exact congrArg Host.Outcome.next
      (s.onPart_eq _ _ (hcompletes.trans (hk.trans (hplace k'))) hq)
  refine ⟨fun hmade hright hcurrent => hgoes _ ?_, fun before page next rest v hv hbefore hbatch => hgoes _ ?_,
    fun before page v hv hbefore hbatch => ?_⟩
  · refine Part.checkerDone_more p equal (fun ⟨hw, he⟩ => ?_) hmade hcurrent
    rcases hright with h | h
    · exact absurd (show checkWrites k.made = false from hw) (by simp [checkWrites, h])
    · exact absurd (h.symm.trans he) (by simp)
  · have hset : setResult v p.store.check.batch = before ++ ⟨page, v⟩ :: ⟨next, .untested⟩ :: rest := by
      rw [show p.store.check.batch = _ from hbatch]
      exact setResult_of v before _ page hbefore
    have hjudged : ∀ x ∈ before ++ [⟨page, v⟩], x.result ≠ .untested := fun x hx => by
      rcases List.mem_append.1 hx with hx | hx
      · exact hbefore x hx
      · rw [List.mem_singleton.1 hx]
        exact PageResult.judged_ne hv
    have hcurrent := Check.current_of { k with
      made := 0, batch := before ++ ⟨page, v⟩ :: ⟨next, .untested⟩ :: rest } (before ++ [⟨page, v⟩]) rest next
      hjudged (by rw [List.append_assoc]; rfl)
    rw [p.checkerDone_judges equal v hv, hset]
    change (match ({ k with made := 0, batch := before ++ ⟨page, v⟩ :: ⟨next, .untested⟩ :: rest } : Check).current with
      | some _ => _
      | none => _) = _
    rw [hcurrent] <;> rfl
  · have hset : setResult v p.store.check.batch = before ++ [⟨page, v⟩] := by
      rw [show p.store.check.batch = _ from hbatch]
      exact setResult_of v before [] page hbefore
    have hjudged : ∀ x ∈ before ++ [⟨page, v⟩], x.result ≠ .untested := fun x hx => by
      rcases List.mem_append.1 hx with hx | hx
      · exact hbefore x hx
      · rw [List.mem_singleton.1 hx]
        exact PageResult.judged_ne hv
    let ending : Check := { k with batch := before ++ [⟨page, v⟩], made := 0 }
    have hnone : ending.current = none := ending.current_none hjudged
    have hdone : p.checkerDone equal = (p.setCheck ending).endBatch := by
      rw [p.checkerDone_judges equal v hv, hset]
      change (match ending.current with
        | some _ => _
        | none => _) = _
      rw [hnone] <;> rfl
    obtain ⟨hfree, hentry, honly⟩ := (p.setCheck ending).endBatch_spec hmem
    have hcompleted := hcompletes.trans hdone
    generalize (p.setCheck ending).endBatch = q at hfree hentry honly hcompleted
    rw [s.onPart_eq _ q hcompleted (by rw [honly]; exact hq)] at hexec
    refine ⟨_, hexec, rfl, rfl, ?_⟩
    intro batch passed failed free k' waits next told
    refine ⟨hfree, ?_, fun n hn => ?_, fun n hn hout => ?_, fun n hn hout hgood => ?_, ?_, ?_, ?_, ?_⟩
    · change q.store.withdrawnSet = _
      rw [honly]
      rfl
    · exact congrArg PageEntry.state ((hentry n).trans (if_pos hn))
    · exact congrArg PageEntry.state ((hentry n).trans ((if_neg hout).trans (if_pos hn)))
    · exact (hentry n).trans ((if_neg hout).trans ((if_neg hgood).trans (if_pos hn)))
    · change q.store.check = _
      rw [honly]
      rfl
    · change q.store.clips = _
      rw [honly]
      rfl
    · change q.store.job = _
      rw [honly]
      rfl
    · have hmemq : q.mem = if next = [] then { s.part.mem with device := .idle } else mem := by
        rw [honly]
        rfl
      have hlink : q.link = if waits = false ∧ next = [] then told.answer .storeCheck k.tag
          (0 :: e32 k'.target ++ e32 k'.tested ++ e32 k'.withdrawn) else told := by
        rw [honly]
        rfl
      have hrest : q = { s.part with store := q.store, mem := q.mem, link := q.link } := by
        rw [honly]
        rfl
      rw [hmemq, hlink] at hrest
      exact congrArg Part.served hrest

end Sys2Proof.Machine
end

section
/-! An idle device stays idle while readers, streams and announcements go on: only a grant gives it work (R6). -/

namespace Sys2Proof.Machine

/-! ### The relation -/

/-- The device, when idle, stays idle. -/
def Part.IdleKept (p q : Part) : Prop := p.mem.device = .idle → q.mem.device = .idle

theorem Part.IdleKept.refl (p : Part) : p.IdleKept p := id

theorem Part.IdleKept.trans {p q r : Part} (h : p.IdleKept q) (k : q.IdleKept r) : p.IdleKept r := fun hp => k (h hp)

theorem Part.IdleKept.of_mem {p q : Part} (h : q.mem = p.mem) : p.IdleKept q := fun hp => by rw [h]; exact hp

/-- An operation on a part with the same memory record. -/
theorem Part.IdleKept.after {p p' q : Part} (h : p'.IdleKept q) (hm : p'.mem = p.mem) : p.IdleKept q :=
  (IdleKept.of_mem hm).trans h

theorem Part.IdleKept.foldl {α : Type} (f : α → Part → Part) (h : ∀ m q, Part.IdleKept q (f m q))
    (l : List α) (p : Part) : p.IdleKept (l.foldl (fun q m => f m q) p) :=
  foldl_keeps (I := fun q => p.IdleKept q) f l p (fun m _ q hq => hq.trans (h m q)) (.refl p)

theorem Part.IdleKept.eachLanguage (f : Lang → Part → Part) (h : ∀ m q, Part.IdleKept q (f m q)) (p : Part) :
    p.IdleKept (p.eachLanguage f) := .foldl f h _ p

theorem Part.IdleKept.eachReader (f : ReaderId → Part → Part) (h : ∀ r q, Part.IdleKept q (f r q)) (p : Part) :
    p.IdleKept (p.eachReader f) := .foldl f h _ p

/-! ### Operations that leave the memory record -/

theorem Part.raise_mem (p : Part) (n : Notice) : (p.raise n).mem = p.mem := by rw [Part.raise_only_link]

theorem Part.annNotice_mem (p : Part) (i : SetId) (e : AnnEvent) (r : Option AnnReason) :
    (p.annNotice i e r).mem = p.mem := by
  unfold Part.annNotice
  split <;> exact Part.raise_mem _ _

theorem Part.releaseHold_mem (p : Part) (c : ClipId) : (p.releaseHold c).mem = p.mem := by
  have hclear : ∀ q : Part, (q.clearClip c).mem = q.mem := fun q => by rw [(q.clearClip_spec c).2.2.2.2]
  unfold Part.releaseHold Part.freeClip
  dsimp only
  split
  · split
    · rw [Part.raise_mem, hclear]
      rfl
    · rw [hclear]
      rfl
  · rfl

theorem Part.tellPlaying_mem (p : Part) : p.tellPlaying.mem = p.mem := by
  obtain ⟨_, _, h⟩ := p.tellPlaying_only
  rw [h]

theorem Part.closeTail_mem (r : Playing) (p : Part) : (p.closeTail r).mem = p.mem := by
  obtain ⟨_, h⟩ := p.closeTail_only r
  rw [h]

theorem Part.primeReader_mem (r : ReaderId) (p : Part) : (p.primeReader r).mem = p.mem := by
  obtain ⟨_, h, _⟩ := p.primeReader_spec r
  rw [h]
  rfl

/-! ### Readers -/

theorem Part.idleKept_clearReader (r : ReaderId) (p : Part) : p.IdleKept (p.clearReader r) := fun hp => by
  change (match p.mem.device with
    | .transfer c page block w => _
    | d => d) = _
  rw [hp] <;> rfl

theorem Part.idleKept_stopRelease (r : ReaderId) (p : Part) : p.IdleKept (p.stopRelease r) := by
  unfold Part.stopRelease
  split
  · exact .refl p
  · exact (p.idleKept_clearReader r).trans (.of_mem (Part.releaseHold_mem _ _))

theorem Part.idleKept_endReader (r : ReaderId) (k : ReportKind) (p : Part) : p.IdleKept (p.endReader r k) :=
  (p.idleKept_stopRelease r).trans (.of_mem rfl)

theorem Part.idleKept_setStop (r : ReaderId) (n : Nat) (p : Part) : p.IdleKept (p.setStop r n) := by
  unfold Part.setStop
  split <;> exact .of_mem rfl

theorem Part.idleKept_fetch (r : ReaderId) (p : Part) : p.IdleKept (p.fetch r) := by
  rcases Part.fetch_cases r p with h | ⟨g, _, h⟩
  · exact .of_mem (congrArg Part.mem h)
  · intro hp
    rw [h]
    exact hp

theorem Part.idleKept_beginReader (r : ReaderId) (c : ClipId) (n : Nat) (p : Part) :
    p.IdleKept (p.beginReader r c n) := by
  unfold Part.beginReader
  extract_lets
  split
  · exact (Part.idleKept_endReader _ _ _).after rfl
  · split
    · exact .of_mem rfl
    · exact (Part.idleKept_fetch _ _).after rfl

theorem Part.idleKept_startReader (r : ReaderId) (c : ClipId) (n : Nat) (h : HoldKind) (p : Part) :
    p.IdleKept (p.startReader r c n h) := by
  unfold Part.startReader
  extract_lets q
  have hq : p.IdleKept q := p.idleKept_stopRelease r
  split
  · exact .refl p
  · split
    · refine hq.trans ?_
      cases h with
      | take => exact .of_mem rfl
      | transfer => exact .of_mem (Part.releaseHold_mem _ _)
    · refine hq.trans ?_
      cases h with
      | take => exact (Part.idleKept_beginReader _ _ _ _).after rfl
      | transfer => exact Part.idleKept_beginReader _ _ _ _

theorem Part.idleKept_readerGrown (c : ClipId) (r : ReaderId) (p : Part) : p.IdleKept (p.readerGrown c r) := by
  unfold Part.readerGrown
  extract_lets
  split
  · exact (Part.idleKept_fetch _ _).after rfl
  · exact .refl p

theorem Part.idleKept_readerClosed (c : ClipId) (r : ReaderId) (p : Part) : p.IdleKept (p.readerClosed c r) := by
  unfold Part.readerClosed
  split
  · split
    · exact p.idleKept_endReader r _
    · exact (p.idleKept_readerGrown c r).trans (.of_mem (Part.primeReader_mem _ _))
  · exact .refl p

/-! ### Streams -/

theorem Part.idleKept_streamNotice (p : Part) (l : Lang) (r : StreamReason) : p.IdleKept (p.streamNotice l r) :=
  .of_mem (Part.raise_mem _ _)

theorem Part.idleKept_startEntry (l : Lang) (p : Part) : p.IdleKept (p.startEntry l) := by
  unfold Part.startEntry
  split
  · exact .refl p
  · split
    · exact (Part.idleKept_startReader _ _ _ _ _).after rfl
    · exact .refl p

theorem Part.idleKept_playNext (l : Lang) (p : Part) : p.IdleKept (p.playNext l) := by
  unfold Part.playNext
  extract_lets
  split
  · exact .of_mem rfl
  · exact (Part.idleKept_startEntry _ _).after rfl

theorem Part.idleKept_commentaryReport (l : Lang) (k : ReportKind) (p : Part) :
    p.IdleKept (p.commentaryReport l k) := by
  unfold Part.commentaryReport
  extract_lets x q t
  have hq : p.IdleKept q := .of_mem rfl
  have ht : p.IdleKept t := by
    unfold t
    split
    · exact hq
    · exact hq
    · exact hq
    · exact hq.trans (q.idleKept_streamNotice _ _)
    · exact hq.trans (q.idleKept_streamNotice _ _)
    · exact hq.trans (q.idleKept_streamNotice _ _)
  clear_value t
  split
  · exact .refl p
  · split
    · split
      · exact ht.trans (Part.idleKept_playNext _ _)
      · exact ht
    · exact .refl p

theorem Part.idleKept_handOver (l : Lang) (p : Part) : p.IdleKept (p.handOver l) := by
  unfold Part.handOver
  extract_lets x src q
  have hq : p.IdleKept q := by
    unfold q
    split
    · exact .refl p
    · exact p.idleKept_clearReader _
  exact hq.trans (.of_mem rfl)

theorem Part.idleKept_suspendStream (l : Lang) (p : Part) : p.IdleKept (p.suspendStream l) := by
  unfold Part.suspendStream
  extract_lets x
  split
  · split
    · split
      · exact .of_mem rfl
      · extract_lets q
        have hq : p.IdleKept q := .of_mem rfl
        split
        · exact hq.trans (q.idleKept_streamNotice _ _)
        · exact hq
    · exact .of_mem rfl
  · exact .refl p

theorem Part.idleKept_takeReaders (p : Part) : p.IdleKept p.takeReaders := by
  unfold Part.takeReaders
  split
  · exact .of_mem rfl
  · extract_lets q t src u
    have hq : p.IdleKept q := .eachLanguage (fun l q => q.handOver l) (fun l q => q.idleKept_handOver l) p
    clear_value q
    have hu : q.IdleKept u := .of_mem rfl
    clear_value u
    exact hq.trans (hu.trans (.eachLanguage (fun l q => q.suspendStream l) (fun l q => q.idleKept_suspendStream l) u))

theorem Part.idleKept_handBack (p : Part) : p.IdleKept p.handBack :=
  .eachLanguage (fun l q => (q.stopRelease (chan l)).setOwner (chan l) .commentary) (fun l q => by
    have hq := q.idleKept_stopRelease (chan l)
    generalize q.stopRelease (chan l) = t at hq
    exact hq.trans (.of_mem rfl)) p

theorem Part.idleKept_takeUp (l : Lang) (p : Part) : p.IdleKept (p.takeUp l) := by
  unfold Part.takeUp
  extract_lets x e q
  split
  · split
    · extract_lets t u
      have hq : p.IdleKept q := .of_mem rfl
      have ht : q.IdleKept t := q.idleKept_startReader _ _ _ _
      have hu : t.IdleKept u := by
        unfold u
        split
        · exact t.idleKept_setStop _ _
        · exact .refl t
      clear_value u t q
      exact hq.trans (ht.trans (hu.trans (u.idleKept_streamNotice _ _)))
    · exact (p.idleKept_playNext l).trans (Part.idleKept_streamNotice _ _ _)
  · exact .refl p

theorem Part.idleKept_resumeSignal (p : Part) : p.IdleKept p.resumeSignal :=
  .trans (q := { p with lang := { p.lang with hold := false } }) (.of_mem rfl)
    (.eachLanguage (fun l q => q.takeUp l) (fun l q => q.idleKept_takeUp l) _)

/-! ### Announcements -/

theorem Part.idleKept_startRepetition (p : Part) : p.IdleKept p.startRepetition := by
  unfold Part.startRepetition
  split
  · exact .refl p
  · extract_lets s on q t
    have hq : p.IdleKept q := .of_mem rfl
    have ht : q.IdleKept t := .foldl (fun l q => q.startReader (chan l) (s.chooseClip (p.language l).fallback l) 0 .take)
      (fun l q => q.idleKept_startReader _ _ _ _) on q
    clear_value t
    exact hq.trans (ht.trans (t.idleKept_startReader _ _ _ _))

theorem Part.idleKept_startHead (e : QEntry) (rest : List QEntry) (p : Part) : p.IdleKept (p.startHead e rest) := by
  unfold Part.startHead
  extract_lets s a phase b c d f g
  have ha : p.IdleKept a := by
    unfold a
    split
    · exact .of_mem (p.closeTail_mem _)
    · exact .refl p
  have hc : a.IdleKept c := (Part.idleKept_takeReaders _).after (Part.annNotice_mem _ _ _ _)
  have hd : c.IdleKept d := by
    unfold d
    split
    · exact (Part.idleKept_startReader _ _ _ _ _).after rfl
    · exact c.idleKept_startRepetition
  have hg : f.IdleKept g := by
    unfold g
    split <;> exact .of_mem rfl
  exact ha.trans (hc.trans (hd.trans ((IdleKept.of_mem d.tellPlaying_mem).trans (hg.trans (.of_mem rfl)))))

theorem Part.idleKept_offerStart (p : Part) : p.IdleKept p.offerStart := by
  unfold Part.offerStart
  split
  · exact .refl p
  · split
    · split
      · exact p.idleKept_startHead _ _
      · split
        · exact p.idleKept_startHead _ _
        · exact .refl p
    · exact .refl p

theorem Part.idleKept_endTail (r : Playing) (p : Part) : p.IdleKept (p.endTail r) := by
  have ht : p.IdleKept (p.closeTail r).tellPlaying :=
    .of_mem ((Part.tellPlaying_mem _).trans (Part.closeTail_mem r p))
  have he : p.endTail r = ((p.closeTail r).tellPlaying).offerStart.judgeAlert := rfl
  rw [he]
  generalize (p.closeTail r).tellPlaying = t at ht
  exact ht.trans (t.idleKept_offerStart.trans (.of_mem rfl))

theorem Part.idleKept_beginTail (r : Playing) (p : Part) : p.IdleKept (p.beginTail r) := by
  unfold Part.beginTail
  extract_lets tail r' q t
  have hq : p.IdleKept q := by
    have hback := p.idleKept_handBack.trans (Part.idleKept_resumeSignal _)
    have he : q = p.handBack.resumeSignal.setPlaying (some r') := rfl
    rw [he]
    generalize p.handBack.resumeSignal = b at hback
    exact hback.trans (.of_mem rfl)
  have ht : p.IdleKept t := by
    have he : t = q.tellPlaying.judgeAlert := rfl
    rw [he]
    have htold := hq.trans (.of_mem q.tellPlaying_mem)
    generalize q.tellPlaying = b at htold
    exact htold.trans (.of_mem rfl)
  clear_value t
  split
  · exact ht.trans (Part.idleKept_endTail _ _)
  · exact ht.trans (Part.idleKept_offerStart _)

theorem Part.idleKept_endRepetition (p : Part) : p.IdleKept p.endRepetition := by
  unfold Part.endRepetition
  split
  · exact .refl p
  · split
    · split
      · exact (Part.idleKept_startRepetition _).after rfl
      · exact p.idleKept_beginTail _
    · exact .refl p

theorem Part.idleKept_announcementReport (r : ReaderId) (p : Part) : p.IdleKept (p.announcementReport r) := by
  unfold Part.announcementReport
  split
  · exact .refl p
  · split
    · split
      · exact (Part.idleKept_startRepetition _).after (Part.tellPlaying_mem _)
      · exact .refl p
    · split <;> exact (Part.idleKept_endRepetition _).after rfl
    · exact .refl p

/-! ### Reader reports -/

theorem Part.idleKept_takeReport (x : Report) (p : Part) : p.IdleKept (p.takeReport x) := by
  unfold Part.takeReport
  split
  · split
    · exact p.idleKept_commentaryReport _ _
    · exact .refl p
  · exact p.idleKept_announcementReport _
  · exact .refl p

theorem Part.idleKept_drain (n : Nat) (p : Part) : p.IdleKept (p.drain n) := by
  induction n generalizing p with
  | zero => exact .of_mem rfl
  | succ n ih =>
    unfold Part.drain
    split
    · exact .refl p
    · refine .trans ?_ (ih _)
      exact (Part.idleKept_takeReport _ { p with bank := { p.bank with reports := _ } }).after rfl

/-- The end of a command gives an idle device no work. -/
theorem Part.idleKept_finish (p : Part) : p.IdleKept p.finish := (p.idleKept_drain 1024).trans (.of_mem rfl)

end Sys2Proof.Machine
end

section
/-! The completions of the loader's writes, and the readers that are told of them (R25 to R28, R40, R45). -/

namespace Sys2Proof.Machine

/-! ### Readers told in turn -/

/-- The requests that wait stand. -/
def StillWaiting (v w : Vector Bool 16) : Prop := ∀ x, vget v x = true → vget w x = true

theorem Part.sampled_self (p : Part) : p.sampled p.mem.waiting p.bank.readers = p := rfl

/-- A turn for each reader, which writes that reader and read requests, leaves for each what its own turn gives. -/
theorem Part.eachReader_turns (f : ReaderId → Part → Part) (p : Part)
    (P : ReaderId → Reader → Vector Bool 16 → Prop)
    (hmono : ∀ r y v w, P r y v → StillWaiting v w → P r y w)
    (hturn : ∀ r w v, vget v r = p.reader r → ∃ w' y, f r (p.sampled w v) = p.sampled w' (vset v r y) ∧
      P r y w' ∧ StillWaiting w w') :
    ∃ w v, p.eachReader f = p.sampled w v ∧ (∀ r, P r (vget v r) w) ∧ StillWaiting p.mem.waiting w := by
  have hlist : ∀ (rs : List ReaderId), rs.Nodup → ∀ w v, (∀ r ∈ rs, vget v r = p.reader r) →
      ∃ w' v', rs.foldl (fun q r => f r q) (p.sampled w v) = p.sampled w' v' ∧ (∀ r ∈ rs, P r (vget v' r) w') ∧
        (∀ r, r ∉ rs → vget v' r = vget v r) ∧ StillWaiting w w' := by
    intro rs
    induction rs with
    | nil => exact fun _ w v _ => ⟨w, v, rfl, fun r hr => absurd hr (by simp), fun _ _ => rfl, fun _ h => h⟩
    | cons r rs ih =>
      intro hnd w v hv
      obtain ⟨hr, hnd⟩ := List.nodup_cons.1 hnd
      obtain ⟨w1, y, hone, hy, hw1⟩ := hturn r w v (hv r (by simp))
      obtain ⟨w2, v2, hrest, hdone, hstand, hw2⟩ := ih hnd w1 (vset v r y) fun o ho => by
        rw [vget_vset_ne _ _ fun he => hr (by rw [← he]; exact ho)]
        exact hv o (List.mem_cons_of_mem r ho)
      refine ⟨w2, v2, ?_, fun o ho => ?_, fun o ho => ?_, fun x hx => hw2 x (hw1 x hx)⟩
      · rw [List.foldl_cons, hone, hrest]
      · rcases List.mem_cons.1 ho with rfl | ho
        · rw [hstand _ hr, vget_vset_same]
          exact hmono _ _ _ _ hy hw2
        · exact hdone o ho
      · obtain ⟨hne, ho⟩ := not_or.1 (mt List.mem_cons.2 ho)
        rw [hstand o ho, vget_vset_ne _ _ hne]
  obtain ⟨w, v, hall, hdone, _, hw⟩ := hlist (List.finRange 14) (List.nodup_finRange 14) p.mem.waiting p.bank.readers
    fun _ _ => rfl
  exact ⟨w, v, hall, fun r => hdone r (List.mem_finRange r), hw⟩

/-! ### The clip has more fully written blocks (R27, R40, R45) -/

/-- R40: a fetch that may place its request places it. -/
theorem Part.fetch_places (p : Part) (r : ReaderId) (x : Reader) (c : ClipId) (n : Nat) (hc : x.clip = some c)
    (hpage : x.page = some n) (hidle : x.state ≠ .idle) (hwait : x.wait = false) (hroom : x.buffer.length ≤ 6)
    (hnext : x.nextBlock < (p.clip c).writtenBlocks) (hm : p.mem.state = .ready) :
    (p.setReader r x).fetch r = p.sampled (if x.outstanding then p.mem.waiting else vset p.mem.waiting (ringOf r) true)
      (vset p.bank.readers r { x with outstanding := true }) := by
  obtain ⟨state, owner, clip, position, nextBlock, page, buffer, outstanding, wait, stop⟩ := x
  obtain rfl : clip = some c := hc
  obtain rfl : page = some n := hpage
  obtain rfl : wait = false := hwait
  unfold Part.fetch
  simp only [Part.reader_setReader]
  cases outstanding with
  | true => exact if_neg fun h => Bool.false_ne_true h.2.2.1.symm
  | false =>
    refine (if_pos ⟨hidle, trivial, rfl, hroom, hnext, hm⟩).trans ?_
    rw [Part.setReader_setReader]
    exact Part.placeRequest_ready _ _ hm

/-- R40, R45: `y` is the reader `x` of number `r`, told that its clip is playable or not and how many of its blocks
are fully written, with the requests `w` waiting. -/
def Reader.Regrown (x : Reader) (playable : Bool) (blocks : Nat) (m : MemoryState) (r : ReaderId) (y : Reader)
    (w : Vector Bool 16) : Prop :=
  y = { x with
    wait := x.wait && !playable
    state := if x.state = .starved ∧ x.nextBlock < blocks then .running else x.state
    page := y.page, outstanding := y.outstanding } ∧
  ∀ n, x.page = some n → x.state ≠ .idle → (x.wait && !playable) = false → x.buffer.length ≤ 6 →
    x.nextBlock < blocks → m = .ready →
    y.page = some n ∧ y.outstanding = true ∧ (x.outstanding = false → vget w (ringOf r) = true)

theorem Reader.Regrown.mono {x y : Reader} {playable : Bool} {blocks : Nat} {m : MemoryState} {r : ReaderId}
    {v w : Vector Bool 16} (h : x.Regrown playable blocks m r y v) (hw : StillWaiting v w) :
    x.Regrown playable blocks m r y w :=
  ⟨h.1, fun n hn hidle hwait hroom hnext hm =>
    let ⟨hpage, hout, hasked⟩ := h.2 n hn hidle hwait hroom hnext hm
    ⟨hpage, hout, fun ho => hw _ (hasked ho)⟩⟩

theorem Part.fetch_waiting (p : Part) (r : ReaderId) (x : Reader) :
    ∃ w page out, (p.setReader r x).fetch r =
      p.sampled w (vset p.bank.readers r { x with page := page, outstanding := out }) ∧
        StillWaiting p.mem.waiting w := by
  rcases Part.fetch_cases r (p.setReader r x) with h | ⟨g, _, h⟩
  · exact ⟨p.mem.waiting, x.page, x.outstanding, h, fun _ h => h⟩
  · refine ⟨vset p.mem.waiting (ringOf r) true, some g, true, h.trans ?_, fun a ha => ?_⟩
    · rw [Part.reader_setReader]
      simp only [Part.setReader, vset_vset]
      rfl
    · rw [vget_vset]
      split
      · rfl
      · exact ha

/-- R40, R45: the turn of one reader. -/
theorem Part.readerGrown_turn (p : Part) (c : ClipId) (r : ReaderId) (w : Vector Bool 16) (v : Vector Reader 14)
    (hv : vget v r = p.reader r) (hc : (p.reader r).clip = some c) :
    ∃ w' y, (p.sampled w v).readerGrown c r = p.sampled w' (vset v r y) ∧ 
      (p.reader r).Regrown (p.clip c).playable (p.clip c).writtenBlocks p.mem.state r y w' ∧ StillWaiting w w' := by
  have hreader : (p.sampled w v).reader r = p.reader r := hv
  let k := p.clip c
  let x := p.reader r
  let x' : Reader := { x with
    page := (match x.page with
      | some g => some g
      | none => pageAt p.store.pageMap (x.nextBlock / Config.pageBlocks) k.firstPage)
    wait := x.wait && !k.playable
    state := if x.state = .starved ∧ x.nextBlock < k.writtenBlocks then .running else x.state }
  have hgrown : (p.sampled w v).readerGrown c r = ((p.sampled w v).setReader r x').fetch r := by
    unfold Part.readerGrown
    rw [hreader]
    exact if_pos hc
  by_cases hcan : ∃ n, x.page = some n ∧ x.state ≠ .idle ∧ (x.wait && !k.playable) = false ∧ x.buffer.length ≤ 6 ∧
      x.nextBlock < k.writtenBlocks ∧ p.mem.state = .ready
  · obtain ⟨n, hn, hidle, hwait, hroom, hnext, hm⟩ := hcan
    have hpage : x'.page = some n := by
      change (match x.page with
        | some g => some g
        | none => _) = _
      rw [hn]
    have hstate : x'.state ≠ .idle := by
      change (if _ then _ else _) ≠ _
      split
      · simp
      · exact hidle
    refine ⟨_, _, hgrown.trans (Part.fetch_places (p.sampled w v) r x' c n hc hpage hstate hwait hroom hnext hm),
      ⟨rfl, fun n' hn' _ _ _ _ _ => ⟨?_, rfl, fun hout => ?_⟩⟩, fun a ha => ?_⟩
    · exact hpage.trans (hn.symm.trans hn')
    · rw [if_neg (by rw [show x'.outstanding = false from hout]; exact Bool.false_ne_true)]
      exact vget_vset_same _ _ _
    · split
      · exact ha
      · rw [vget_vset]
        split
        · rfl
        · exact ha
  · obtain ⟨w', page, out, hf, hw⟩ := (p.sampled w v).fetch_waiting r x'
    refine ⟨w', _, hgrown.trans hf, ⟨rfl, fun n hn hidle hwait hroom hnext hm => ?_⟩, hw⟩
    exact absurd ⟨n, hn, hidle, hwait, hroom, hnext, hm⟩ hcan

/-- R26, R27, R40, R45: the readers of the clip are told, and the others stand. -/
theorem Part.eachReader_grown (p : Part) (c : ClipId) :
    ∃ w v, (p.eachReader fun r q => q.readerGrown c r) = p.sampled w v ∧ StillWaiting p.mem.waiting w ∧
      ∀ r, ((p.reader r).clip ≠ some c → vget v r = p.reader r) ∧
        ((p.reader r).clip = some c →
          (p.reader r).Regrown (p.clip c).playable (p.clip c).writtenBlocks p.mem.state r (vget v r) w) := by
  obtain ⟨w, v, hall, hdone, hw⟩ := p.eachReader_turns (fun r q => q.readerGrown c r)
    (fun r y w => ((p.reader r).clip ≠ some c → y = p.reader r) ∧
      ((p.reader r).clip = some c →
        (p.reader r).Regrown (p.clip c).playable (p.clip c).writtenBlocks p.mem.state r y w))
    (fun r y v w h hw => ⟨h.1, fun hc => (h.2 hc).mono hw⟩)
    (fun r w v hv => by
      by_cases hc : (p.reader r).clip = some c
      · obtain ⟨w', y, hone, hy, hw⟩ := p.readerGrown_turn c r w v hv hc
        exact ⟨w', y, hone, ⟨fun hne => absurd hc hne, fun _ => hy⟩, hw⟩
      · have hreader : (p.sampled w v).reader r = p.reader r := hv
        refine ⟨w, p.reader r, ?_, ⟨fun _ => rfl, fun h => absurd h hc⟩, fun _ h => h⟩
        rw [← hv, vset_vget]
        unfold Part.readerGrown
        rw [hreader]
        exact if_neg hc)
  exact ⟨w, v, hall, hw, hdone⟩

/-! ### A write of a fill completes (R25, R26) -/

/-- R26: the flag is set, and READY-TO-PLAY raised with it, when the clip is playable. -/
theorem Part.readyToPlay_spec (p : Part) (c : ClipId) (playable : Prop) [Decidable playable]
    (hp : (p.clip c).playable = decide playable) :
    let q := p.readyToPlay c
    q = { p with
      store := { p.store with clips := q.store.clips }
      link := if playable ∧ (p.clip c).sent = false then p.link.noted (.clip c .readyToPlay) p.time else p.link } ∧
    q.clip c = { p.clip c with sent := (p.clip c).sent || decide playable } ∧ ∀ d, d ≠ c → q.clip d = p.clip d := by
  intro q
  by_cases hplay : playable
  · rw [decide_eq_true hplay] at hp ⊢
    obtain ⟨honly, hothers⟩ := Part.readyToPlay_only c p hp
    refine ⟨honly.trans ?_, (Part.readyToPlay_clip c p hp).trans (by rw [Bool.or_true]), hothers⟩
    cases (p.clip c).sent <;> simp [hplay, q]
  · rw [decide_eq_false hplay] at hp ⊢
    have hsame : q = p := if_neg fun h => Bool.false_ne_true (hp.symm.trans h.1)
    rw [hsame, if_neg fun h => hplay h.1, Bool.or_false]
    exact ⟨rfl, rfl, fun _ _ => rfl⟩

/-- R25 to R27: the clip's loaded length has risen, and its readers are told when a block more is fully written. -/
theorem Part.loadedMore_spec (p : Part) (c : ClipId) (n : Nat) (hs : (p.clip c).state = .loading) :
    let x := p.clip c
    let length := x.loaded + n
    let grown := x.loaded / 256 < length / 256
    let playable := x.threshold ≤ length / 256
    let q := p.loadedMore c n
    q = { p with
      mem := { p.mem with waiting := q.mem.waiting }, store := { p.store with clips := q.store.clips }
      bank := { p.bank with readers := q.bank.readers }
      link := if grown ∧ playable ∧ x.sent = false then p.link.noted (.clip c .readyToPlay) p.time else p.link } ∧
    q.clip c = { x with loaded := length, sent := x.sent || (decide grown && decide playable) } ∧
    (∀ d, d ≠ c → q.clip d = p.clip d) ∧ StillWaiting p.mem.waiting q.mem.waiting ∧
    (∀ r, (p.reader r).clip ≠ some c ∨ ¬ grown → q.reader r = p.reader r) ∧
    ∀ r, (p.reader r).clip = some c → grown →
      (p.reader r).Regrown (decide playable) (length / 256) p.mem.state r (q.reader r) q.mem.waiting := by
  intro x length grown playable q
  let p1 := p.setClip c { x with loaded := length }
  have hx1 : p1.clip c = { x with loaded := length } := Part.clip_setClip_same _ _ _
  have hothers : ∀ d, d ≠ c → p1.clip d = p.clip d := fun d hd => (Part.clip_setClip p c d _).trans (if_neg hd)
  have hblocks : x.writtenBlocks = x.loaded / 256 := by
    simp only [Clip.writtenBlocks, show x.state = .loading from hs]
  have hblocks1 : (p1.clip c).writtenBlocks = length / 256 := by
    rw [hx1]
    simp only [Clip.writtenBlocks, show x.state = .loading from hs]
  have hplay1 : (p1.clip c).playable = decide playable := by
    unfold Clip.playable
    rw [hblocks1, hx1]
    simp only [show x.state = .loading from hs] <;> rfl
  have hq : q = if x.writtenBlocks < (p1.clip c).writtenBlocks then
      (p1.readyToPlay c).eachReader fun r t => t.readerGrown c r
    else p1 := rfl
  rw [hblocks, hblocks1] at hq
  by_cases hgrown : grown
  · rw [if_pos hgrown] at hq
    obtain ⟨honly, hclip, hclips⟩ := p1.readyToPlay_spec c playable hplay1
    have hkept : ((p1.readyToPlay c).clip c).playable = decide playable ∧
        ((p1.readyToPlay c).clip c).writtenBlocks = length / 256 := by
      rw [hclip]
      exact ⟨hplay1, hblocks1⟩
    have hsent : (p1.clip c).sent = x.sent := by rw [hx1]
    rw [hsent] at honly
    have hread : ∀ r, (p1.readyToPlay c).reader r = p.reader r := fun r => by
      rw [honly]
      rfl
    have hmem : (p1.readyToPlay c).mem = p.mem := by
      rw [honly]
      rfl
    generalize p1.readyToPlay c = p2 at hq honly hclip hclips hkept hread hmem
    obtain ⟨w, v, hall, hw, hreaders⟩ := p2.eachReader_grown c
    rw [hkept.1, hkept.2, hmem] at hreaders
    rw [hmem] at hw
    replace hq := hq.trans hall
    clear_value q
    subst hq
    refine ⟨?_, ?_, fun d hd => (hclips d hd).trans (hothers d hd), hw, fun r hr => ?_, fun r hr _ => ?_⟩
    · simp only [hgrown, true_and]
      rw [honly]
      rfl
    · refine hclip.trans ?_
      rw [hx1, decide_eq_true hgrown]
      rfl
    · rcases hr with hr | hr
      · exact ((hreaders r).1 (by rw [hread]; exact hr)).trans (hread r)
      · exact absurd hgrown hr
    · have hregrown := (hreaders r).2 (by rw [hread]; exact hr)
      rw [hread] at hregrown
      exact hregrown
  · rw [if_neg hgrown] at hq
    clear_value q
    subst hq
    refine ⟨?_, ?_, hothers, fun _ h => h, fun _ _ => rfl, fun _ _ h => absurd h hgrown⟩
    · rw [if_neg fun h => hgrown h.1]
      rfl
    · rw [hx1, decide_eq_false hgrown, Bool.false_and, Bool.or_false]

/-- R25: the loader goes on with the next block's bytes, or answers the fill. -/
theorem Part.nextFillWrite_spec (p : Part) (tag : Byte) (c : ClipId) (data : Bytes) :
    let room := 256 - (p.clip c).loaded % 256
    let q := p.nextFillWrite tag c data
    q = { p with
      mem := { p.mem with waiting := q.mem.waiting }
      store := { p.store with
        job := if data = [] then .none else .fillWrite tag c (data.drop room), buffer := data.take room }
      link := if data = [] then p.link.answer .clipFill tag (0 :: e16 c.val ++ e32 (p.clip c).loaded)
        else p.link } ∧
    StillWaiting p.mem.waiting q.mem.waiting ∧
    (data ≠ [] → p.mem.state = .ready → vget q.mem.waiting 14 = true) := by
  cases data with
  | nil => exact ⟨by simp only [List.take_nil]; rfl, fun _ h => h, fun h => absurd rfl h⟩
  | cons b rest =>
    intro room q
    have hq : q = (p.setJob (.fillWrite tag c ((b :: rest).drop room)) ((b :: rest).take room)).placeRequest
      loaderClient := rfl
    by_cases hm : p.mem.state = .ready
    · have hw := hq.trans (Part.placeRequest_ready _ _ hm)
      clear_value q
      subst hw
      exact ⟨rfl, fun a ha => by
        refine (vget_vset _ _ _ _).trans ?_
        split
        · rfl
        · exact ha, fun _ _ => vget_vset_same _ _ _⟩
    · have hw : q = p.setJob (.fillWrite tag c ((b :: rest).drop room)) ((b :: rest).take room) :=
        hq.trans (if_neg hm)
      clear_value q
      subst hw
      exact ⟨rfl, fun _ h => h, fun _ h => absurd h hm⟩

/-! ### The close write completes (R28) -/

/-- R42, R44: a reader that a close leaves in its clip. -/
def Reader.ReadsOn (x : Reader) (c : ClipId) (y : Reader) : Prop :=
  y.wait = false ∧ y.clip = some c ∧ y.position = x.position

/-- R42, R44: the turn of a reader that is not past the closed clip's last sample. -/
theorem Part.readerClosed_turn (p : Part) (c : ClipId) (r : ReaderId) (w : Vector Bool 16) (v : Vector Reader 14)
    (hv : vget v r = p.reader r) (hc : (p.reader r).clip = some c) (hplay : (p.clip c).playable = true)
    (hend : (p.clip c).pastEnd (p.reader r).position = false) :
    ∃ w' y, (p.sampled w v).readerClosed c r = p.sampled w' (vset v r y) ∧ (p.reader r).ReadsOn c y ∧
      StillWaiting w w' := by
  obtain ⟨w', y, hgrown, hy, hw⟩ := p.readerGrown_turn c r w v hv hc
  have hreader : (p.sampled w v).reader r = p.reader r := hv
  have hclosed : (p.sampled w v).readerClosed c r = ((p.sampled w v).readerGrown c r).primeReader r := by
    unfold Part.readerClosed
    rw [hreader]
    refine (if_pos hc).trans (if_neg ?_)
    change ¬ (p.clip c).pastEnd (p.reader r).position = true
    rw [hend]
    exact Bool.false_ne_true
  obtain ⟨st, hprimed, _⟩ := Part.primeReader_spec r (p.sampled w' (vset v r y))
  have hnow : (p.sampled w' (vset v r y)).reader r = y := vget_vset_same _ _ _
  refine ⟨w', { y with state := st }, ?_, ?_, hw⟩
  · rw [hclosed, hgrown, hprimed, hnow]
    unfold Part.setReader Part.sampled
    dsimp only
    rw [vset_vset]
  · unfold Reader.ReadsOn
    rw [hy.1, hplay]
    exact ⟨Bool.and_false _, hc, rfl⟩

/-- R28: with no reader past the closed clip's last sample, all read on. -/
theorem Part.closeTold_readsOn (p : Part) (c : ClipId)
    (h : ∀ r, (p.reader r).clip = some c → (p.reader r).position < (p.clip c).loaded / 2) :
    let q := p.closeTold c
    q = { p with
      mem := { p.mem with waiting := q.mem.waiting }, store := { p.store with clips := q.store.clips }
      bank := { p.bank with readers := q.bank.readers }
      link := if (p.clip c).sent then p.link else p.link.noted (.clip c .readyToPlay) p.time } ∧
    q.clip c = { p.closedClip c with sent := true } ∧ (∀ d, d ≠ c → q.clip d = p.clip d) ∧
    ∀ r, ((p.reader r).clip ≠ some c → q.reader r = p.reader r) ∧
      ((p.reader r).clip = some c → (p.reader r).ReadsOn c (q.reader r)) := by
  intro q
  have hclip := Part.clip_setClip_same p c (p.closedClip c)
  have hplay : ((p.setClip c (p.closedClip c)).clip c).playable = true := by
    rw [hclip]
    rfl
  obtain ⟨honly, hothers⟩ := Part.readyToPlay_only c (p.setClip c (p.closedClip c)) hplay
  have hready := Part.readyToPlay_clip c (p.setClip c (p.closedClip c)) hplay
  rw [hclip] at honly hready
  have hq : q = ((p.setClip c (p.closedClip c)).readyToPlay c).eachReader fun r t => t.readerClosed c r := rfl
  have hread : ∀ r, ((p.setClip c (p.closedClip c)).readyToPlay c).reader r = p.reader r := fun r => by
    rw [honly]
    rfl
  generalize (p.setClip c (p.closedClip c)).readyToPlay c = p2 at hq honly hothers hready hread
  obtain ⟨w, v, hall, hdone, _⟩ := p2.eachReader_turns (fun r t => t.readerClosed c r)
    (fun r y _ => ((p2.reader r).clip ≠ some c → y = p2.reader r) ∧
      ((p2.reader r).clip = some c → (p2.reader r).ReadsOn c y))
    (fun r y v w h _ => h)
    (fun r w v hv => by
      by_cases hc : (p2.reader r).clip = some c
      · have hend : (p2.clip c).pastEnd (p2.reader r).position = false := by
          rw [hready]
          refine decide_eq_false (not_le.2 ?_)
          have hr := hread r
          rw [hr] at hc ⊢
          exact h r hc
        obtain ⟨w', y, hone, hy, hw⟩ := p2.readerClosed_turn c r w v hv hc (by rw [hready]; rfl) hend
        exact ⟨w', y, hone, ⟨fun hne => absurd hc hne, fun _ => hy⟩, hw⟩
      · have hreader : (p2.sampled w v).reader r = p2.reader r := hv
        refine ⟨w, p2.reader r, ?_, ⟨fun _ => rfl, fun h => absurd h hc⟩, fun _ h => h⟩
        rw [← hv, vset_vget]
        unfold Part.readerClosed
        rw [hreader]
        exact if_neg hc)
  replace hq := hq.trans hall
  clear_value q
  subst hq
  refine ⟨?_, hready, fun d hd => ?_, fun r => ?_⟩
  · rw [honly]
    rfl
  · exact (hothers d hd).trans ((Part.clip_setClip p c d _).trans (if_neg hd))
  · have hr := hdone r
    rw [hread] at hr
    exact hr

/-- R28: whatever the readers and their owners do, the clip is closed, the loader and the device are free, and the
reply is on the link. -/
theorem Part.finishClose_ends (tag : Byte) (c : ClipId) (p : Part) :
    let t := (p.finishClose tag c).finish
    t.clip c = { p.closedClip c with sent := true, hold := (t.clip c).hold } ∧ t.store.job = .none ∧
      (p.mem.device = .idle → t.mem.device = .idle) ∧
      ((⟨Kind.byte .clipClose, tag, 0 :: e32 (p.clip c).loaded ++ e8 (p.closedClip c).marks.length, true⟩ : Reply) ∈
          t.link.replies ∨
        t.link.transmitting = some
          ⟨Kind.byte .clipClose, tag, 0 :: e32 (p.clip c).loaded ++ e8 (p.closedClip c).marks.length⟩) := by
  intro t
  obtain ⟨q, hfinish, hrecord, hreply⟩ := p.finishClose_finish tag c
  obtain ⟨q', hq', _, hfinish'⟩ := (p.finishClose tag c).finish_announces
  have hidle : p.IdleKept t := by
    refine .trans ?_ (p.finishClose tag c).idleKept_finish
    have hready : p.IdleKept ((p.setClip c (p.closedClip c)).readyToPlay c) := by
      refine .of_mem ?_
      rw [(Part.readyToPlay_only c (p.setClip c (p.closedClip c)) (by rw [Part.clip_setClip_same]; rfl)).1]
      rfl
    have htold : p.closeTold c = ((p.setClip c (p.closedClip c)).readyToPlay c).eachReader
      fun r t => t.readerClosed c r := rfl
    rw [Part.finishClose_eq, htold]
    generalize (p.setClip c (p.closedClip c)).readyToPlay c = b at hready
    have hall := hready.trans (.eachReader (fun r t => t.readerClosed c r) (fun r t => t.idleKept_readerClosed c r) b)
    generalize (b.eachReader fun r t => t.readerClosed c r) = d at hall
    exact hall.trans (.of_mem rfl)
  have hjob : t.store.job = .none := by
    change (p.finishClose tag c).finish.store.job = .none
    rw [hfinish']
    change q'.store.job = .none
    rw [hq'.store, Part.finishClose_eq]
    generalize p.closeTold c = b
    rfl
  refine ⟨?_, hjob, hidle, ?_⟩
  · change (p.finishClose tag c).finish.clip c = { p.closedClip c with
      sent := true, hold := ((p.finishClose tag c).finish.clip c).hold }
    rw [hfinish]
    exact hrecord
  · change _ ∈ (p.finishClose tag c).finish.link.replies ∨ (p.finishClose tag c).finish.link.transmitting = _
    rw [hfinish]
    exact Link.pump_keeps _ _ hreply

/-- R25: a write of a fill to the end of its completion. -/
theorem Part.writeCompletes_fillWritten (p : Part) (tag : Byte) (c : ClipId) (rest : Bytes) (g b : Nat)
    (hdev : p.mem.device = .transfer 14 g b false) (hjob : p.store.job = .fillWrite tag c rest) :
    Part.writeCompletes loaderClient Part.fillWritten p =
      (p.freeDevice.loadedMore c p.store.buffer.length).nextFillWrite tag c rest := by
  simp only [Part.writeCompletes, hdev]
  change Part.fillWritten p = _
  simp only [Part.fillWritten, hjob]

theorem Part.writeCompletes_closeWritten (p : Part) (tag : Byte) (c : ClipId) (g b : Nat)
    (hdev : p.mem.device = .transfer 14 g b false) (hjob : p.store.job = .closeWrite tag c) :
    Part.writeCompletes loaderClient Part.closeWritten p = p.freeDevice.finishClose tag c := by
  simp only [Part.writeCompletes, hdev]
  change Part.closeWritten p = _
  simp only [Part.closeWritten, hjob]

/-- Settles O17. -/
theorem loaderWritesComplete : Obligations.LoaderWritesComplete := by
  refine ⟨fun s tag c rest g b hq hdev hjob hs => ?_, fun s tag c g b hq hdev hjob hs => ?_⟩
  · have hexec : exec .loaderWriteCompletion s =
        .next (s.onPart (Part.writeCompletes loaderClient Part.fillWritten)) := rfl
    have hwritten := s.part.writeCompletes_fillWritten tag c rest g b hdev hjob
    have hmore := s.part.freeDevice.loadedMore_spec c s.part.store.buffer.length hs
    set m := s.part.freeDevice.loadedMore c s.part.store.buffer.length with hm
    clear_value m
    obtain ⟨honly, hclip, hclips, hwaits, hstand, hgrown⟩ := hmore
    obtain ⟨hnext, hwaits', hasks⟩ := m.nextFillWrite_spec tag c rest
    have hreports : m.bank.reports = [] := by
      rw [honly]
      exact hq
    have hloaded : (m.clip c).loaded = (s.part.clip c).loaded + s.part.store.buffer.length := by
      rw [hclip]
      rfl
    have hstate : m.mem.state = s.part.mem.state := by
      rw [honly]
      rfl
    generalize m.nextFillWrite tag c rest = q at hwritten hnext hwaits' hasks
    have hbank : q.bank = m.bank := by rw [hnext]
    have hmclips : q.store.clips = m.store.clips := by rw [hnext]
    rw [s.onPart_eq _ q hwritten (by rw [hbank]; exact hreports)] at hexec
    refine ⟨_, hexec, rfl, rfl, ?_⟩
    intro x length grown playable told
    have hrecord : ∀ d, q.clip d = m.clip d := fun d => by
      unfold Part.clip
      rw [hmclips]
    have hreader : ∀ r, q.reader r = m.reader r := fun r => by
      unfold Part.reader
      rw [hbank]
    refine ⟨(hrecord c).trans hclip, fun d hd => (hrecord d).trans (hclips d hd), ?_, ?_, ?_, ?_, fun hr => ⟨?_, ?_, fun hm => ?_⟩,
      fun hr => ⟨?_, ?_⟩, fun r hr => (hreader r).trans (hstand r hr), fun r hr hg => ?_⟩
    · change q.store.pageMap = _
      rw [hnext, honly]
      rfl
    · change q.store.freeList = _
      rw [hnext, honly]
      rfl
    · change q.mem.device = _
      rw [hnext, honly]
      rfl
    · have hlink : q.link = if rest = [] then told.answer .clipFill tag (0 :: e16 c.val ++ e32 length) else told := by
        rw [hnext, hloaded, honly]
        rfl
      have hpart : q = { s.part with
          mem := { s.part.mem with device := .idle, waiting := q.mem.waiting }
          store := { s.part.store with clips := q.store.clips, job := q.store.job, buffer := q.store.buffer }
          bank := { s.part.bank with readers := q.bank.readers }
          link := q.link } := by
        rw [hnext, honly]
        rfl
      rw [hlink] at hpart
      exact (congrArg Part.served hpart).trans rfl
    · change q.store.job = _
      rw [hnext, hloaded]
      exact if_neg hr
    · change q.store.buffer = _
      rw [hnext, hloaded]
    · exact hasks hr (hstate.trans hm)
    · change q.store.job = _
      rw [hnext]
      exact if_pos hr
    · change q.store.buffer = _
      rw [hnext, hr]
      exact List.take_nil
    · obtain ⟨hy, hfetch⟩ := hgrown r hr hg
      refine ⟨?_, fun n hn hidle hwait hroom hnb hready => ?_⟩
      · change q.reader r = ({ s.part.reader r with
          wait := _, state := _
          page := (q.reader r).page, outstanding := (q.reader r).outstanding } : Reader)
        rw [hreader]
        exact hy
      · obtain ⟨hpage, hout, hasked⟩ := hfetch n hn hidle hwait hroom hnb hready
        exact ⟨(congrArg Reader.page (hreader r)).trans hpage, (congrArg Reader.outstanding (hreader r)).trans hout,
          fun ho => hwaits' _ (hasked ho)⟩
  · have hexec : exec .closeWriteCompletion s =
        .next (s.onPart (Part.writeCompletes loaderClient Part.closeWritten)) := rfl
    have hpart : (s.onPart (Part.writeCompletes loaderClient Part.closeWritten)).part =
        (s.part.freeDevice.finishClose tag c).finish := by
      rw [State.onPart_part, s.part.writeCompletes_closeWritten tag c g b hdev hjob]
    obtain ⟨hclip, hdone, hidle, hreply⟩ := s.part.freeDevice.finishClose_ends tag c
    refine ⟨_, hexec, rfl, rfl, ?_⟩
    intro x marks reply
    rw [hpart]
    refine ⟨hclip, hdone, hidle rfl, fun hread => ?_, hreply⟩
    obtain ⟨honly, hclosed, hothers, hreaders⟩ := s.part.freeDevice.closeTold_readsOn c hread
    rw [Part.finishClose_eq]
    generalize s.part.freeDevice.closeTold c = q at honly hclosed hothers hreaders
    have hquiet : q.bank.reports = [] := by
      rw [honly]
      exact hq
    rw [Part.finish_quiet ((q.setJob .none []).answer .clipClose tag .ok _) hquiet]
    have hhold := congrArg Clip.hold hclosed
    refine ⟨hhold, hothers, ?_, ?_, fun r hr => (hreaders r).1 hr, fun r hr => (hreaders r).2 hr, ?_, ?_, ?_⟩
    · change q.store.pageMap = _
      rw [honly]
      rfl
    · change q.store.freeList = _
      rw [honly]
      rfl
    · rw [honly]
      rfl
    · change q.lang = _
      rw [honly]
      rfl
    · change q.ann = _
      rw [honly]
      rfl

end Sys2Proof.Machine
end

section
/-! The store's part of a reset (R15, R36): the clips that are freed, the check that is ended, and the ends of a warm
reset and of an entry to standby (R187, R188). -/

namespace Sys2Proof.Machine

/-! ### The entries of a table -/

theorem risingFrom.le {α : Type} {b : Nat} {t : List (Nat × α)} (h : risingFrom b t) : ∀ e ∈ t, b ≤ e.1 := by
  induction t generalizing b with
  | nil => simp
  | cons e t ih =>
    obtain ⟨hb, ht⟩ := h
    intro x hx
    rcases List.mem_cons.1 hx with rfl | hx
    · exact hb
    · exact Nat.le_of_lt (lt_of_le_of_lt hb (ih ht x hx))

theorem risingFrom.pairwise {α : Type} {b : Nat} {t : List (Nat × α)} (h : risingFrom b t) :
    t.Pairwise fun e f => e.1 < f.1 := by
  induction t generalizing b with
  | nil => exact .nil
  | cons e t ih => exact .cons (fun f hf => h.2.le f hf) (ih h.2)

/-- An entry of a rising table is found under its number. -/
theorem tfind_eq_some_iff {α : Type} {b : Nat} {t : List (Nat × α)} (h : risingFrom b t) (n : Nat) (x : α) :
    tfind t n = some x ↔ (n, x) ∈ t := by
  induction t generalizing b with
  | nil => simp [tfind]
  | cons e t ih =>
    obtain ⟨k, y⟩ := e
    rw [List.mem_cons]
    unfold tfind
    by_cases hn : n = k
    · subst hn
      rw [if_pos rfl]
      have hnot : (n, x) ∉ t := fun hx => absurd (h.2.le _ hx) (by simp)
      simp only [hnot, or_false, Option.some.injEq, Prod.mk.injEq, true_and]
      exact eq_comm
    · rw [if_neg hn, ih h.2]
      simp [hn]

/-- The numbers below a bound of the records that satisfy a predicate, which the record of no entry does not: as
listed in the table, and in ascending order. -/
theorem filterMap_table {α : Type} (d : α) (f : α → Bool) (hd : f d = false) (t : List (Nat × α))
    (ht : tableSorted t = true) (m : Nat) :
    t.filterMap (fun e => if h : e.1 < m then if f e.2 then some (⟨e.1, h⟩ : Fin m) else none else none) =
      (List.finRange m).filter fun c => f (tget d t c.val) := by
  rw [tableSorted_iff] at ht
  have hone : ∀ (e : Nat × α) (c : Fin m),
      (if h : e.1 < m then if f e.2 then some (⟨e.1, h⟩ : Fin m) else none else none) = some c ↔
        e.1 = c.val ∧ f e.2 = true := fun e c => by
    split
    · split
      · rename_i hf
        simp [Fin.ext_iff, hf]
      · rename_i hf
        simp [hf]
    · rename_i hm
      simp only [reduceCtorEq, false_iff]
      exact fun h => hm (h.1 ▸ c.isLt)
  refine List.Pairwise.eq_of_mem_iff (r := (· < ·)) ?_ ((List.pairwise_lt_finRange m).filter _) fun c => ?_
  · refine List.Pairwise.filterMap _ (fun e e' he c hc c' hc' => ?_) ht.pairwise
    rw [hone] at hc hc'
    exact Fin.lt_def.2 (by rw [← hc.1, ← hc'.1]; exact he)
  · rw [List.mem_filterMap, List.mem_filter]
    simp only [hone, List.mem_finRange, true_and]
    constructor
    · rintro ⟨⟨n, x⟩, he, rfl, hx⟩
      rw [show tget d t c.val = x from congrArg (Option.getD · d) ((tfind_eq_some_iff ht _ _).2 he)]
      exact hx
    · intro hc
      cases hfind : tfind t c.val with
      | none =>
        rw [show tget d t c.val = d from congrArg (Option.getD · d) hfind, hd] at hc
        exact absurd hc Bool.false_ne_true
      | some x =>
        rw [show tget d t c.val = x from congrArg (Option.getD · d) hfind] at hc
        exact ⟨(c.val, x), (tfind_eq_some_iff ht _ _).1 hfind, rfl, hc⟩

/-! ### Clips cleared together (R36 step 3) -/

/-- The pages of a clip, in chain order. -/
def Part.chainOf (p : Part) (c : ClipId) : List Nat :=
  chainPages p.store.pageMap (p.clip c).pageCount (p.clip c).firstPage

/-- A chain is walked through the entries of its own pages. -/
theorem chainPages_congr (m m' : List (Nat × PageEntry)) (k : Nat) (g : Option Nat)
    (h : ∀ n ∈ chainPages m k g, tget PageEntry.empty m' n = tget PageEntry.empty m n) :
    chainPages m' k g = chainPages m k g := by
  induction k generalizing g with
  | zero => rfl
  | succ k ih =>
    cases g with
    | none => rfl
    | some n =>
      simp only [chainPages, List.mem_cons] at h ⊢
      rw [h n (.inl rfl), ih _ fun n' hn' => h n' (.inr hn')]

/-- R33, R36: clips cleared in turn. Their pages join the Free List in order, when no page stands in two chains. -/
theorem Part.clearClips (cs : List ClipId) (hnd : cs.Nodup) (p : Part) :
    let q := cs.foldl (fun q c => q.clearClip c) p
    (∀ d, q.clip d = if d ∈ cs then Clip.empty else p.clip d) ∧
    q = { p with store := { p.store with
      clips := q.store.clips, pageMap := q.store.pageMap, freeList := q.store.freeList } } ∧
    ((cs.flatMap p.chainOf).Nodup →
      runsPages q.store.freeList = runsPages p.store.freeList ++ cs.flatMap p.chainOf ∧
      ∀ n, q.pageEntry n = if n ∈ cs.flatMap p.chainOf then PageEntry.empty else p.pageEntry n) := by
  induction cs generalizing p with
  | nil => simp
  | cons c cs ih =>
    obtain ⟨hc, hnd⟩ := List.nodup_cons.1 hnd
    obtain ⟨hempty, hothers, hfree, hentry, honly⟩ := p.clearClip_spec c
    obtain ⟨hclips, hstore, hpages⟩ := ih hnd (p.clearClip c)
    simp only [List.foldl_cons]
    generalize p.clearClip c = p1 at *
    generalize List.foldl (fun q c => Part.clearClip c q) p1 cs = q at *
    refine ⟨fun d => ?_, ?_, fun hall => ?_⟩
    · rw [hclips]
      by_cases hd : d = c
      · subst hd
        rw [if_neg hc, if_pos (List.mem_cons_self ..), hempty]
      · rw [hothers d hd]
        simp only [List.mem_cons, hd, false_or]
    · rw [hstore, honly]
    · rw [List.flatMap_cons, List.nodup_append] at hall
      obtain ⟨_, hrest, hdisjoint⟩ := hall
      have hchain : ∀ d ∈ cs, p1.chainOf d = p.chainOf d := fun d hd => by
        have hdc : d ≠ c := fun he => hc (he ▸ hd)
        unfold Part.chainOf
        rw [hothers d hdc]
        refine chainPages_congr _ _ _ _ fun n hn => ?_
        refine (hentry n).trans (if_neg fun hnc => ?_)
        exact hdisjoint n hnc n (List.mem_flatMap.2 ⟨d, hd, hn⟩) rfl
      have hmap : cs.flatMap p1.chainOf = cs.flatMap p.chainOf := by
        rw [List.flatMap_def, List.flatMap_def, List.map_congr_left hchain]
      rw [hmap] at hpages
      obtain ⟨hfree', hentry'⟩ := hpages hrest
      refine ⟨?_, fun n => ?_⟩
      · rw [hfree', hfree, List.append_assoc]
        rfl
      · rw [hentry', hentry]
        change (if _ then _ else if n ∈ p.chainOf c then _ else _) = _
        by_cases hn : n ∈ p.chainOf c
        · simp [hn]
        · simp only [hn, if_false, List.flatMap_cons, List.mem_append, false_or]

/-! ### The check that a reset ends (R15) -/

theorem mem_insertPage (l : List Nat) (n g : Nat) : g ∈ insertPage l n ↔ g = n ∨ g ∈ l := by
  induction l with
  | nil => simp [insertPage]
  | cons x l ih =>
    unfold insertPage
    split
    · exact List.mem_cons
    · split
      · rename_i hx
        rw [hx, List.mem_cons]
        tauto
      · rw [List.mem_cons, ih, List.mem_cons]
        tauto

theorem mem_insertPages (ns l : List Nat) (g : Nat) : g ∈ ns.foldl insertPage l ↔ g ∈ l ∨ g ∈ ns := by
  induction ns generalizing l with
  | nil => simp
  | cons n ns ih =>
    rw [List.foldl_cons, ih, mem_insertPage, List.mem_cons]
    tauto

/-- The batch of a running check. -/
def Part.cutBatch (p : Part) : List BatchPage := if p.store.check.running then p.store.check.batch else []

/-- R15: its failed pages. -/
def Part.cutFailed (p : Part) : List Nat :=
  (p.cutBatch.filter fun b => decide (b.result = .failed)).map BatchPage.page

/-- R15: its pages that go back to the Free List. -/
def Part.cutReturned (p : Part) : List Nat :=
  (p.cutBatch.filter fun b => decide (b.result ≠ .failed)).map BatchPage.page

/-- R15: the counts so reached. -/
def Part.cutCheck (p : Part) : Check := { p.store.check with
  running := false, batch := [], made := if p.store.check.running then 0 else p.store.check.made
  tested := p.store.check.tested + (p.cutBatch.filter fun b => decide (b.result ≠ .untested)).length
  withdrawn := p.store.check.withdrawn + p.cutFailed.length }

/-- A judged page has failed or passed. -/
theorem judged_length (l : List BatchPage) :
    (l.filter fun b => decide (b.result = .failed)).length + (l.filter fun b => decide (b.result = .passed)).length =
      (l.filter fun b => decide (b.result ≠ .untested)).length := by
  induction l with
  | nil => rfl
  | cons b l ih =>
    simp only [ne_eq, decide_not] at ih ⊢
    simp only [List.filter_cons]
    cases b.result <;> simp <;> omega

/-- R15: a running check is ended and answered; one that does not run stands. -/
theorem Part.abortCheck_spec (p : Part) (s : Status) :
    let q := p.abortCheck s
    runsPages q.store.freeList = runsPages p.store.freeList ++ p.cutReturned ∧
    (∀ n, q.pageEntry n = if n ∈ p.cutReturned then PageEntry.empty
      else if n ∈ p.cutFailed then ⟨.withdrawn, none, none, none⟩ else p.pageEntry n) ∧
    q = { p with
      store := { p.store with
        pageMap := q.store.pageMap, freeList := q.store.freeList
        withdrawnSet := p.cutFailed.foldl insertPage p.store.withdrawnSet
        check := if p.store.check.running then p.cutCheck else p.store.check }
      link := if p.store.check.running then
          p.link.answer .storeCheck p.store.check.tag (s.byte :: p.cutCheck.fields)
        else p.link } := by
  intro q
  cases hrun : p.store.check.running with
  | false =>
    have hq : q = p := if_neg (by rw [hrun]; exact Bool.false_ne_true)
    have hbatch : p.cutBatch = [] := if_neg (by rw [hrun]; exact Bool.false_ne_true)
    unfold Part.cutReturned Part.cutFailed
    rw [hbatch, hq]
    simp
  | true =>
    have hbatch : p.cutBatch = p.store.check.batch := if_pos hrun
    let k := p.store.check
    let w := (k.pagesWith .failed).foldl (fun q g => q.withdrawPage g) p
    let f := (k.batch.filter fun b => decide (b.result ≠ .failed)).foldl (fun q b => q.freePage b.page) w
    let k' := { k with
      running := false
      tested := k.tested + ((k.pagesWith .failed).length + (k.pagesWith .passed).length)
      withdrawn := k.withdrawn + (k.pagesWith .failed).length
      batch := [], made := 0 }
    have hq : q = (f.setCheck k').answer .storeCheck k.tag s k'.fields := if_pos hrun
    have hcheck : k' = p.cutCheck := by
      unfold Part.cutCheck Part.cutFailed
      rw [hbatch, ← judged_length, hrun]
      simp only [k', Check.pagesWith, List.length_map, if_true]
      rfl
    have hf : f = p.cutReturned.foldl (fun q n => q.freePage n) w := by
      unfold Part.cutReturned
      rw [List.foldl_map, hbatch]
    have hw : w = p.cutFailed.foldl (fun q g => q.withdrawPage g) p := by
      unfold Part.cutFailed
      rw [hbatch]
      rfl
    obtain ⟨hgone, hwonly⟩ := Part.withdrawPages p.cutFailed p
    rw [← hw] at hgone hwonly
    obtain ⟨hfree, hentry, honly⟩ := Part.freePages p.cutReturned w
    rw [← hf] at hfree hentry honly
    rw [hcheck] at hq
    clear_value f w q
    subst hq
    refine ⟨?_, fun n => ?_, ?_⟩
    · refine hfree.trans ?_
      rw [hwonly]
    · refine (hentry n).trans ?_
      rw [hgone]
    · rw [honly, hwonly]
      rfl

/-! ### The store's part of a reset (R36) -/

/-- R36 step 3: the clips that a reset frees. -/
def Part.freed (p : Part) : List ClipId :=
  (List.finRange 1024).filter fun c => decide ((p.clip c).state = .loading ∨ (p.clip c).state = .retiring)

theorem Part.mem_freed (p : Part) (c : ClipId) :
    c ∈ p.freed ↔ (p.clip c).state = .loading ∨ (p.clip c).state = .retiring := by
  simp [Part.freed]

/-- R36: the pages that a reset brings to the Free List. -/
def Part.broughtBack (p : Part) : List Nat := p.freed.flatMap p.chainOf ++ p.cutReturned

/-- R36 step 3: the clips of the table that are cleared in turn. -/
theorem Part.clearTable (p : Part) (ht : tableSorted p.store.clips = true) :
    p.store.clips.foldl (fun q c =>
      if h : c.1 < 1024 then
        if c.2.state = .loading ∨ c.2.state = .retiring then q.clearClip ⟨c.1, h⟩ else q
      else q) p = p.freed.foldl (fun q c => q.clearClip c) p := by
  have hfreed : p.freed = p.store.clips.filterMap (fun e => if h : e.1 < 1024 then
      if decide (e.2.state = .loading ∨ e.2.state = .retiring) then some (⟨e.1, h⟩ : ClipId) else none else none) :=
    (filterMap_table Clip.empty (fun x => decide (x.state = .loading ∨ x.state = .retiring)) rfl p.store.clips ht
      1024).symm
  rw [hfreed, List.foldl_filterMap]
  refine congrArg (fun f => List.foldl f p p.store.clips) (funext fun q => funext fun e => ?_)
  by_cases he : e.1 < 1024
  · rw [dif_pos he, dif_pos he]
    by_cases hs : e.2.state = .loading ∨ e.2.state = .retiring
    · rw [if_pos hs, if_pos (decide_eq_true hs)]
    · rw [if_neg hs, if_neg (by rw [decide_eq_false hs]; exact Bool.false_ne_true)]
  · rw [dif_neg he, dif_neg he]

/-- R36 steps 3 and 4: what the end of the store's part of a reset makes of the part. -/
theorem Part.finishClearing_spec (p : Part) (cause : ResetCause) (hc : p.store.clearing = some cause)
    (ht : tableSorted p.store.clips = true) :
    let q := p.finishClearing
    (∀ c, q.clip c = if c ∈ p.freed then Clip.empty else p.clip c) ∧
    ((p.broughtBack ++ p.cutFailed).Nodup →
      runsPages q.store.freeList = runsPages p.store.freeList ++ p.broughtBack ∧
      ∀ n, q.pageEntry n = if n ∈ p.broughtBack then PageEntry.empty
        else if n ∈ p.cutFailed then ⟨.withdrawn, none, none, none⟩ else p.pageEntry n) ∧
    q = { p with
      store := { p.store with
        clips := q.store.clips, pageMap := q.store.pageMap, freeList := q.store.freeList, clearing := none
        withdrawnSet := p.cutFailed.foldl insertPage p.store.withdrawnSet
        check := if p.store.check.running then p.cutCheck else p.store.check }
      link := if p.store.check.running then
          p.link.answer .storeCheck p.store.check.tag (cause.status.byte :: p.cutCheck.fields)
        else p.link } := by
  intro q
  obtain ⟨hclips, hstore, hpages⟩ := Part.clearClips p.freed ((List.nodup_finRange 1024).filter _) p
  have hq : q = Part.abortCheck cause.status { p.freed.foldl (fun q c => q.clearClip c) p with
      store := { (p.freed.foldl (fun q c => q.clearClip c) p).store with clearing := none } } := by
    rw [← p.clearTable ht]
    change p.finishClearing = _
    unfold Part.finishClearing
    rw [hc]
  generalize p.freed.foldl (fun q c => q.clearClip c) p = c at hclips hstore hpages hq
  obtain ⟨hfree, hentry, honly⟩ := Part.abortCheck_spec { c with store := { c.store with clearing := none } } cause.status
  rw [← hq] at hfree hentry honly
  have hcheck : c.store.check = p.store.check := by rw [hstore]
  have hbatch : ∀ r : Part, r.store.check = p.store.check → r.cutReturned = p.cutReturned ∧ r.cutFailed = p.cutFailed ∧
      r.cutCheck = p.cutCheck := fun r hr => by
    unfold Part.cutReturned Part.cutCheck Part.cutFailed Part.cutBatch
    rw [hr]
    exact ⟨rfl, rfl, rfl⟩
  obtain ⟨hreturned, hfailed, hcut⟩ := hbatch { c with store := { c.store with clearing := none } } hcheck
  rw [hreturned] at hfree hentry
  rw [hfailed] at hentry honly
  rw [hcut] at honly
  clear_value q
  clear hq
  have hqclips : q.store.clips = c.store.clips := by rw [honly]
  refine ⟨fun d => ?_, fun hnd => ?_, ?_⟩
  · refine Eq.trans ?_ (hclips d)
    unfold Part.clip
    rw [hqclips]
  · obtain ⟨hback, hout, hapart⟩ := List.nodup_append.1 hnd
    obtain ⟨hchains, _, _⟩ := List.nodup_append.1 hback
    obtain ⟨hcfree, hcentry⟩ := hpages hchains
    refine ⟨?_, fun n => ?_⟩
    · rw [hfree]
      change runsPages c.store.freeList ++ _ = _
      rw [hcfree, List.append_assoc]
      rfl
    · rw [hentry]
      change (if _ then _ else if _ then _ else c.pageEntry n) = _
      rw [hcentry]
      have hmem : n ∈ p.broughtBack ↔ n ∈ p.freed.flatMap p.chainOf ∨ n ∈ p.cutReturned := List.mem_append
      by_cases hr : n ∈ p.cutReturned
      · rw [if_pos hr, if_pos (hmem.2 (.inr hr))]
      · rw [if_neg hr]
        by_cases hf : n ∈ p.cutFailed
        · rw [if_pos hf, if_neg (fun hb => hapart n hb n hf rfl), if_pos hf]
        · rw [if_neg hf]
          by_cases hch : n ∈ p.freed.flatMap p.chainOf
          · rw [if_pos hch, if_pos (hmem.2 (.inl hch))]
          · rw [if_neg hch, if_neg fun hb => (hmem.1 hb).elim hch hr, if_neg hf]
  · rw [honly]
    change { c with store := _, link := _ } = _
    rw [hcheck, hstore]

end Sys2Proof.Machine
end

section
/-! The ends of a warm reset and of an entry to standby (R187, R188), with the store's part of them (R15, R36). -/

namespace Sys2Proof.Machine

/-! ### What the link keeps -/

/-- R181: the transmitter takes the next frame and lets the rest of the link stand. -/
theorem Link.pump_stands (l : Link) :
    l.pump.entering = l.entering ∧ l.pump.resetting = l.resetting ∧
      (l.notices = [] → l.noticeLost = false → l.pump.notices = [] ∧ l.pump.noticeLost = false) ∧
      ∀ x ∈ l.pump.slots, x ∈ l.slots := by
  unfold Link.pump
  split
  · exact ⟨rfl, rfl, fun h k => ⟨h, k⟩, fun _ h => h⟩
  · split
    · refine ⟨rfl, rfl, fun h k => ⟨h, k⟩, fun x hx => ?_⟩
      replace hx : x ∈ (if _ then _ else _) := hx
      split at hx
      · exact List.mem_of_mem_filter hx
      · exact hx
    · split
      · rename_i n ns hn
        exact ⟨rfl, rfl, fun h => absurd (hn.symm.trans h) (by simp), fun _ h => h⟩
      · exact ⟨rfl, rfl, fun h k => ⟨h, k⟩, fun _ h => h⟩

/-- A reply waits or is being sent. -/
def Link.Sends (l : Link) (r : Reply) : Prop := r ∈ l.replies ∨ l.transmitting = some ⟨r.kind, r.tag, r.body⟩

theorem Link.pump_sends {l : Link} {r : Reply} (h : r ∈ l.replies) : l.pump.Sends r := l.pump_keeps r h

/-- R180: a reply to one tag leaves the taken request of another. -/
theorem Link.takenRequest_answer (l : Link) (k k' : Kind) (tag : Byte) (body : Bytes) (x : Slot)
    (h : l.takenRequest k = some x) (ht : tag ≠ x.tag) : (l.answer k' tag body).takenRequest k = some x := by
  unfold Link.takenRequest Link.answer setProgress at *
  dsimp only at *
  generalize l.slots = slots at h
  induction slots with
  | nil => simp at h
  | cons y ys ih =>
    rw [List.map_cons]
    rw [List.find?_cons] at h ⊢
    by_cases hy : (decide (y.kind = k) && decide (y.progress = .taken)) = true
    · rw [hy] at h
      obtain rfl : y = x := Option.some.inj h
      rw [if_neg fun h => ht h.symm, hy]
    · rw [Bool.not_eq_true] at hy
      rw [hy] at h
      have hset : (decide ((if y.tag = tag then { y with progress := Progress.ready } else y).kind = k) &&
          decide ((if y.tag = tag then { y with progress := Progress.ready } else y).progress = .taken)) = false := by
        split
        · simp
        · exact hy
      rw [hset]
      exact ih h

/-! ### The answer to the reset or standby request -/

/-- The link with its own taken request of a kind answered OK. -/
def Link.answerTaken (k : Kind) (l : Link) : Link :=
  match l.takenRequest k with
  | some x => l.answer k x.tag [0]
  | none => l

theorem Part.answerTaken_eq (k : Kind) (p : Part) : p.answerTaken k .ok = { p with link := p.link.answerTaken k } := by
  unfold Part.answerTaken Link.answerTaken
  cases p.link.takenRequest k <;> rfl

theorem Link.answerTaken_stands (k : Kind) (l : Link) :
    l.answerTaken k = { l with slots := (l.answerTaken k).slots, replies := (l.answerTaken k).replies } ∧
      ∀ r ∈ l.replies, r ∈ (l.answerTaken k).replies := by
  unfold Link.answerTaken
  split
  · exact ⟨rfl, fun r hr => List.mem_append_left _ hr⟩
  · exact ⟨rfl, fun _ hr => hr⟩

theorem Link.answerTaken_answers (k : Kind) (l : Link) (x : Slot) (h : l.takenRequest k = some x) :
    ⟨k.byte, x.tag, [0], true⟩ ∈ (l.answerTaken k).replies := by
  unfold Link.answerTaken
  rw [h]
  exact List.mem_append_right _ (List.mem_singleton_self _)

/-- R187 steps 4 to 6: the link at the end of a warm reset. -/
def Link.resetEnded (l : Link) : Link :=
  let answered := { l with notices := [], noticeLost := false }.answerTaken .partReset
  { answered with slots := releaseHeld answered.slots, resetting := false }

theorem Part.endWarmReset_eq (p : Part) :
    p.endWarmReset = { p.finishClearing with link := p.finishClearing.link.resetEnded } := by
  unfold Part.endWarmReset
  simp only
  rw [Part.answerTaken_eq]
  rfl

theorem Link.resetEnded_spec (l : Link) :
    l.resetEnded.resetting = false ∧ l.resetEnded.notices = [] ∧ l.resetEnded.noticeLost = false ∧
      (∀ x ∈ l.resetEnded.slots, x.progress ≠ .held) ∧ (∀ r ∈ l.replies, r ∈ l.resetEnded.replies) ∧
      ∀ x, l.takenRequest .partReset = some x → ⟨Kind.byte .partReset, x.tag, [0], true⟩ ∈ l.resetEnded.replies := by
  obtain ⟨honly, hkeeps⟩ := Link.answerTaken_stands .partReset { l with notices := [], noticeLost := false }
  refine ⟨rfl, congrArg Link.notices honly, congrArg Link.noticeLost honly, fun x hx => ?_, hkeeps, fun x hx => ?_⟩
  · obtain ⟨y, _, rfl⟩ := List.mem_map.1 (show x ∈ releaseHeld _ from hx)
    split
    · simp
    · assumption
  · exact Link.answerTaken_answers .partReset { l with notices := [], noticeLost := false } x hx

/-- R188 step 5: the link at the end of an entry to standby. -/
def Link.standbyEntered (l : Link) : Link := { l.answerTaken .standby with entering := false }

/-- R8, R54, R118: the blocks that an entry to standby ends in. -/
theorem Part.completeStandby_eq (p : Part) :
    p.completeStandby = { p.finishClearing with
      mem := { p.finishClearing.mem with state := .selfRefresh }
      bank := { p.finishClearing.bank with busOn := false, frame := none }
      strings := vmap (fun _ x => x.switchOff) p.finishClearing.strings
      link := (p.finishClearing.link.noted (.storeMemory .ready .selfRefresh) p.finishClearing.time).standbyEntered } := by
  unfold Part.completeStandby
  simp only
  rw [Part.answerTaken_eq, Part.raise_only_link]
  rfl

theorem Link.standbyEntered_spec (l : Link) (n : Notice) (now : PartTime) :
    (l.noted n now).standbyEntered.entering = false ∧
      (∀ r ∈ l.replies, r ∈ (l.noted n now).standbyEntered.replies) ∧
      ∀ x, l.takenRequest .standby = some x →
        ⟨Kind.byte .standby, x.tag, [0], true⟩ ∈ (l.noted n now).standbyEntered.replies := by
  have hnoted := (l.noted_noted n now).rest
  generalize l.noted n now = m at hnoted
  obtain ⟨_, hkeeps⟩ := m.answerTaken_stands .standby
  refine ⟨rfl, fun r hr => hkeeps r ?_, fun x hx => m.answerTaken_answers .standby x ?_⟩
  · rw [hnoted]
    exact hr
  · rw [hnoted]
    exact hx

/-! ### The store's part of them -/

/-- R36 step 3: the clips cleared touch the clips and the pages alone. -/
theorem Part.clearTable_only (p : Part) :
    let q := p.store.clips.foldl (fun q c =>
      if h : c.1 < 1024 then
        if c.2.state = .loading ∨ c.2.state = .retiring then q.clearClip ⟨c.1, h⟩ else q
      else q) p
    q = { p with store := { p.store with
      clips := q.store.clips, pageMap := q.store.pageMap, freeList := q.store.freeList } } := by
  refine foldl_keeps (I := fun r : Part => r = { p with store := { p.store with
    clips := r.store.clips, pageMap := r.store.pageMap, freeList := r.store.freeList } }) (fun (e : Nat × Clip) (q : Part) =>
      if h : e.1 < 1024 then
        if e.2.state = .loading ∨ e.2.state = .retiring then q.clearClip ⟨e.1, h⟩ else q
      else q) p.store.clips p (fun e _ r hr => ?_) rfl
  dsimp only
  by_cases he : e.1 < 1024
  · rw [dif_pos he]
    split
    · rw [(r.clearClip_spec ⟨e.1, he⟩).2.2.2.2, hr]
    · exact hr
  · rw [dif_neg he]
    exact hr

/-- R36: the end of the store's part touches the store, but for the loader, and the link alone. -/
theorem Part.finishClearing_only (p : Part) :
    let q := p.finishClearing
    q = { p with
      store := { p.store with
        clips := q.store.clips, pageMap := q.store.pageMap, freeList := q.store.freeList, clearing := none
        withdrawnSet := q.store.withdrawnSet, check := q.store.check }
      link := q.link } ∧
    ∀ cause, p.store.clearing = some cause → q.link = if p.store.check.running then
        p.link.answer .storeCheck p.store.check.tag (cause.status.byte :: p.cutCheck.fields)
      else p.link := by
  intro q
  cases hclearing : p.store.clearing with
  | none =>
    have hq : q = p := by
      change p.finishClearing = p
      unfold Part.finishClearing
      rw [hclearing]
    refine ⟨?_, fun _ h => absurd h (by simp)⟩
    rw [hq, ← hclearing]
  | some cause =>
    have hcleared := p.clearTable_only
    have hq : q = Part.abortCheck cause.status { p.store.clips.foldl (fun q c =>
        if h : c.1 < 1024 then
          if c.2.state = .loading ∨ c.2.state = .retiring then q.clearClip ⟨c.1, h⟩ else q
        else q) p with
      store := { (p.store.clips.foldl (fun q c =>
        if h : c.1 < 1024 then
          if c.2.state = .loading ∨ c.2.state = .retiring then q.clearClip ⟨c.1, h⟩ else q
        else q) p).store with clearing := none } } := by
      change p.finishClearing = _
      unfold Part.finishClearing
      rw [hclearing]
    dsimp only at hcleared
    generalize p.store.clips.foldl _ p = c at hcleared hq
    obtain ⟨_, _, honly⟩ := Part.abortCheck_spec { c with store := { c.store with clearing := none } } cause.status
    rw [← hq] at honly
    clear_value q
    clear hq
    have hcheck : c.store.check = p.store.check := by rw [hcleared]
    have hlink : c.link = p.link := by rw [hcleared]
    refine ⟨?_, fun cause' hcause => ?_⟩
    · rw [honly]
      change { c with store := { c.store with clearing := none, pageMap := _, freeList := _, withdrawnSet := _, check := _ }, link := _ } = _
      rw [hcleared]
    · obtain rfl := Option.some.inj hcause
      rw [honly]
      dsimp only
      unfold Part.cutCheck Part.cutFailed Part.cutBatch
      rw [hcheck, hlink]

theorem Part.finishClearing_rest (p : Part) :
    p.finishClearing = { p with store := p.finishClearing.store, link := p.finishClearing.link } ∧
      p.finishClearing.store.clearing = none := by
  have hall := p.finishClearing_only.1
  generalize p.finishClearing = c at hall
  rw [hall]
  exact ⟨rfl, rfl⟩

/-- Settles O19. -/
theorem standbyAndWarmResetComplete : Obligations.StandbyAndWarmResetComplete := by
  refine ⟨fun s hq hentering hmem hdev howed => ?_, fun s hq hresetting hbusy => ?_⟩
  · have hexec : exec .selfRefreshEntered s = .next (s.onPart Part.selfRefreshEntered) := rfl
    have hdone : s.part.selfRefreshEntered = s.part.completeStandby := if_pos ⟨hentering, hmem, hdev, howed⟩
    obtain ⟨honly, hclearing⟩ := s.part.finishClearing_rest
    have hsame : s.part.store.clearing = none → s.part.finishClearing = s.part := fun h => by
      unfold Part.finishClearing
      rw [h]
    rw [Part.completeStandby_eq] at hdone
    generalize s.part.finishClearing = c at honly hclearing hsame hdone
    rw [s.onPart_eq _ _ hdone (show c.bank.reports = [] by rw [honly]; exact hq)] at hexec
    have hmems : c.mem = s.part.mem := by rw [honly]
    have hbank : c.bank = s.part.bank := by rw [honly]
    have hstrings : c.strings = s.part.strings := by rw [honly]
    refine ⟨_, hexec, rfl, rfl, ?_, (Part.state_standby_iff _).2 rfl, ?_, fun i => ?_, ?_, hclearing, ?_, fun hnone => ?_⟩
    · exact congrArg (fun m : MemCtl => { m with state := .selfRefresh }) hmems
    · exact congrArg (fun b : Bank => { b with busOn := false, frame := none }) hbank
    · refine (vget_vmap _ _ _).trans ?_
      rw [hstrings]
      rfl
    · exact (Link.pump_stands _).1.trans (Link.standbyEntered_spec c.link _ c.time).1
    · refine (congrArg (fun q : Part => { q with
        mem := { c.mem with state := .selfRefresh }
        bank := { c.bank with busOn := false, frame := none }
        strings := vmap (fun _ x => x.switchOff) c.strings
        link := (c.link.noted (.storeMemory .ready .selfRefresh) c.time).standbyEntered.pump }) honly).trans rfl
    · obtain rfl := hsame hnone
      exact ⟨rfl, fun x hx => Link.pump_sends ((Link.standbyEntered_spec _ _ _).2.2 x hx)⟩
  · have hexec : exec .warmResetComplete s = .next (s.onPart Part.warmResetComplete) := rfl
    have hdone : s.part.warmResetComplete = s.part.endWarmReset := if_pos ⟨hresetting, hbusy⟩
    obtain ⟨honly, hclearing⟩ := s.part.finishClearing_rest
    have hsame : s.part.store.clearing = none → s.part.finishClearing = s.part := fun h => by
      unfold Part.finishClearing
      rw [h]
    rw [Part.endWarmReset_eq] at hdone
    generalize s.part.finishClearing = c at honly hclearing hsame hdone
    rw [s.onPart_eq _ _ hdone (show c.bank.reports = [] by rw [honly]; exact hq)] at hexec
    obtain ⟨hended, hnotices, hlost, hheld, _, hanswer⟩ := c.link.resetEnded_spec
    obtain ⟨_, hresetting', hempty, hslots⟩ := c.link.resetEnded.pump_stands
    obtain ⟨hnotices', hlost'⟩ := hempty hnotices hlost
    refine ⟨_, hexec, rfl, rfl, hresetting'.trans hended, hnotices', hlost', fun x hx => hheld x (hslots x hx), hclearing,
      ?_, fun hnone => ?_⟩
    · exact (congrArg (fun q : Part => { q with link := c.link.resetEnded.pump }) honly).trans rfl
    · obtain rfl := hsame hnone
      exact ⟨rfl, fun x hx => Link.pump_sends (hanswer x hx)⟩

end Sys2Proof.Machine
end

section
/-! PART-RESET and STANDBY as they are taken (R187 steps 1 and 2, R188 steps 1 to 3): the requests cut off, and the
store's part of both (R36). -/

namespace Sys2Proof.Machine

/-! ### Requests cut off -/

/-- The requests in the slots given are answered in turn, those of the Link Port and of a running check apart. -/
theorem Part.cutOffs (s : Status) (xs : List Slot) (p : Part) :
    ∃ l, xs.foldl (fun q x => q.cutOff s x) p = { p with link := l } ∧
      l = { p.link with slots := l.slots, replies := l.replies } ∧ (∀ r ∈ p.link.replies, r ∈ l.replies) ∧
      ∀ x ∈ xs, x.kind.owner ≠ .linkPort → x.kind ≠ .storeCheck → (x.progress = .intake ∨ x.progress = .taken) →
        ⟨x.kind.byte, x.tag, [s.byte], true⟩ ∈ l.replies := by
  induction xs generalizing p with
  | nil => exact ⟨p.link, rfl, rfl, fun _ h => h, by simp⟩
  | cons x xs ih =>
    have hone : ∃ l, p.cutOff s x = { p with link := l } ∧
        l = { p.link with slots := l.slots, replies := l.replies } ∧ (∀ r ∈ p.link.replies, r ∈ l.replies) ∧
        (x.kind.owner ≠ .linkPort → x.kind ≠ .storeCheck → (x.progress = .intake ∨ x.progress = .taken) →
          ⟨x.kind.byte, x.tag, [s.byte], true⟩ ∈ l.replies) := by
      by_cases ho : x.kind.owner = .linkPort
      · exact ⟨p.link, if_pos ho, rfl, fun _ h => h, fun h => absurd ho h⟩
      · have hcut : p.cutOff s x = (match x.progress with
          | .held | .ready => p
          | .intake => p.answer x.kind x.tag s (if x.kind = .storeCheck then eAbsent 12 else [])
          | .taken => if x.kind = .storeCheck then p else p.answer x.kind x.tag s []) := if_neg ho
        rw [hcut]
        cases hx : x.progress with
        | held => exact ⟨p.link, rfl, rfl, fun _ h => h, fun _ _ h => by simp at h⟩
        | ready => exact ⟨p.link, rfl, rfl, fun _ h => h, fun _ _ h => by simp at h⟩
        | intake =>
          refine ⟨_, rfl, rfl, fun r hr => List.mem_append_left _ hr, fun _ hk _ => List.mem_append_right _ ?_⟩
          rw [if_neg hk]
          exact List.mem_singleton_self _
        | taken =>
          by_cases hk : x.kind = .storeCheck
          · exact ⟨p.link, if_pos hk, rfl, fun _ h => h, fun _ h => absurd hk h⟩
          · exact ⟨_, if_neg hk, rfl, fun r hr => List.mem_append_left _ hr,
              fun _ _ _ => List.mem_append_right _ (List.mem_singleton_self _)⟩
    obtain ⟨l1, hcut, hl1, hkeep1, hx1⟩ := hone
    obtain ⟨l2, hcuts, hl2, hkeep2, hx2⟩ := ih { p with link := l1 }
    refine ⟨l2, ?_, ?_, fun r hr => hkeep2 r (hkeep1 r hr), fun y hy ho hk hp => ?_⟩
    · rw [List.foldl_cons, hcut, hcuts]
    · rw [hl2]
      change { l1 with slots := _, replies := _ } = _
      rw [hl1]
    · rcases List.mem_cons.1 hy with rfl | hy
      · exact hkeep2 _ (hx1 ho hk hp)
      · exact hx2 y hy ho hk hp

theorem Link.refuse_slots (l : Link) (k tag : Byte) (s : Status) : (l.refuse k tag s).slots = l.slots := by
  unfold Link.refuse
  split <;> rfl

/-- R179: what the acceptance of a frame makes of the link: a slot is taken, or the slots stand. -/
theorem Part.accept_slots (p : Part) (k tag : Byte) (body : Bytes) :
    (p.accept k tag body).link.slots = p.link.slots ∨ ∃ x, (p.accept k tag body).link =
      { p.link with receiver := .hunting, slots := p.link.slots ++ [x] } := by
  unfold Part.accept
  extract_lets
  split
  · exact .inl (Link.refuse_slots _ _ _ _)
  · split
    · exact .inl (Link.refuse_slots _ _ _ _)
    · split
      · exact .inl (Link.refuse_slots _ _ _ _)
      · split
        · exact .inl (Link.refuse_slots _ _ _ _)
        · exact .inr ⟨_, rfl⟩

/-- R21: a request that is next at its block stands in a slot. -/
theorem Link.mem_slots_of_next (l : Link) (k : Kind) (tag : Byte) (body : Bytes) (h : l.next k tag body = true) :
    ⟨k, tag, body, .intake⟩ ∈ l.slots := by
  unfold Link.next at h
  rw [Bool.and_eq_true] at h
  obtain ⟨_, h⟩ := h
  split at h
  · rename_i s hs
    exact of_decide_eq_true h ▸ List.mem_of_find?_eq_some hs
  · exact absurd h Bool.false_ne_true

/-- R180, R187 step 2: a request that can be taken leaves the others in their slots. -/
theorem Part.takenLink_spec (p : Part) (k : Kind) (tag : Byte) (body : Bytes) (h : p.canTake k tag body) :
    p.takenLink k tag body = { p.link with
      receiver := (p.takenLink k tag body).receiver, slots := (p.takenLink k tag body).slots } ∧
    ∀ x ∈ p.link.slots, (x.progress = .intake ∨ x.progress = .taken) → ∃ y ∈ (p.takenLink k tag body).slots,
      y.kind = x.kind ∧ y.tag = x.tag ∧ (y.progress = .intake ∨ y.progress = .taken) := by
  have hoffered : p.offered k tag body = { p.link with
      receiver := (p.offered k tag body).receiver, slots := (p.offered k tag body).slots } ∧
      ∀ x ∈ p.link.slots, x ∈ (p.offered k tag body).slots := by
    have hnext := h.2
    unfold Part.offered at hnext ⊢
    by_cases hpending : p.link.pendingRequest k tag body = true
    · rw [if_pos hpending]
      exact ⟨rfl, fun _ hx => hx⟩
    · rw [if_neg hpending] at hnext ⊢
      rcases p.accept_slots k.byte tag body with hsame | ⟨x, hx⟩
      · have hmem := Link.mem_slots_of_next _ _ _ _ hnext
        rw [hsame] at hmem
        exact absurd (List.any_eq_true.2 ⟨_, hmem, by simp⟩) hpending
      · rw [hx]
        exact ⟨rfl, fun y hy => List.mem_append_left _ hy⟩
  obtain ⟨hstands, hslots⟩ := hoffered
  refine ⟨?_, fun x hx hp => ?_⟩
  · unfold Part.takenLink
    rw [hstands]
  · refine ⟨if x.tag = tag then { x with progress := .taken } else x,
      List.mem_map_of_mem (f := fun s : Slot => if s.tag = tag then { s with progress := .taken } else s) (hslots x hx),
      ?_⟩
    split
    · exact ⟨rfl, rfl, .inr rfl⟩
    · exact ⟨rfl, rfl, hp⟩

/-! ### What begins a warm reset and an entry to standby -/

/-- R187 steps 1 and 2: the part before its store's pages are freed and its blocks start. -/
def Part.resetBegun (p : Part) : Part :=
  let q := (((p.setResetting true).cutOffAll .aborted).recordReset).clearBlocks .warm
  { q with mem := { q.mem with ring := 15 } }

theorem Part.beginWarmReset_eq (p : Part) (h : p.state = .running) :
    p.beginWarmReset = p.resetBegun.clearNow.startRunning := by
  unfold Part.beginWarmReset
  extract_lets running q r t u
  exact if_pos (decide_eq_true h)

/-- R188 steps 1 to 3: the part before its store's pages are freed. -/
def Part.standbyBegun (p : Part) : Part :=
  let q := (((p.setEntering true).clearNotices.cutOffAll .inStandby).dropForStandby).clearBlocks .standby
  { q with supply := { q.supply with running := false } }

theorem Part.beginStandby_eq (p : Part) : p.beginStandby = p.standbyBegun.clearNow := rfl

/-- R101: the notices of the dropped sets. -/
theorem Part.dropForStandby_spec (p : Part) :
    ∃ l last, p.dropForStandby = { p with ann := { p.ann with last := last }, link := l } ∧ p.link.Noted l ∧
      (p.ann.playing = none → p.ann.queue = [] → l = p.link) := by
  unfold Part.dropForStandby
  extract_lets sets
  have hdrop : ∀ (is : List SetId) (q : Part), ∃ l last,
      is.foldl (fun q i => q.annNotice i .dropped (some .standby)) q =
        { q with ann := { q.ann with last := last }, link := l } ∧ q.link.Noted l := by
    intro is
    induction is with
    | nil => exact fun q => ⟨q.link, q.ann.last, rfl, .refl _⟩
    | cons i is ih =>
      intro q
      obtain ⟨l, last, hq, hl⟩ := ih (q.annNotice i .dropped (some .standby))
      rw [Part.annNotice_dropped] at hq hl
      refine ⟨l, last, ?_, (Link.noted_noted _ _ _).trans hl⟩
      rw [List.foldl_cons, Part.annNotice_dropped, hq]
  by_cases hidle : p.ann.playing = none ∧ p.ann.queue = []
  · have hsets : sets = [] := by
      unfold sets
      rw [hidle.1, hidle.2]
      rfl
    rw [hsets]
    exact ⟨p.link, p.ann.last, rfl, .refl _, fun _ _ => rfl⟩
  · obtain ⟨l, last, hq, hl⟩ := hdrop sets p
    exact ⟨l, last, hq, hl, fun h1 h2 => absurd ⟨h1, h2⟩ hidle⟩

/-- R187 step 2: the part with its requests cut off and its playing set's ending recorded. -/
theorem Part.resetBegun_eq (p : Part) :
    ∃ l last, p.resetBegun = (let q := Part.clearBlocks .warm { p with ann := { p.ann with last := last }, link := l }
        { q with mem := { q.mem with ring := 15 } }) ∧
      l = { p.link with resetting := true, slots := l.slots, replies := l.replies } ∧
      (∀ r ∈ p.link.replies, r ∈ l.replies) ∧
      ∀ x ∈ p.link.slots, x.kind.owner ≠ .linkPort → x.kind ≠ .storeCheck →
        (x.progress = .intake ∨ x.progress = .taken) → ⟨x.kind.byte, x.tag, [15], true⟩ ∈ l.replies := by
  obtain ⟨l, hcut, hl, hkeep, hx⟩ := Part.cutOffs .aborted (p.setResetting true).link.slots (p.setResetting true)
  have hcutAll : (p.setResetting true).cutOffAll .aborted = { p with link := l } := hcut
  unfold Part.resetBegun
  rw [hcutAll]
  unfold Part.recordReset
  cases p.ann.playing with
  | none => exact ⟨l, p.ann.last, rfl, hl, hkeep, hx⟩
  | some r => exact ⟨l, _, rfl, hl, hkeep, hx⟩

theorem Part.standbyBegun_eq (p : Part) :
    ∃ l last, p.standbyBegun = (let q := Part.clearBlocks .standby { p with ann := { p.ann with last := last }, link := l }
        { q with supply := { q.supply with running := false } }) ∧
      l = { p.link with
        entering := true, slots := l.slots, replies := l.replies, notices := l.notices, noticeLost := l.noticeLost } ∧
      (∀ r ∈ p.link.replies, r ∈ l.replies) ∧
      (∀ x ∈ p.link.slots, x.kind.owner ≠ .linkPort → x.kind ≠ .storeCheck →
        (x.progress = .intake ∨ x.progress = .taken) → ⟨x.kind.byte, x.tag, [14], true⟩ ∈ l.replies) ∧
      (p.ann.playing = none → p.ann.queue = [] → l.notices = [] ∧ l.noticeLost = false) := by
  obtain ⟨l, hcut, hl, hkeep, hx⟩ := Part.cutOffs .inStandby (p.setEntering true).clearNotices.link.slots
    (p.setEntering true).clearNotices
  have hcutAll : (p.setEntering true).clearNotices.cutOffAll .inStandby = { p with link := l } := hcut
  obtain ⟨l', last, hdrop, hnoted, hsame⟩ := Part.dropForStandby_spec { p with link := l }
  unfold Part.standbyBegun
  rw [hcutAll, hdrop]
  have hreplies : l'.replies = l.replies := by rw [hnoted.rest]
  refine ⟨l', last, rfl, ?_, ?_, ?_, fun h1 h2 => ?_⟩
  · rw [hnoted.rest]
    change { l with notices := _, noticeLost := _ } = _
    rw [hl]
    rfl
  · rw [hreplies]
    exact hkeep
  · rw [hreplies]
    exact hx
  · rw [hsame h1 h2, hl]
    exact ⟨rfl, rfl⟩

end Sys2Proof.Machine
end

section
/-! The store's part of a reset, at once or at the end of the transfer in progress (R15, R36). -/

namespace Sys2Proof.Machine

/-! ### The holds given back (R36 step 2) -/

/-- R36 step 2: a LOADING or READY clip without its holds. -/
def Clip.unheld (x : Clip) : Clip := if x.state = .loading ∨ x.state = .ready then { x with hold := 0 } else x

theorem Clip.unheld_eq (x : Clip) : x.unheld = { x with hold := x.unheld.hold } := by
  unfold Clip.unheld
  split <;> rfl

theorem Clip.unheld_ready {x : Clip} (h : x.state = .ready) : x.unheld = { x with hold := 0 } := if_pos (.inr h)

theorem tfind_map {α : Type} (f : α → α) (t : List (Nat × α)) (n : Nat) :
    tfind (t.map fun e => (e.1, f e.2)) n = (tfind t n).map f := by
  induction t with
  | nil => rfl
  | cons e t ih =>
    obtain ⟨k, x⟩ := e
    simp only [List.map_cons, tfind]
    split
    · rfl
    · exact ih

theorem tget_map {α : Type} (f : α → α) (d : α) (hd : f d = d) (t : List (Nat × α)) (n : Nat) :
    tget d (t.map fun e => (e.1, f e.2)) n = f (tget d t n) := by
  unfold tget
  rw [tfind_map]
  cases tfind t n with
  | none => exact hd.symm
  | some x => rfl

theorem risingFrom_map {α : Type} (f : α → α) (t : List (Nat × α)) (b : Nat) (h : risingFrom b t) :
    risingFrom b (t.map fun e => (e.1, f e.2)) := by
  induction t generalizing b with
  | nil => trivial
  | cons e t ih => exact ⟨h.1, ih _ h.2⟩

theorem Part.clearStore_clips (p : Part) :
    p.clearStore.store.clips = p.store.clips.map fun e => (e.1, e.2.unheld) := by
  refine List.map_congr_left fun e _ => Prod.ext rfl ?_
  dsimp only
  unfold Clip.unheld
  cases he : e.2.state <;> simp

theorem Part.clearStore_clip (p : Part) (c : ClipId) : p.clearStore.clip c = (p.clip c).unheld := by
  unfold Part.clip
  rw [Part.clearStore_clips]
  exact tget_map Clip.unheld Clip.empty rfl _ _

/-! ### The store cleared -/

/-- R15, R36: the clips, the pages and the check of `q`, when `p`'s have been cleared. -/
def Part.StoreCleared (p q : Part) : Prop :=
  (∀ c, ((p.clip c).state = .loading ∨ (p.clip c).state = .retiring) → q.clip c = Clip.empty) ∧
  ((p.broughtBack ++ p.cutFailed).Nodup →
    runsPages q.store.freeList = runsPages p.store.freeList ++ p.broughtBack ∧
    (∀ g ∈ p.broughtBack, q.pageEntry g = { state := .free, owner := none, index := none, next := none }) ∧
    (∀ g ∈ p.cutFailed, q.pageEntry g = { state := .withdrawn, owner := none, index := none, next := none }) ∧
    ∀ g, g ∉ p.broughtBack → g ∉ p.cutFailed → q.pageEntry g = p.pageEntry g) ∧
  (∀ g, g ∈ q.store.withdrawnSet ↔ g ∈ p.store.withdrawnSet ∨ g ∈ p.cutFailed) ∧
  q.store.clearing = none ∧ (p.store.check.running = true → q.store.check = p.cutCheck) ∧
  (p.store.check.running = false → q.store.check = p.store.check)

theorem Part.StoreCleared.of_store {p q q' : Part} (h : p.StoreCleared q) (hs : q'.store = q.store) :
    p.StoreCleared q' := by
  unfold Part.StoreCleared Part.clip Part.pageEntry at *
  rw [hs]
  exact h

theorem Part.finishClearing_cleared (p : Part) (cause : ResetCause) (hc : p.store.clearing = some cause)
    (ht : tableSorted p.store.clips = true) :
    p.StoreCleared p.finishClearing ∧
      ∀ c, (p.clip c).state = .ready → p.finishClearing.clip c = p.clip c := by
  obtain ⟨hclips, hpages, honly⟩ := p.finishClearing_spec cause hc ht
  generalize p.finishClearing = q at hclips hpages honly
  refine ⟨⟨fun c h => ?_, fun hnd => ?_, fun g => ?_, ?_, fun hr => ?_, fun hr => ?_⟩, fun c hready => ?_⟩
  · rw [hclips, if_pos ((p.mem_freed c).2 h)]
  · obtain ⟨hfree, hentry⟩ := hpages hnd
    have hapart := (List.nodup_append.1 hnd).2.2
    refine ⟨hfree, fun g hg => ?_, fun g hg => ?_, fun g hb hf => ?_⟩
    · exact (hentry g).trans (if_pos hg)
    · exact (hentry g).trans ((if_neg fun hb => hapart g hb g hg rfl).trans (if_pos hg))
    · exact (hentry g).trans ((if_neg hb).trans (if_neg hf))
  · rw [honly]
    exact mem_insertPages _ _ _
  · rw [honly]
  · rw [honly]
    exact if_pos hr
  · rw [honly]
    exact if_neg (by rw [hr]; exact Bool.false_ne_true)
  · rw [hclips, if_neg]
    rw [Part.mem_freed, hready]
    simp

/-- R36: the clearing of the part whose holds have been given back clears the part that it was. -/
theorem Part.finishClearing_begun (p q : Part) (cause : ResetCause)
    (hs : q.store = { p.clearStore.store with clearing := some cause }) (ht : tableSorted p.store.clips = true) :
    p.StoreCleared q.finishClearing ∧
      (∀ c, (p.clip c).state = .ready → q.finishClearing.clip c = { p.clip c with hold := 0 }) ∧
      q.cutCheck = p.cutCheck := by
  have hcheck : q.store.check = p.store.check := by rw [hs]; rfl
  have hmap : q.store.pageMap = p.store.pageMap := by rw [hs]; rfl
  have hfree : q.store.freeList = p.store.freeList := by rw [hs]; rfl
  have hset : q.store.withdrawnSet = p.store.withdrawnSet := by rw [hs]; rfl
  have hclips : q.store.clips = p.clearStore.store.clips := by rw [hs]
  have hclip : ∀ c, q.clip c = (p.clip c).unheld := fun c => by
    rw [← p.clearStore_clip c]
    unfold Part.clip
    rw [hclips]
  have hstate : ∀ c, (q.clip c).state = (p.clip c).state := fun c => by
    rw [hclip, Clip.unheld_eq]
  have hfailed : q.cutFailed = p.cutFailed := by
    unfold Part.cutFailed Part.cutBatch
    rw [hcheck]
  have hcut : q.cutCheck = p.cutCheck := by
    unfold Part.cutCheck
    rw [hfailed]
    unfold Part.cutBatch
    rw [hcheck]
  have hback : q.broughtBack = p.broughtBack := by
    unfold Part.broughtBack Part.freed Part.cutReturned Part.cutBatch
    rw [hcheck]
    have hchain : q.chainOf = p.chainOf := funext fun c => by
      unfold Part.chainOf
      rw [hmap, hclip, Clip.unheld_eq]
    rw [hchain]
    simp only [hstate]
  have hentry : ∀ g, q.pageEntry g = p.pageEntry g := fun g => by
    unfold Part.pageEntry
    rw [hmap]
  have hsorted : tableSorted q.store.clips = true := by
    rw [hclips, Part.clearStore_clips, tableSorted_iff]
    exact risingFrom_map _ _ _ ((tableSorted_iff _).1 ht)
  obtain ⟨hcleared, hready⟩ := q.finishClearing_cleared cause (by rw [hs]) hsorted
  refine ⟨?_, fun c hc => ?_, hcut⟩
  · unfold Part.StoreCleared at hcleared ⊢
    simp only [hstate, hback, hfailed, hfree, hset, hentry, hcheck, hcut] at hcleared
    exact hcleared
  · rw [hready c ((hstate c).trans hc), hclip, Clip.unheld_ready hc]

/-- R187, R188: the rounds, the converter and the zones start beside the store and the link. -/
theorem Part.startRunning_rest (p : Part) :
    p.startRunning = { p with
      strings := p.startRunning.strings, seats := p.startRunning.seats
      supply := p.startRunning.supply, light := p.startRunning.light } := by
  obtain ⟨hrest, _⟩ := Part.beginRounds_spec (List.finRange 4) p (List.nodup_finRange 4)
  have hstart : p.startRunning = { p.beginRounds with
      supply := p.beginRounds.supply.start p.beginRounds.time
      light := p.beginRounds.light.comeUp p.beginRounds.time } := rfl
  have hbegun : p.beginRounds = (List.finRange 4).foldl (fun (q : Part) i => q.beginRound i) p := rfl
  rw [← hbegun] at hrest
  generalize p.beginRounds = q at *
  rw [hstart, hrest]

/-! ### The store's part at its moments -/

theorem Part.withdrawAll_busy (p : Part) : p.withdrawAll.mem.device.busy = p.mem.device.busy := by
  unfold Part.withdrawAll
  cases p.mem.device <;> rfl

/-- R36 steps 1 and 2: `q` is the part `p` once a reset has stopped its loader and given back its holds. -/
structure Part.BegunFrom (p : Part) (cause : ResetCause) (q : Part) : Prop where
  store : q.store = { p.clearStore.store with clearing := some cause }
  busy : q.mem.device.busy = p.mem.device.busy
  reports : q.bank.reports = []

theorem Part.resetBegun_from (p : Part) (l : Link) : p.BegunFrom .warm { p with link := l }.resetBegun := by
  obtain ⟨l', last, hb, _⟩ := Part.resetBegun_eq { p with link := l }
  rw [hb]
  exact ⟨rfl, p.withdrawAll_busy, rfl⟩

theorem Part.standbyBegun_from (p : Part) (l : Link) : p.BegunFrom .standby { p with link := l }.standbyBegun := by
  obtain ⟨l', last, hb, _⟩ := Part.standbyBegun_eq { p with link := l }
  rw [hb]
  exact ⟨rfl, p.withdrawAll_busy, rfl⟩

/-- R15: the reply of a running check. -/
def Part.checkReply (p : Part) (cause : ResetCause) : Reply :=
  ⟨Kind.byte .storeCheck, p.store.check.tag, cause.status.byte :: p.cutCheck.fields, true⟩

/-- R15, R36: with no transfer in progress the store is cleared at once, and a running check is answered. -/
theorem Part.BegunFrom.clearNow {p q : Part} {cause : ResetCause} (h : p.BegunFrom cause q)
    (hbusy : p.mem.device.busy = false) (ht : tableSorted p.store.clips = true) :
    p.StoreCleared q.clearNow ∧ (∀ c, (p.clip c).state = .ready → q.clearNow.clip c = { p.clip c with hold := 0 }) ∧
      (p.store.check.running = true → p.checkReply cause ∈ q.clearNow.link.replies) ∧ q.clearNow.bank.reports = [] := by
  have hnow : q.clearNow = q.finishClearing := if_neg (by rw [h.busy, hbusy]; exact Bool.false_ne_true)
  obtain ⟨hcleared, hready, hcut⟩ := Part.finishClearing_begun p q cause h.store ht
  have hlink := q.finishClearing_only.2 cause (by rw [h.store])
  have hrest := q.finishClearing_rest.1
  have hcheck : q.store.check = p.store.check := by rw [h.store]; rfl
  rw [hnow]
  refine ⟨hcleared, hready, fun hr => ?_, ?_⟩
  · rw [hlink, hcheck, hcut, if_pos hr]
    exact List.mem_append_right _ (List.mem_singleton_self _)
  · generalize q.finishClearing = c at hrest
    rw [hrest]
    exact h.reports

/-- R15: the replies at the end of the store's part of a reset that found a transfer in progress. -/
theorem Part.finishClearing_answers (p : Part) (cause : ResetCause) (hc : p.store.clearing = some cause) :
    (p.store.check.running = true → p.checkReply cause ∈ p.finishClearing.link.replies) ∧
      ∀ k x, p.link.takenRequest k = some x → (p.store.check.running = true → p.store.check.tag ≠ x.tag) →
        p.finishClearing.link.takenRequest k = some x := by
  have hlink := p.finishClearing_only.2 cause hc
  rw [hlink]
  refine ⟨fun hr => ?_, fun k x hx htag => ?_⟩
  · rw [if_pos hr]
    exact List.mem_append_right _ (List.mem_singleton_self _)
  · split
    · rename_i hr
      exact Link.takenRequest_answer _ _ _ _ _ _ hx (htag hr)
    · exact hx

/-- Settles O20. -/
theorem resetFreesLoadingAndRetiringClips : Obligations.ResetFreesLoadingAndRetiringClips := by
  unfold Obligations.ResetFreesLoadingAndRetiringClips
  intro goes chain batch failed back ended cleared checkReply sent
  have hcleared : ∀ p q : Part, p.StoreCleared q → cleared p q := fun p q h => h
  refine ⟨fun p cause hc ht => ?_, fun s hq ht => ⟨fun cause hc => ?_, fun tag hactive hbusy => ?_⟩⟩
  · obtain ⟨hstore, hready⟩ := p.finishClearing_cleared cause hc ht
    refine ⟨hcleared _ _ hstore, hready, ?_⟩
    rw [p.finishClearing_only.2 cause hc]
    split <;> rfl
  · intro status done
    obtain ⟨hstore, hready⟩ := s.part.finishClearing_cleared cause hc ht
    obtain ⟨hcheck, htaken⟩ := s.part.finishClearing_answers cause hc
    have hreply : s.part.checkReply cause = ⟨Kind.byte .storeCheck, s.part.store.check.tag,
        status :: (e32 s.part.cutCheck.target ++ e32 s.part.cutCheck.tested ++ e32 s.part.cutCheck.withdrawn), true⟩ := by
      unfold status
      cases cause <;> rfl
    rw [hreply] at hcheck
    obtain ⟨honly, _⟩ := s.part.finishClearing_rest
    refine ⟨fun hresetting hdevice => ?_, fun hentering hmem hdevice howed => ?_⟩
    · have hexec : exec .warmResetComplete s = .next (s.onPart Part.warmResetComplete) := rfl
      have hdone : s.part.warmResetComplete = s.part.endWarmReset := if_pos ⟨hresetting, hdevice⟩
      rw [Part.endWarmReset_eq] at hdone
      generalize s.part.finishClearing = c at hstore hready hcheck htaken honly hdone
      rw [s.onPart_eq _ _ hdone (show c.bank.reports = [] by rw [honly]; exact hq)] at hexec
      obtain ⟨_, _, _, _, hkeeps, hanswer⟩ := c.link.resetEnded_spec
      exact ⟨_, hexec, rfl, rfl, hcleared _ _ (hstore.of_store rfl), hready,
        fun hr => Link.pump_sends (hkeeps _ (hcheck hr)), fun x hx htag => Link.pump_sends (hanswer x (htaken _ x hx htag))⟩
    · have hexec : exec .selfRefreshEntered s = .next (s.onPart Part.selfRefreshEntered) := rfl
      have hdone : s.part.selfRefreshEntered = s.part.completeStandby := if_pos ⟨hentering, hmem, hdevice, howed⟩
      rw [Part.completeStandby_eq] at hdone
      generalize s.part.finishClearing = c at hstore hready hcheck htaken honly hdone
      rw [s.onPart_eq _ _ hdone (show c.bank.reports = [] by rw [honly]; exact hq)] at hexec
      obtain ⟨_, hkeeps, hanswer⟩ := c.link.standbyEntered_spec (.storeMemory .ready .selfRefresh) c.time
      exact ⟨_, hexec, rfl, rfl, hcleared _ _ (hstore.of_store rfl), hready,
        fun hr => Link.pump_sends (hkeeps _ (hcheck hr)), fun x hx htag => Link.pump_sends (hanswer x (htaken _ x hx htag))⟩
  · intro done
    have hrunning : s.part.state = .running := of_decide_eq_true (Bool.and_eq_true_iff.1 hactive).1
    refine ⟨fun hcan => ?_, fun hcan => ?_⟩
    · have hexec : exec (.partReset tag []) s =
          .next (s.onPart (Part.request .partReset tag [] (Part.takePartReset tag []))) := rfl
      obtain ⟨hstore, hready, hcheck, hreports⟩ :=
        (s.part.resetBegun_from (s.part.takenLink .partReset tag [])).clearNow hbusy ht
      have htake : ({ s.part with link := s.part.takenLink .partReset tag [] } : Part).takePartReset tag [] = _ :=
        Part.beginWarmReset_eq _ hrunning
      generalize (Part.resetBegun _).clearNow = c at hstore hready hcheck hreports htake
      have hrest := c.startRunning_rest
      generalize c.startRunning = r at htake hrest
      have hrstore : r.store = c.store := by rw [hrest]
      have hrlink : r.link = c.link := by rw [hrest]
      have hrclip : ∀ d, r.clip d = c.clip d := fun d => by
        unfold Part.clip
        rw [hrstore]
      rw [s.onPart_request _ _ _ (Part.takePartReset tag []) _ hcan htake (by rw [hrest]; exact hreports)] at hexec
      rw [← hrlink] at hcheck
      exact ⟨_, hexec, rfl, rfl, hcleared _ _ (hstore.of_store hrstore), fun d hd => (hrclip d).trans (hready d hd),
        fun hr => Link.pump_sends (hcheck hr)⟩
    · have hexec : exec (.standby tag []) s =
          .next (s.onPart (Part.request .standby tag [] (Part.takeStandby tag []))) := rfl
      obtain ⟨hstore, hready, hcheck, hreports⟩ :=
        (s.part.standbyBegun_from (s.part.takenLink .standby tag [])).clearNow hbusy ht
      have htake : ({ s.part with link := s.part.takenLink .standby tag [] } : Part).takeStandby tag [] = _ :=
        (if_pos ((s.part.taken_active .standby tag []).trans hactive)).trans (Part.beginStandby_eq _)
      generalize (Part.standbyBegun _).clearNow = c at hstore hready hcheck hreports htake
      rw [s.onPart_request _ _ _ (Part.takeStandby tag []) _ hcan htake hreports] at hexec
      exact ⟨_, hexec, rfl, rfl, hcleared _ _ (hstore.of_store rfl), hready, fun hr => Link.pump_sends (hcheck hr)⟩

end Sys2Proof.Machine
end

section
/-! What a warm reset and an entry to standby clear and keep (R36, R53, R77, R101, R118, R135, R147, R159, R177). -/

namespace Sys2Proof.Machine

/-! ### The lighting (R177) -/

/-- R177: the lighting `m` is `l` with its run-time state cleared. -/
structure Light.FaultsCleared (l m : Light) : Prop where
  tables : m.scenes = l.scenes ∧ m.cues = l.cues
  chosen : m.active = 0 ∧ m.activeCue = none ∧ m.shed = .normal
  kept : ∀ z, (vget m.zones z).enabled = (vget l.zones z).enabled ∧ (vget m.zones z).safety = (vget l.zones z).safety ∧
    (vget m.zones z).minimum = (vget l.zones z).minimum ∧ (vget m.zones z).nominal = (vget l.zones z).nominal ∧
    (vget m.zones z).keep = (vget l.zones z).keep
  cleared : ∀ z, (vget m.zones z).fault = .ok ∧ (vget m.zones z).average = none ∧
    (vget m.zones z).averageLevel = none ∧ (vget m.zones z).openCount = 0 ∧ (vget m.zones z).leftAt = []
  targets : ∀ z, (vget m.zones z).target = m.effective z

/-- R177: a zone's record with its run-time state cleared and a target. -/
def Zone.clearedTo (x : Zone) (target : Nat) : Zone :=
  { x with
    fault := .ok, average := none, averageLevel := none, openCount := 0, level := 0, target := target
    stepDue := none, halves := 0, leftAt := [] }

theorem Light.cleared_zone_eq (l : Light) (z : ZoneId) :
    vget l.cleared.zones z = (vget l.zones z).clearedTo (l.cleared.effective z) := by
  have htarget := (l.cleared_zone z).2
  rw [← htarget]
  simp only [Light.cleared, vget_vmap]
  rfl

theorem Light.cleared_faultsCleared (l : Light) : l.FaultsCleared l.cleared where
  tables := ⟨rfl, rfl⟩
  chosen := ⟨rfl, rfl, rfl⟩
  kept z := by
    rw [l.cleared_zone_eq]
    exact ⟨rfl, rfl, rfl, rfl, rfl⟩
  cleared z := by
    rw [l.cleared_zone_eq]
    exact ⟨rfl, rfl, rfl, rfl, rfl⟩
  targets z := (l.cleared_zone z).2

/-- R177: the zones come up from the level 0, which leaves no sample behind. -/
theorem Light.comeUp_faultsCleared (l : Light) (now : PartTime) : l.FaultsCleared (l.cleared.comeUp now) where
  tables := ⟨rfl, rfl⟩
  chosen := ⟨rfl, rfl, rfl⟩
  kept z := by
    rw [Light.comeUp_fades, l.cleared_zone_eq]
    exact ⟨rfl, rfl, rfl, rfl, rfl⟩
  cleared z := by
    rw [Light.comeUp_fades, l.cleared_zone_eq]
    exact ⟨rfl, rfl, rfl, rfl, by simp [Zone.fadedTo, Zone.drivenAt, Zone.clearedTo]⟩
  targets z := (l.cleared.comeUp_zone now z).2

/-! ### The run-time state of the blocks -/

/-- R36, R53, R77, R101, R118, R135, R147, R159, R177: `q` is the part `p` with the run-time state of its blocks
cleared and their configuration kept. -/
structure Part.RunCleared (p q : Part) : Prop where
  mem : q.mem.state = p.mem.state ∧ q.mem.row = p.mem.row ∧ q.mem.owed = p.mem.owed ∧
    ∀ c, vget q.mem.waiting c = false
  loader : q.store.job = .none ∧ q.store.buffer = []
  bank : q.bank.readers = Bank.idleReaders ∧ q.bank.chimeRouting = false ∧ q.bank.busOn = p.bank.busOn
  reports : q.bank.reports = []
  langs : ∀ l, q.language l = { p.language l with
    audience := 0, stream := if (p.language l).enabled then .parked else .off
    current := none, waiting := [], resume := none }
  table : q.lang.default = p.lang.default ∧ q.lang.pa = p.lang.pa ∧ q.lang.hold = false
  ann : q.ann.sets = p.ann.sets ∧ q.ann.queue = [] ∧ q.ann.playing = none ∧ q.ann.deckAlert = false
  strings : ∀ i : StringId, (q.string i).population = (p.string i).pendingPopulation.getD (p.string i).population
  seats : ∀ i : SeatId,
    (q.seat i).node = (if i.val % 24 < (q.string (stringOf i)).population then .seeking else .unconfigured) ∧
    (q.seat i).missCount = 0 ∧ (q.seat i).language = (p.seat i).language ∧
    (q.seat i).volume = (p.seat i).volume ∧ (q.seat i).pending = .mute ∧
    (q.seat i).acknowledged = .mute ∧ (q.seat i).baselines = none ∧ (q.seat i).socket = Socket.cold
  level : q.level = { LevelUnit.cold with
    cap := p.level.cap, safetyFloor := p.level.safetyFloor, paBase := p.level.paBase, paCap := p.level.paCap }
  supply : q.supply = { p.supply.cleared with
    running := q.supply.running, intervalStart := q.supply.intervalStart, intervalLength := q.supply.intervalLength
    zoneIndex := q.supply.zoneIndex, conversions := q.supply.conversions }
  light : p.light.FaultsCleared q.light
  time : q.time = p.time

theorem Part.resetStrings_seat_eq (p : Part) (i : SeatId) : p.resetStrings.seat i =
    (p.seat i).reset (p.resetStrings.string (stringOf i)).population (positionOf i) := by
  unfold Part.resetStrings Part.seat Part.string
  dsimp only
  rw [vget_vmap]

theorem Part.clearBlocks_seat (cause : ResetCause) (p : Part) (i : SeatId) : (p.clearBlocks cause).seat i =
    (p.seat i).reset ((p.clearBlocks cause).string (stringOf i)).population (positionOf i) :=
  Part.resetStrings_seat_eq { p.clearStore.withdrawAll with
    store := { p.clearStore.withdrawAll.store with clearing := some cause }
    bank := p.bank.cleared, lang := p.lang.cleared, ann := p.ann.cleared } i

theorem Part.clearBlocks_runCleared (cause : ResetCause) (p : Part) : p.RunCleared (p.clearBlocks cause) where
  mem := ⟨rfl, rfl, rfl, fun c => vget_replicate false c⟩
  loader := ⟨rfl, rfl⟩
  bank := ⟨rfl, rfl, rfl⟩
  reports := rfl
  langs l := vget_vmap _ _ _
  table := ⟨rfl, rfl, rfl⟩
  ann := ⟨rfl, rfl, rfl, rfl⟩
  strings i := congrArg StringRec.population (vget_vmap _ p.strings i)
  seats i := by
    rw [Part.clearBlocks_seat]
    exact ⟨rfl, rfl, rfl, rfl, rfl, rfl, rfl, rfl⟩
  level := rfl
  supply := rfl
  light := p.light.cleared_faultsCleared
  time := rfl

/-- The cut-off requests and the ending recorded are no part of it. -/
theorem Part.RunCleared.of_cut {p q : Part} {l : Link} {last : Option LastEnding}
    (h : Part.RunCleared { p with ann := { p.ann with last := last }, link := l } q) : p.RunCleared q :=
  ⟨h.mem, h.loader, h.bank, h.reports, h.langs, h.table, h.ann, h.strings, h.seats, h.level, h.supply, h.light, h.time⟩

/-- R36: the pages that are freed and the check that is ended leave the rest cleared. -/
theorem Part.RunCleared.clearNow {p q : Part} (h : p.RunCleared q) : p.RunCleared q.clearNow := by
  unfold Part.clearNow
  split
  · exact h
  · have honly := q.finishClearing_only.1
    generalize q.finishClearing = c at honly
    rw [honly]
    exact ⟨h.mem, h.loader, h.bank, h.reports, h.langs, h.table, h.ann, h.strings, h.seats, h.level, h.supply, h.light,
      h.time⟩

/-- R118, R149, R177: the rounds, the converter and the zones start on the cleared blocks. -/
theorem Part.RunCleared.startRunning {p q : Part} (h : p.RunCleared q) (hlight : q.light = p.light.cleared) :
    p.RunCleared q.startRunning ∧ q.startRunning.supply = q.supply.start q.time ∧
      ∀ i, (q.startRunning.string i).roundStart = q.time := by
  obtain ⟨hrest, _, hseats, hrounds⟩ := Part.beginRounds_spec (List.finRange 4) q (List.nodup_finRange 4)
  have hstart : q.startRunning = { q.beginRounds with
      supply := q.beginRounds.supply.start q.beginRounds.time
      light := q.beginRounds.light.comeUp q.beginRounds.time } := rfl
  have hbegun : q.beginRounds = (List.finRange 4).foldl (fun (q : Part) i => q.beginRound i) q := rfl
  rw [← hbegun] at hrest hseats hrounds
  generalize q.beginRounds = r at *
  have hpopulation : ∀ i, (r.string i).population = (q.string i).population := fun i => by
    obtain ⟨_, _, hb, _⟩ := hrounds i (List.mem_finRange i)
    rw [hb]
  have hround : ∀ i, (r.string i).roundStart = q.time := fun i => by
    obtain ⟨_, _, hb, _⟩ := hrounds i (List.mem_finRange i)
    rw [hb]
  have hsupply : r.supply = q.supply := by rw [hrest]
  have hlights : r.light = q.light := by rw [hrest]
  have htime : r.time = q.time := by rw [hrest]
  rw [hsupply, hlights, htime, hlight] at hstart
  generalize q.startRunning = t at hstart
  subst hstart
  refine ⟨⟨?_, ?_, ?_, ?_, ?_, ?_, ?_, fun i => (hpopulation i).trans (h.strings i), fun i => ?_, ?_, ?_, ?_, ?_⟩, rfl, hround⟩
  · rw [hrest]
    exact h.mem
  · rw [hrest]
    exact h.loader
  · rw [hrest]
    exact h.bank
  · rw [hrest]
    exact h.reports
  · rw [hrest]
    exact h.langs
  · rw [hrest]
    exact h.table
  · rw [hrest]
    exact h.ann
  · obtain ⟨hnode, hmiss, hlang, hvolume, hpending, hack, hbase, hsocket⟩ := h.seats i
    rw [← hpopulation] at hnode
    have hseat := hseats i
    exact ⟨(congrArg Seat.node hseat).trans hnode, (congrArg Seat.missCount hseat).trans hmiss,
      (congrArg Seat.language hseat).trans hlang, (congrArg Seat.volume hseat).trans hvolume,
      (congrArg Seat.pending hseat).trans hpending, (congrArg Seat.acknowledged hseat).trans hack,
      (congrArg Seat.baselines hseat).trans hbase, (congrArg Seat.socket hseat).trans hsocket⟩
  · rw [hrest]
    exact h.level
  · change q.supply.start q.time = _
    rw [h.supply]
    rfl
  · exact p.light.comeUp_faultsCleared q.time
  · exact htime.trans h.time

/-- R15, R36: what the end of the store's part makes of the link. -/
theorem Part.clearNow_link (q : Part) (cause : ResetCause) (hc : q.store.clearing = some cause) :
    q.clearNow.link = { q.link with slots := q.clearNow.link.slots, replies := q.clearNow.link.replies } ∧
      (∀ r ∈ q.link.replies, r ∈ q.clearNow.link.replies) ∧
      (q.store.check.running = true → q.mem.device.busy = false → ∃ fields,
        ⟨Kind.byte .storeCheck, q.store.check.tag, cause.status.byte :: fields, true⟩ ∈ q.clearNow.link.replies) := by
  unfold Part.clearNow
  split
  · rename_i hbusy
    exact ⟨rfl, fun _ h => h, fun _ h => absurd (hbusy.symm.trans h) (by simp)⟩
  · have hlink := q.finishClearing_only.2 cause hc
    generalize q.finishClearing = c at hlink
    rw [hlink]
    split
    · exact ⟨rfl, fun r hr => List.mem_append_left _ hr,
        fun _ _ => ⟨_, List.mem_append_right _ (List.mem_singleton_self _)⟩⟩
    · rename_i hrun
      exact ⟨rfl, fun _ h => h, fun h => absurd h hrun⟩

theorem Part.clearNow_rest (q : Part) : q.clearNow = { q with store := q.clearNow.store, link := q.clearNow.link } := by
  unfold Part.clearNow
  split
  · rfl
  · exact q.finishClearing_rest.1

/-! ### PART-RESET and STANDBY -/

theorem Part.resetBegun_spec (p : Part) (l : Link) :
    let q := Part.resetBegun { p with link := l }
    p.RunCleared q ∧ q.mem.ring = 15 ∧ q.light = p.light.cleared ∧ q.supply = p.supply.cleared := by
  intro q
  obtain ⟨l', last, hb, _⟩ := Part.resetBegun_eq { p with link := l }
  have h := Part.RunCleared.of_cut
    (Part.clearBlocks_runCleared .warm { p with ann := { p.ann with last := last }, link := l' })
  have hq : q = { Part.clearBlocks .warm { p with ann := { p.ann with last := last }, link := l' } with
    mem := { (Part.clearBlocks .warm { p with ann := { p.ann with last := last }, link := l' }).mem with
      ring := 15 } } := hb
  rw [hq]
  exact ⟨⟨h.mem, h.loader, h.bank, h.reports, h.langs, h.table, h.ann, h.strings, h.seats, h.level, h.supply, h.light,
    h.time⟩, rfl, rfl, rfl⟩

theorem Part.standbyBegun_spec (p : Part) (l : Link) :
    let q := Part.standbyBegun { p with link := l }
    p.RunCleared q ∧ q.light = p.light.cleared ∧ q.supply = { p.supply.cleared with running := false } := by
  intro q
  obtain ⟨l', last, hb, _⟩ := Part.standbyBegun_eq { p with link := l }
  have h := Part.RunCleared.of_cut
    (Part.clearBlocks_runCleared .standby { p with ann := { p.ann with last := last }, link := l' })
  have hq : q = { Part.clearBlocks .standby { p with ann := { p.ann with last := last }, link := l' } with
    supply := { (Part.clearBlocks .standby { p with ann := { p.ann with last := last }, link := l' }).supply with
      running := false } } := hb
  rw [hq]
  exact ⟨⟨h.mem, h.loader, h.bank, h.reports, h.langs, h.table, h.ann, h.strings, h.seats, h.level, rfl, h.light,
    h.time⟩, rfl, rfl⟩

/-- R187, R188: the link `m` holds a reply of a status to each request that the blocks of `p` held. -/
structure Part.CutOffIn (p : Part) (s : Status) (m : Link) : Prop where
  requests : ∀ x ∈ p.link.slots, x.kind.owner ≠ .linkPort → x.kind ≠ .storeCheck →
    (x.progress = .intake ∨ x.progress = .taken) → ⟨x.kind.byte, x.tag, [s.byte], true⟩ ∈ m.replies
  check : p.store.check.running = true → p.mem.device.busy = false →
    ∃ fields, ⟨Kind.byte .storeCheck, p.store.check.tag, s.byte :: fields, true⟩ ∈ m.replies
  errors : m.linkError = p.link.linkError

/-- R187 steps 1 and 2, R188 steps 1 to 3: the requests cut off with a reset's taking. -/
theorem Part.BegunFrom.cutOff {p q : Part} {cause : ResetCause} (h : p.BegunFrom cause q) (k : Kind) (tag : Byte)
    (hcan : p.canTake k tag [])
    (herror : q.link.linkError = (p.takenLink k tag []).linkError)
    (hcut : ∀ x ∈ (p.takenLink k tag []).slots, x.kind.owner ≠ .linkPort → x.kind ≠ .storeCheck →
      (x.progress = .intake ∨ x.progress = .taken) → ⟨x.kind.byte, x.tag, [cause.status.byte], true⟩ ∈ q.link.replies) :
    p.CutOffIn cause.status q.clearNow.link := by
  obtain ⟨hlink, hkeeps, hcheck⟩ := q.clearNow_link cause (by rw [h.store])
  obtain ⟨htaken, hslots⟩ := p.takenLink_spec k tag [] hcan
  have hsame : q.store.check = p.store.check := by rw [h.store]; rfl
  refine ⟨fun x hx ho hk hp => ?_, fun hr hb => ?_, ?_⟩
  · obtain ⟨y, hy, hkind, htag, hprogress⟩ := hslots x hx hp
    have hreply := hkeeps _ (hcut y hy (by rw [hkind]; exact ho) (by rw [hkind]; exact hk) hprogress)
    rw [hkind, htag] at hreply
    exact hreply
  · have hreply := hcheck (by rw [hsame]; exact hr) (h.busy.trans hb)
    rw [hsame] at hreply
    exact hreply
  · rw [hlink]
    refine herror.trans ?_
    rw [htaken]

theorem Link.pump_linkError (l : Link) : l.pump.linkError = l.linkError := by
  unfold Link.pump
  split
  · rfl
  · split
    · rfl
    · split <;> rfl

/-- R187 steps 1 and 2: PART-RESET taken in RUNNING. -/
theorem State.partReset_taken (s : State) (tag : Byte) (hrunning : s.part.state = .running)
    (hcan : s.part.canTake .partReset tag []) :
    ∃ r, exec (.partReset tag []) s = .next { s with part := r.served } ∧ s.part.RunCleared r ∧
      s.part.CutOffIn .aborted r.link ∧ r.link.resetting = true ∧ r.mem.ring = 15 ∧ r.supply.running = true ∧
      r.supply.intervalStart = s.part.time ∧ r.supply.zoneIndex = 0 ∧
      (∀ z, vget r.supply.conversions z = if z = 0 then some s.part.time else none) ∧
      ∀ i, (r.string i).roundStart = s.part.time := by
  have hexec : exec (.partReset tag []) s =
      .next (s.onPart (Part.request .partReset tag [] (Part.takePartReset tag []))) := rfl
  obtain ⟨hrun, hring, hlight, hsupply⟩ := s.part.resetBegun_spec (s.part.takenLink .partReset tag [])
  have hfrom := s.part.resetBegun_from (s.part.takenLink .partReset tag [])
  obtain ⟨l, last, hb, hl, _, hcut⟩ :=
    Part.resetBegun_eq { s.part with link := s.part.takenLink .partReset tag [] }
  have hblink := congrArg Part.link hb
  have htake : ({ s.part with link := s.part.takenLink .partReset tag [] } : Part).takePartReset tag [] = _ :=
    Part.beginWarmReset_eq _ hrunning
  generalize Part.resetBegun _ = b at hrun hring hlight hsupply hfrom hblink htake
  replace hblink : b.link = l := hblink
  have hcutoff := hfrom.cutOff .partReset tag hcan (by rw [hblink, hl]) (by rw [hblink]; exact hcut)
  have hresetting : b.clearNow.link.resetting = true := by
    rw [(b.clearNow_link .warm (by rw [hfrom.store])).1, hblink, hl]
  have hnow := b.clearNow_rest
  have hclear := hrun.clearNow
  generalize b.clearNow = c at htake hcutoff hresetting hnow hclear
  have hcring : c.mem.ring = 15 := by rw [hnow]; exact hring
  have hclight : c.light = s.part.light.cleared := by rw [hnow]; exact hlight
  have hrest := c.startRunning_rest
  obtain ⟨hstarted, hstart, hrounds⟩ := hclear.startRunning hclight
  have htime := hclear.time
  generalize c.startRunning = r at htake hrest hstarted hstart hrounds
  have hrlink : r.link = c.link := by rw [hrest]
  rw [← hrlink] at hcutoff hresetting
  rw [s.onPart_request _ _ _ (Part.takePartReset tag []) _ hcan htake hstarted.reports] at hexec
  refine ⟨r, hexec, hstarted, hcutoff, hresetting, ?_, ?_, ?_, ?_, fun z => ?_, fun i => (hrounds i).trans htime⟩
  · rw [hrest]
    exact hcring
  · exact congrArg Supply.running hstart
  · exact (congrArg Supply.intervalStart hstart).trans htime
  · exact congrArg Supply.zoneIndex hstart
  · rw [hstart, ← htime]
    change vget (vmap (fun z _ => if z = 0 then some c.time else none) c.supply.conversions) z = _
    rw [vget_vmap]

/-- R188 steps 1 to 3: STANDBY taken in RUNNING. -/
theorem State.standby_taken (s : State) (tag : Byte) (hactive : s.part.active = true)
    (hcan : s.part.canTake .standby tag []) :
    ∃ c, exec (.standby tag []) s = .next { s with part := c.served } ∧ s.part.RunCleared c ∧
      s.part.CutOffIn .inStandby c.link ∧ c.link.pump.entering = true ∧
      (s.part.ann.playing = none → s.part.ann.queue = [] →
        c.link.pump.notices = [] ∧ c.link.pump.noticeLost = false) ∧
      c.supply.running = false ∧ (∀ z, vget c.supply.conversions z = none) ∧
      ∀ z, (vget c.light.zones z).level = 0 ∧ (vget c.light.zones z).stepDue = none := by
  have hexec : exec (.standby tag []) s =
      .next (s.onPart (Part.request .standby tag [] (Part.takeStandby tag []))) := rfl
  obtain ⟨hrun, hlight, hsupply⟩ := s.part.standbyBegun_spec (s.part.takenLink .standby tag [])
  have hfrom := s.part.standbyBegun_from (s.part.takenLink .standby tag [])
  obtain ⟨l, last, hb, hl, _, hcut, hnotices⟩ :=
    Part.standbyBegun_eq { s.part with link := s.part.takenLink .standby tag [] }
  have hblink := congrArg Part.link hb
  have htake : ({ s.part with link := s.part.takenLink .standby tag [] } : Part).takeStandby tag [] = _ :=
    (if_pos ((s.part.taken_active .standby tag []).trans hactive)).trans (Part.beginStandby_eq _)
  generalize Part.standbyBegun _ = b at hrun hlight hsupply hfrom hblink htake
  replace hblink : b.link = l := hblink
  have hcutoff := hfrom.cutOff .standby tag hcan (by rw [hblink, hl]) (by rw [hblink]; exact hcut)
  have hlink := (b.clearNow_link .standby (by rw [hfrom.store])).1
  have hnow := b.clearNow_rest
  have hclear := hrun.clearNow
  generalize b.clearNow = c at htake hcutoff hlink hnow hclear
  have hclight : c.light = s.part.light.cleared := by rw [hnow]; exact hlight
  have hcsupply : c.supply = { s.part.supply.cleared with running := false } := by rw [hnow]; exact hsupply
  rw [s.onPart_request _ _ _ (Part.takeStandby tag []) _ hcan htake hclear.reports] at hexec
  obtain ⟨hpentering, _, hpnotices, _⟩ := c.link.pump_stands
  have hentering : c.link.pump.entering = true := by
    rw [hpentering, hlink, hblink, hl]
  refine ⟨c, hexec, hclear, hcutoff, hentering, fun hp hqueue => ?_, congrArg Supply.running hcsupply, fun z => ?_,
    fun z => ?_⟩
  · obtain ⟨hempty, hlost⟩ := hnotices hp hqueue
    exact hpnotices (by rw [hlink, hblink]; exact hempty) (by rw [hlink, hblink]; exact hlost)
  · rw [hcsupply]
    exact vget_replicate none z
  · rw [hclight, Light.cleared_zone_eq]
    exact ⟨rfl, rfl⟩

/-- Settles O60. -/
theorem resetAndStandbyClearTheRunTimeState : Obligations.ResetAndStandbyClearTheRunTimeState := by
  intro s tag hq hactive p sent cleared
  have hrunning : s.part.state = .running := of_decide_eq_true (Bool.and_eq_true_iff.1 hactive).1
  have hready : s.part.mem.state = .ready := by
    unfold Part.state at hrunning
    cases hm : s.part.mem.state <;> cases ho : s.part.mem.origin <;> simp [hm, ho] at hrunning ⊢
  have hcleared : ∀ (cause : ResetCause) (r : Part), s.part.RunCleared r → s.part.CutOffIn cause.status r.link →
      cleared { s with part := r.served } cause.status := by
    intro cause r h hcut
    obtain ⟨hstate, hrow, howed, hwaiting⟩ := h.mem
    refine ⟨rfl, rfl, fun x hx ho hk hp => Link.pump_sends (hcut.requests x hx ho hk hp), fun hr hb => ?_,
      ⟨hstate.trans hready, hrow, howed, hwaiting⟩, h.loader.1, h.loader.2,
      h.bank, h.langs, h.table, h.ann, h.strings, h.seats, h.level, ?_, ?_, ?_, h.time⟩
    · obtain ⟨fields, hf⟩ := hcut.check hr hb
      exact ⟨fields, Link.pump_sends hf⟩
    · have hsupply : r.served.supply = r.supply := rfl
      dsimp only
      rw [hsupply, h.supply]
      exact ⟨rfl, rfl, rfl, rfl, rfl, rfl, rfl, rfl, rfl, rfl, rfl, rfl, rfl, fun z => vget_replicate none z⟩
    · obtain ⟨⟨hscenes, hcues⟩, ⟨hactive', hcue, hshed⟩, hkept, hfaults, htargets⟩ := h.light
      refine ⟨hscenes, hcues, hactive', hcue, hshed, fun z => ?_⟩
      obtain ⟨h1, h2, h3, h4, h5⟩ := hkept z
      obtain ⟨h6, h7, h8, h9, h10⟩ := hfaults z
      exact ⟨h1, h2, h3, h4, h5, h6, h7, h8, h9, h10, htargets z⟩
    · exact r.link.pump_linkError.trans hcut.errors
  refine ⟨fun hcan => ?_, fun hcan => ?_⟩
  · obtain ⟨r, hexec, hrun, hcutoff, hresetting, hring, hsupply, hstart, hindex, hconversions, hrounds⟩ :=
      s.partReset_taken tag hrunning hcan
    exact ⟨_, hexec, hcleared .warm r hrun hcutoff, (Link.pump_stands _).2.1.trans hresetting, hring, hsupply, hstart,
      hindex, hconversions, hrounds⟩
  · obtain ⟨c, hexec, hrun, hcutoff, hentering, hnotices, hsupply, hconversions, hzones⟩ :=
      s.standby_taken tag hactive hcan
    have hinactive : c.served.active = false := by
      change (_ && !c.link.pump.entering) = false
      rw [hentering]
      exact Bool.and_false _
    refine ⟨_, hexec, hcleared .standby c hrun hcutoff, hentering, hnotices, hinactive, hsupply, hconversions,
      fun z => ⟨if_neg ?_, (hzones z).1, (hzones z).2⟩⟩
    rw [hinactive]
    exact Bool.false_ne_true

end Sys2Proof.Machine
end

section
/-! CLIP-DROP and CLIP-DELETE (R29 to R31, R33, R48). -/

namespace Sys2Proof.Machine

/-! ### Clips freed at once (R29, R31, R33) -/

/-- R33: a clip that is not RETIRING is freed without a notice. -/
theorem Part.freeClip_clear (p : Part) (c : ClipId) (h : (p.clip c).state ≠ .retiring) : p.freeClip c = p.clearClip c :=
  if_neg h

theorem Part.dropClip_unheld (p : Part) (c : ClipId) (hs : (p.clip c).state = .loading) (h0 : (p.clip c).hold = 0) :
    p.dropClip c = p.clearClip c :=
  (if_pos h0).trans (p.freeClip_clear c (by rw [hs]; simp))

theorem Part.deleteClip_unheld (p : Part) (c : ClipId) (hs : (p.clip c).state = .ready) (h0 : (p.clip c).hold = 0) :
    p.deleteClip c = p.clearClip c :=
  (if_pos h0).trans (p.freeClip_clear c (by rw [hs]; simp))

theorem Clip.resulting_unheld {x : Clip} (h : x.hold = 0) : e8 x.resulting.code = e8 0 := by
  unfold Clip.resulting
  rw [if_pos h]
  rfl

theorem Clip.resulting_held {x : Clip} (h : 1 ≤ x.hold) : e8 x.resulting.code = e8 3 := by
  unfold Clip.resulting
  rw [if_neg (by omega)]
  rfl

section

variable (p : Part) (tag : Byte) (body : Bytes) (c : ClipId) (hl : body.length = 2) (hc : b16 body 0 = c.val)

include hl hc

/-- R29: CLIP-DROP of a LOADING clip. -/
theorem Part.takeClipDrop_loading (hs : (p.clip c).state = .loading) :
    p.takeClipDrop tag body = (p.dropClip c).answer .clipDrop tag .ok (e8 (p.clip c).resulting.code) := by
  simp only [Part.takeClipDrop, readWord_two hl, ident_eq c hc, hs]

/-- R31: CLIP-DELETE of a LOADING clip. -/
theorem Part.takeClipDelete_loading (hs : (p.clip c).state = .loading) :
    p.takeClipDelete tag body = (p.dropClip c).answer .clipDelete tag .ok
      (e8 (p.clip c).resulting.code ++ e8 (p.clip c).setRefs) := by
  simp only [Part.takeClipDelete, readWord_two hl, ident_eq c hc, hs]

/-- R31: CLIP-DELETE of a READY clip. -/
theorem Part.takeClipDelete_ready (hs : (p.clip c).state = .ready) :
    p.takeClipDelete tag body = if (p.clip c).setRefs = 0 then
        (p.deleteClip c).answer .clipDelete tag .ok (e8 (p.clip c).resulting.code ++ e8 (p.clip c).setRefs)
      else p.answer .clipDelete tag .referenced (e8 2 ++ e8 (p.clip c).setRefs) := by
  have hfields : p.clipFields body 2 (fun x => e8 x.state.code ++ e8 x.setRefs) = e8 2 ++ e8 (p.clip c).setRefs := by
    unfold Part.clipFields
    rw [namedClip_of (le_of_eq hl.symm) hc]
    dsimp only
    rw [hs]
    rfl
  simp only [Part.takeClipDelete, readWord_two hl, ident_eq c hc, hs, hfields]

end

/-! ### A LOADING clip dropped in use (R30, R48) -/

/-- R30, R32: a dropped clip, before or after the release of its last hold. -/
def Clip.Dropped (x : Clip) : Prop := x.state = .retiring ∧ x.cause = some .dropped ∨ x = Clip.empty

/-- R48: the turn of one reader of an abandoned clip. -/
theorem Part.readerAbandoned_spec (p : Part) (c : ClipId) (r : ReaderId) :
    let q := p.readerAbandoned c r
    ((p.reader r).clip = some c → q.reader r = Reader.idle (p.reader r).owner ∧
      (⟨r, (p.reader r).owner, .abandoned⟩ : Report) ∈ q.bank.reports) ∧
    ((p.reader r).clip ≠ some c → q = p) ∧ (∀ o, o ≠ r → q.reader o = p.reader o) ∧
    (∀ x ∈ p.bank.reports, x ∈ q.bank.reports) ∧ ((p.clip c).Dropped → (q.clip c).Dropped) ∧
    ∀ d, d ≠ c → q.clip d = p.clip d := by
  unfold Part.readerAbandoned
  by_cases hc : (p.reader r).clip = some c
  · rw [if_pos hc]
    obtain ⟨hidle, hothers, hreports, hheld, hfreed, hclips⟩ := p.endReader_spec r .abandoned c hc
    refine ⟨fun _ => ⟨hidle, ?_⟩, fun h => absurd hc h, hothers, fun x hx => ?_, fun hdropped => ?_, hclips⟩
    · rw [hreports]
      exact List.mem_append_right _ (List.mem_singleton_self _)
    · rw [hreports]
      exact List.mem_append_left _ hx
    · rcases hdropped with ⟨hs, hcause⟩ | hempty
      · by_cases h2 : 2 ≤ (p.clip c).hold
        · rw [hheld (.inr h2)]
          exact .inl ⟨hs, hcause⟩
        · exact .inr (hfreed hs (by omega))
      · refine .inr ((hheld (.inl ?_)).trans ?_)
        · rw [hempty]
          simp [Clip.empty]
        · rw [hempty]
          rfl
  · rw [if_neg hc]
    exact ⟨fun h => absurd h hc, fun _ => rfl, fun _ _ => rfl, fun _ h => h, id, fun _ _ => rfl⟩

/-- R48: readers of an abandoned clip, told in turn. -/
theorem Part.readersAbandoned (c : ClipId) (rs : List ReaderId) (hnd : rs.Nodup) (p : Part) :
    let q := rs.foldl (fun q r => q.readerAbandoned c r) p
    (∀ r ∈ rs, (p.reader r).clip = some c → q.reader r = Reader.idle (p.reader r).owner ∧
      (⟨r, (p.reader r).owner, .abandoned⟩ : Report) ∈ q.bank.reports) ∧
    (∀ r, r ∉ rs ∨ (p.reader r).clip ≠ some c → q.reader r = p.reader r) ∧
    (∀ x ∈ p.bank.reports, x ∈ q.bank.reports) ∧ ((p.clip c).Dropped → (q.clip c).Dropped) ∧
    ∀ d, d ≠ c → q.clip d = p.clip d := by
  induction rs generalizing p with
  | nil => exact ⟨fun r hr => absurd hr (by simp), fun _ _ => rfl, fun _ h => h, id, fun _ _ => rfl⟩
  | cons r rs ih =>
    obtain ⟨hr, hnd⟩ := List.nodup_cons.1 hnd
    obtain ⟨hidle, hsame, hothers, hreports, hdropped, hclips⟩ := p.readerAbandoned_spec c r
    obtain ⟨hidle', hstand', hreports', hdropped', hclips'⟩ := ih hnd (p.readerAbandoned c r)
    rw [List.foldl_cons]
    generalize p.readerAbandoned c r = p1 at *
    refine ⟨fun o ho hc => ?_, fun o ho => ?_, fun x hx => hreports' x (hreports x hx), fun h => hdropped' (hdropped h),
      fun d hd => (hclips' d hd).trans (hclips d hd)⟩
    · rcases List.mem_cons.1 ho with rfl | ho
      · obtain ⟨h1, h2⟩ := hidle hc
        exact ⟨(hstand' o (.inl hr)).trans h1, hreports' _ h2⟩
      · have hne : o ≠ r := fun he => hr (he ▸ ho)
        have h := hidle' o ho
        rw [hothers o hne] at h
        exact h hc
    · by_cases hor : o = r
      · subst hor
        have hc : (p.reader o).clip ≠ some c := ho.resolve_left (by simp)
        rw [hstand' o (.inl hr), hsame hc]
      · refine (hstand' o (ho.imp (fun h hm => h (List.mem_cons_of_mem r hm)) fun h => ?_)).trans (hothers o hor)
        rw [hothers o hor]
        exact h

/-- R48: every reader of an abandoned clip ends, and the others stand. -/
theorem Part.eachReader_abandoned (p : Part) (c : ClipId) :
    (∀ r, (p.reader r).clip = some c →
      (p.eachReader fun r q => q.readerAbandoned c r).reader r = Reader.idle (p.reader r).owner ∧
      (⟨r, (p.reader r).owner, .abandoned⟩ : Report) ∈
        (p.eachReader fun r q => q.readerAbandoned c r).bank.reports) ∧
    (∀ r, (p.reader r).clip ≠ some c →
      (p.eachReader fun r q => q.readerAbandoned c r).reader r = p.reader r) ∧
    ((p.clip c).Dropped → ((p.eachReader fun r q => q.readerAbandoned c r).clip c).Dropped) ∧
    ∀ d, d ≠ c → (p.eachReader fun r q => q.readerAbandoned c r).clip d = p.clip d := by
  obtain ⟨hidle, hstand, _, hdropped, hclips⟩ :=
    Part.readersAbandoned c (List.finRange 14) (List.nodup_finRange 14) p
  unfold Part.eachReader
  generalize List.foldl _ p (List.finRange 14) = q at *
  exact ⟨fun r hr => hidle r (List.mem_finRange r) hr, fun r hr => hstand r (.inr hr), hdropped, hclips⟩

/-- R30: a LOADING clip in use is RETIRING before its readers are told. -/
theorem Part.dropClip_held (p : Part) (c : ClipId) (h : 1 ≤ (p.clip c).hold) :
    ∃ p1 : Part, p.dropClip c = p1.eachReader (fun r q => q.readerAbandoned c r) ∧
      (∀ r, p1.reader r = p.reader r) ∧ (p1.clip c).Dropped ∧ ∀ d, d ≠ c → p1.clip d = p.clip d := by
  let p0 := p.setClip c { p.clip c with state := .retiring, cause := some .dropped }
  let told := (List.finRange 14).any fun r => decide ((p0.reader r).clip = some c)
  have hdrop : p.dropClip c = (if told then p0.raise (.clip c .faultAbandoned) else p0).eachReader
      fun r q => q.readerAbandoned c r := if_neg (Nat.one_le_iff_ne_zero.1 h)
  have hsame : ∃ l, (if told then p0.raise (.clip c .faultAbandoned) else p0) = { p0 with link := l } := by
    split
    · exact ⟨_, Part.raise_only_link _ _⟩
    · exact ⟨p0.link, rfl⟩
  obtain ⟨l, hl⟩ := hsame
  rw [hl] at hdrop
  refine ⟨_, hdrop, fun _ => rfl, ?_, fun d hd => (Part.clip_setClip p c d _).trans (if_neg hd)⟩
  have hclip : p0.clip c = { p.clip c with state := .retiring, cause := some .dropped } := Part.clip_setClip_same _ _ _
  exact .inl ⟨congrArg Clip.state hclip, congrArg Clip.cause hclip⟩

/-- Settles O25. -/
theorem clipDropAndDeleteRemoveClips : Obligations.ClipDropAndDeleteRemoveClips := by
  refine ⟨fun s tag body c hq hlen hc => ?_, fun p c hs hhold => ?_⟩
  · intro x pages freed
    have hfreed : ∀ (k : Kind) (fields : Bytes) (i : Instr) (take : Part → Part),
        exec i s = .next (s.onPart (Part.request k tag body take)) → s.part.canTake k tag body →
        (∀ p : Part, p = { s.part with link := s.part.takenLink k tag body } →
          take p = (p.clearClip c).answer k tag .ok fields) →
        ∃ t, exec i s = .next t ∧ freed k fields t := by
      intro k fields i take hexec hcan htake
      obtain ⟨hempty, hothers, hfree, hentry, honly⟩ :=
        Part.clearClip_spec c { s.part with link := s.part.takenLink k tag body }
      have htaken := htake _ rfl
      generalize Part.clearClip c { s.part with link := s.part.takenLink k tag body } = q at *
      rw [s.onPart_request k tag body take _ hcan htaken (show q.bank.reports = [] by rw [honly]; exact hq)] at hexec
      refine ⟨_, hexec, rfl, rfl, hempty, hothers, hfree, hentry, ?_⟩
      exact (congrArg (fun q : Part => (q.answer k tag .ok fields).served) honly).trans rfl
    have hready := Part.takeClipDelete_ready { s.part with link := s.part.takenLink .clipDelete tag body } tag body c
      hlen hc
    refine ⟨fun hcan hs h0 => ?_, fun hcan hs h0 => ?_, fun hcan hs hrefs hhold => ?_, fun hcan hs hrefs => ?_⟩
    · refine hfreed .clipDrop _ _ (Part.takeClipDrop tag body) rfl hcan fun p hp => ?_
      have hclip : p.clip c = x := by rw [hp]; rfl
      rw [p.takeClipDrop_loading tag body c hlen hc (by rw [hclip]; exact hs), hclip,
        p.dropClip_unheld c (by rw [hclip]; exact hs) (by rw [hclip]; exact h0), Clip.resulting_unheld h0]
    · refine hfreed .clipDelete _ _ (Part.takeClipDelete tag body) rfl hcan fun p hp => ?_
      have hclip : p.clip c = x := by rw [hp]; rfl
      rcases hs with hs | ⟨hs, hrefs⟩
      · rw [p.takeClipDelete_loading tag body c hlen hc (by rw [hclip]; exact hs), hclip,
          p.dropClip_unheld c (by rw [hclip]; exact hs) (by rw [hclip]; exact h0), Clip.resulting_unheld h0]
      · rw [p.takeClipDelete_ready tag body c hlen hc (by rw [hclip]; exact hs), hclip, if_pos hrefs,
          p.deleteClip_unheld c (by rw [hclip]; exact hs) (by rw [hclip]; exact h0), Clip.resulting_unheld h0]
    · have hdelete : Part.deleteClip c { s.part with link := s.part.takenLink .clipDelete tag body } =
          Part.setClip { s.part with link := s.part.takenLink .clipDelete tag body } c
            { x with state := .retiring, cause := some .deleted } :=
        if_neg (Nat.one_le_iff_ne_zero.1 hhold)
      have hclip : Part.clip { s.part with link := s.part.takenLink .clipDelete tag body } c = x := rfl
      have htake := (hready hs).trans (if_pos hrefs)
      have hdone : e8 x.resulting.code ++ e8 x.setRefs = e8 3 ++ e8 0 := by
        rw [Clip.resulting_held hhold, hrefs]
      rw [hdelete, hclip, hdone] at htake
      exact congrArg _ (s.onPart_request _ _ _ (Part.takeClipDelete tag body) _ hcan htake hq)
    · exact congrArg _ (s.onPart_request _ _ _ (Part.takeClipDelete tag body) _ hcan
        ((hready hs).trans (if_neg (Nat.one_le_iff_ne_zero.1 hrefs))) hq)
  · intro q
    obtain ⟨p1, hdrop, hreader, hdropped, hclips⟩ := p.dropClip_held c hhold
    obtain ⟨hidle, hstand, hgone, hothers⟩ := p1.eachReader_abandoned c
    have hq : q = p.dropClip c := rfl
    clear_value q
    rw [← hdrop, ← hq] at hidle hstand hgone hothers
    simp only [hreader] at hidle hstand
    exact ⟨hidle, hstand, hgone hdropped, fun d hd => (hothers d hd).trans (hclips d hd)⟩

end Sys2Proof.Machine
end
